-- ==== Sys2Proof/Word.lean ====
section
/-! DEFINITION. The word types of the model and their plainest arithmetic. -/
namespace Sys2Proof

/-- One byte. -/
abbrev Byte := BitVec 8
/-- A register word or a Pypoiz syllable (R8, R281). -/
abbrev W32 := BitVec 32
/-- A Pypoiz general register (R280). -/
abbrev W64 := BitVec 64
/-- A Gecko value, mask or key. -/
abbrev W128 := BitVec 128
/-- A Pypoiz vector register (R280). -/
abbrev W256 := BitVec 256

end Sys2Proof
end

