-- ==== Sys2Proof/Operand.lean ====
section
/-! DEFINITION. The operand types of the commands: who acts, what a message carries, and what a part of the device that
the spec leaves outside the model (an analog outcome, a self-test) turned out to be. -/
namespace Sys2Proof

/-- Who reaches a register: a core, the steward, or the register messages of the management protocol (R8, R10). -/
inductive Agent
  | core (c : Fin 272)
  | steward
  | manager
deriving DecidableEq, Repr

/-- How the identical second attempt of a failed operation ended, by the rule that classifies faults (R222, R309):
no fault met, a transient fault, a lasting fault. -/
inductive FaultClass
  | none
  | transient
  | lasting
deriving DecidableEq, Repr

/-! ## Pypoiz -/

/-- An uncorrectable error found while a bundle executes (R309): the unit it was found in and, where lasting, the data
address (0 for a register). -/
inductive CoreErr
  | none
  | transient (unit : Nat)
  | lasting (unit addr : Nat)
deriving DecidableEq, Repr

/-- The bundle around an instruction: the core that executes it, the other syllables before and after it as words (their
stop bits are implied by their place), and an error met meanwhile. -/
structure Bundle where
  core : Fin 272
  before : List W32
  after : List W32
  err : CoreErr
deriving DecidableEq, Repr

/-- Why the steward halts a core (R307). -/
inductive HaltReason
  | instanceReset
  | engineReset
  | retirement
deriving DecidableEq, Repr

/-- The count of a repetition (R296, R299): a register, or 16 bits of the instruction. -/
inductive RepCount
  | reg (ra : BitVec 6)
  | const (n : BitVec 16)
deriving DecidableEq, Repr

/-! ## Memory controller -/

/-- One memory request (R340, R341, R343): its memory port, agent, owner and generation, its class (0 RT, 1 LT, 2 BK),
its wait so far in ns, its address, and the bytes it writes or the number it reads. `corrected` and `fault` say how the
lines of a read turned out (R352, R353). -/
structure MemReq where
  port : Fin 256
  agent : Nat
  inst : Fin 256
  gen : Nat
  cls : Nat
  waited : Nat
  addr : Nat
  write : Option (List Byte)
  len : Nat
  corrected : Bool
  fault : FaultClass
deriving DecidableEq, Repr

/-- How patrol scrub found a line (R354): good, corrected, or uncorrectable at first. -/
inductive ScrubRead
  | good
  | corrected
  | faulty (f : FaultClass)
deriving DecidableEq, Repr

/-! ## Networks -/

/-- The sender of a message: IPv4 or IPv6 address, UDP or TCP port, MAC address. -/
structure NetAddr where
  v6 : Bool
  ip : Nat
  l4 : Nat
  mac : Nat
deriving DecidableEq, Repr

/-- How a frame comes off the line (table NET_CNT): good with FEC codewords corrected in it, with codewords not correctable,
with a bad frame check sequence, or a pause or priority flow control frame. -/
inductive LineFate
  | good (corrected : Nat)
  | uncorrectable (codewords : Nat)
  | badFcs
  | pause
deriving DecidableEq, Repr

/-- A frame that arrives on an Ethernet port: its bytes on the wire, its fate, whether the receive buffer can place it
(R30), and the level of that buffer after it, in per mille (R342). -/
structure Arrival where
  port : Nat
  wire : Nat
  fate : LineFate
  room : Bool
  level : Nat
deriving DecidableEq, Repr

/-- How an NVMe/TCP PDU checks out (R226, R227): good, a bad header digest, out of sequence, a bad data digest. -/
inductive Pdu
  | good
  | badHeader
  | outOfSequence
  | badData
deriving DecidableEq, Repr

/-- How one attempt of a flash decode ladder went (R166): the step that converged with the right HCRC, STRIPE_SEQ and
POS (0 H, 1 S2, 2 S3), if any; steps that converged with a wrong header; and the bits read across each read boundary
(u, e of R173). -/
structure Ladder where
  step : Option (Fin 3)
  misdirects : Nat
  bounds : List (Nat × Nat)
deriving DecidableEq, Repr

/-- How a job's attempt on an engine went, where the engine itself failed (R137): the status it ended with and the
failing block. -/
structure JobFault where
  status : Nat
  block : Nat
deriving DecidableEq, Repr

/-- An inline-checker mismatch on a block of a compress job (R128); `lasting` when the second encoding differs too. -/
structure SelfCheck where
  block : Nat
  lasting : Bool
deriving DecidableEq, Repr

/-- What a die reports (R148, R187, R188): its READ ID bytes and its parameter page's geometry, its highest rate in units
of 200 MT/s, its blocks per plane and its longest page program time in µs. -/
structure DieInfo where
  id : List Byte
  pageBytes : Nat
  pagesPerBlock : Nat
  planes : Nat
  bits : Nat
  rate : Nat
  blocks : Nat
  prog : Nat
deriving DecidableEq, Repr

/-- What a carrier's record says (R182). -/
structure CarrierRec where
  tag : Nat
  slot : Nat
  metaVer : Nat
  time : Nat
deriving DecidableEq, Repr

/-! ## Fabric -/

/-- What a parcel's loss means to the flow that its flume carries: the rows of the table Lost transfers and missing
routes (R27), with the operation the parcel belongs to. -/
inductive FlowOp
  | ingest (port stream frame packet : Nat)
  | thumbnail (stream frame : Nat)
  | drain (stream frame : Nat)
  | host (handle : Nat)
  | mirrorWrite (handle : Nat)
  | gc (superblock : Nat)
  | forward (port : Nat)
deriving DecidableEq, Repr

/-! ## Management and power -/

/-- How a management message came (R406): a UDP datagram to a port, or the mailbox of PCIe physical function 0. -/
inductive Via
  | udp (peer : NetAddr) (port : Nat)
  | pf0
deriving DecidableEq, Repr

/-- A resource of a self-test or a retirement: fabric link, lane, core, codec engine, check engine, flash channel, memory
channel (with the readability of its contents), Gecko position. -/
inductive Resource
  | link (k : Nat)
  | lane (k : Nat)
  | core (c : Nat)
  | codec (e : Nat)
  | check (e : Nat)
  | flash (c : Nat)
  | memory (c : Nat)
  | gecko (i : Nat)
deriving DecidableEq, Repr

/-- What Bring-up and the build find (R58, R148, R428, R449): resources that fail self-test, adaptation or training; steward
pairs that pass; references valid; dies found; carriers whose CPRES_k is high, with their records; and the level of ball
MGT_MODE. -/
structure Found where
  bad : List Resource
  pair0 : Bool
  pair1 : Bool
  ref0 : Bool
  ref1 : Bool
  dies : List (Nat × Nat × DieInfo)
  present : List Nat
  records : List (Nat × Nat × Nat × Nat × Nat)
  mgtMode : Bool
  swapped : List Nat
deriving DecidableEq, Repr

/-- How a hold-up flush goes (R208, R213): issued stripes whose programs succeed, slots dumped before the energy ran out
(all where none), and the time it took in µs. -/
structure Flush where
  ok : List Nat
  cut : Option Nat
  us : Nat
deriving DecidableEq, Repr

/-- How the switch of a firmware activation goes (R422–R424): done after a hold in µs, not done, so that the hold runs on,
or the standby pair fails before it, and passes its self-test or not. -/
inductive Switch
  | done (us : Fin 50000)
  | held
  | standbyFailed (passes : Bool)
deriving DecidableEq, Repr

end Sys2Proof
end

