-- ==== Sys2Proof/Syntax.lean ====
section
/-! DEFINITION. The commands of the KD-512: one constructor per row of the opcode table, with the row's operands. Outcomes
that the spec leaves to analog parts, self-tests, media or other agents are operands of the command in which they show. -/
namespace Sys2Proof

/-- One command. -/
inductive Instr
  /-- REGISTER_WRITE (R11) -/
  | registerWrite (ag : Agent) (addr value : W32)
  /-- PAIR_LO_READ (R10) -/
  | pairLoRead (ag : Agent) (addr : W32)
  /-- PAIR_HI_READ (R10) -/
  | pairHiRead (ag : Agent) (addr : W32)
  /-- PARCEL_POISON (R24) -/
  | parcelPoison (flume link : Nat) (op : FlowOp)
  /-- PARCEL_RESEND_ARRIVE (R24) -/
  | parcelResendArrive (flume : Nat) (clean retry : Bool)
  /-- FLUME_ROUTE_SWITCH (R26) -/
  | flumeRouteSwitch (flume : Nat)
  /-- PTP_LOCK (R488) -/
  | ptpLock (port : Fin 128) (tai inc : Nat)
  /-- LANE_LOCK_LOSS (R37) -/
  | laneLockLoss (port : Fin 128) (lane : Fin 8) (readapts : Bool)
  /-- LANE_RETRY (R37) -/
  | laneRetry (port : Fin 128) (adapted : BitVec 8)
  /-- RETRAIN (R37) -/
  | retrain (port : Fin 128) (adapted : BitVec 8)
  /-- WIDEN (R37) -/
  | widen (port : Fin 128)
  /-- POWER_ON_RESET (R464) -/
  | powerOnReset (supplies : Bool) (found : Found)
  /-- COLD_RESET_PIN (R464) -/
  | coldResetPin (found : Found) (flush : Flush)
  /-- RECOVERY_RUN (R212) -/
  | recoveryRun (bad : Option Nat) (undecoded : List Nat)
  /-- HELLO (R74) -/
  | hello (arrival : Arrival) (src : NetAddr) (bytes : List Byte)
  /-- OPEN (R67) -/
  | openStream (arrival : Arrival) (src : NetAddr) (bytes : List Byte)
  /-- CLOSE (R86) -/
  | close (arrival : Arrival) (src : NetAddr) (bytes : List Byte)
  /-- CLOSE_ACK (R75) -/
  | closeAck (arrival : Arrival) (src : NetAddr) (bytes : List Byte)
  /-- HEARTBEAT (R77) -/
  | heartbeat (arrival : Arrival) (src : NetAddr) (bytes : List Byte)
  /-- KFSP_DATA_PACKET (R80) -/
  | kfspDataPacket (arrival : Arrival) (src : NetAddr) (raw : Bool) (bytes : List Byte)
  /-- ETHERNET_FRAME (R263) -/
  | ethernetFrame (arrival : Arrival) (toPort : Bool) (dmac : BitVec 48) (vlan : BitVec 12) (tagged : Bool) (l3 : BitVec 2) (proto : BitVec 8) (dport sport : BitVec 16) (src : NetAddr) (bytes : List Byte)
  /-- TOKEN_REFILL (R490) -/
  | tokenRefill
  /-- NAK_TIMEOUT (R81) -/
  | nakTimeout (stream : Fin 4096) (frame : BitVec 32)
  /-- REPAIR_DEADLINE (R81) -/
  | repairDeadline (stream : Fin 4096) (frame : BitVec 32)
  /-- STREAM_IDLE (R77) -/
  | streamIdle (stream : Fin 4096)
  /-- STREAM_IDLE_CLOSE (R77) -/
  | streamIdleClose (stream : Fin 4096)
  /-- VERDICT_BUDGET_EXPIRY (R94) -/
  | verdictBudgetExpiry (stream : Fin 4096) (frame : BitVec 32)
  /-- TRIGGER_INPUT_EDGE (R472) -/
  | triggerInputEdge (pin : Nat) (rising : Bool)
  /-- TRIGGER_DEBOUNCE_EXPIRY (R96) -/
  | triggerDebounceExpiry (pin : Nat)
  /-- SW_TRIG (R95) -/
  | swTrig (group : Fin 64)
  /-- TRIG_OUT_SECOND_PULSE (R472) -/
  | trigOutSecondPulse
  /-- TRIG_OUT_PULSE_END (R472) -/
  | trigOutPulseEnd (output : Nat)
  /-- WINDOW_CLOSE_GUARD (R98) -/
  | windowCloseGuard (window : Nat)
  /-- DRAIN_DISPATCH (R102) -/
  | drainDispatch
  /-- DRAIN_RESUME (R104) -/
  | drainResume (stream : Fin 4096)
  /-- CAPTURE_ARM (R106) -/
  | captureArm (cmd : Nat)
  /-- CAPTURE_DISARM (R96) -/
  | captureDisarm (cmd : Nat)
  /-- FREEZE_WINDOW (R107) -/
  | freezeWindow (cmd : Nat)
  /-- FRAME_QUERY (R108) -/
  | frameQuery (cmd : Nat)
  /-- QUERY_NEXT_MATCH (R108) -/
  | queryNextMatch (cmd : Nat)
  /-- QUERY_HANDLE_EXPIRY (R108) -/
  | queryHandleExpiry (handle : Nat)
  /-- FRAME_READ (R109) -/
  | frameRead (cmd : Nat)
  /-- CDC_Q_SQ_TAIL_WRITE (R131) -/
  | cdcQSqTailWrite (queue : Fin 64) (tail : BitVec 32)
  /-- CQ_HEAD_WRITE (R133) -/
  | cqHeadWrite (queue : Fin 64) (head : BitVec 32)
  /-- JOB_DISPATCH (R110) -/
  | jobDispatch
  /-- JOB_COMPLETE (R134) -/
  | jobComplete (engine : Fin 32) (first second : Option JobFault) (checks : List SelfCheck)
  /-- ENG_RESET (R145) -/
  | engReset (engine : Fin 32)
  /-- CTX_FREE (R143) -/
  | ctxFree (slot : Fin 256)
  /-- SUSPECT_CLEAR (R222) -/
  | suspectClear (what : Resource) (die : Fin 32)
  /-- DIE_TIMEOUT (R149) -/
  | dieTimeout (chan : Fin 32) (die : Fin 32) (op : Fin 3) (target : Nat) (fault : FaultClass)
  /-- FLASH_READ_DONE (R166) -/
  | flashReadDone (stripe pos cw : Nat) (erased : Bool) (first second : Ladder) (others : Bool)
  /-- SUSPEND_TIMEOUT (R163) -/
  | suspendTimeout (chan : Fin 32) (die : Fin 32)
  /-- PROGRAM_DONE (R156) -/
  | programDone (stripe : Nat) (carrier : Fin 16) (ok : Bool) (ns : Nat)
  /-- ERASE_DONE (R176) -/
  | eraseDone (superblock : Nat) (faults : List (Nat × FaultClass))
  /-- READ_LEVEL_SAVE (R175) -/
  | readLevelSave
  /-- TRAIN_PERIOD (R177) -/
  | trainPeriod (chan : Fin 32)
  /-- CH_RETRAIN (R177) -/
  | chRetrain (chan : Fin 32)
  /-- TRAINING_DONE (R178) -/
  | trainingDone (chan : Fin 32) (ok : Bool) (temp : Nat)
  /-- CH_ENG_RESET (R179) -/
  | chEngReset (chan : Fin 32)
  /-- CPRES_CHANGE (R180) -/
  | cpresChange (carrier : Fin 16) (high : Bool)
  /-- CARRIER_POWERED (R180) -/
  | carrierPowered (carrier : Fin 16)
  /-- CARRIER_TRAINING_DONE (R182) -/
  | carrierTrainingDone (carrier : Fin 16) (ok0 ok1 : Bool) (record : Option CarrierRec) (dies : List (Nat × Nat × DieInfo))
  /-- FORMAT_DONE (R182) -/
  | formatDone (carrier : Fin 16) (cols : List (Nat × Nat × Nat × Nat × Nat))
  /-- REBUILD_DONE (R184) -/
  | rebuildDone (carrier : Fin 16)
  /-- QUIESCE_DONE (R181) -/
  | quiesceDone (carrier : Fin 16)
  /-- PREPARE_REMOVAL (R181) -/
  | prepareRemoval (carrier : Fin 16)
  /-- CANCEL_REMOVAL (R181) -/
  | cancelRemoval (carrier : Fin 16)
  /-- FORMAT_HELD_CARRIER (R182) -/
  | formatHeldCarrier (carrier : Fin 16) (cols : List (Nat × Nat × Nat × Nat × Nat))
  /-- POWER_ON_CARRIER (R180) -/
  | powerOnCarrier (carrier : Fin 16)
  /-- PREPARE_REMOVAL_FORCED (R181) -/
  | prepareRemovalForced (carrier : Fin 16)
  /-- MIRROR_DONE (R32) -/
  | mirrorDone (cmd : Nat)
  /-- JOURNAL_PAGE_TIMER (R200) -/
  | journalPageTimer
  /-- JOURNAL_PAGE_WRITTEN (R201) -/
  | journalPageWritten (okA okB : Bool)
  /-- CHECKPOINT (R205) -/
  | checkpoint
  /-- GC_PASS (R218) -/
  | gcPass
  /-- FLASH_PATROL_SCRUB (R221) -/
  | flashPatrolScrub (stripe : Nat) (weak : Bool) (cols : List (Nat × Nat × Nat × Nat × Nat))
  /-- POWER_FAIL_ASSERT (R208) -/
  | powerFailAssert (flush : Flush)
  /-- POWER_FAIL_DEASSERT (R211) -/
  | powerFailDeassert (found : Found)
  /-- RAIL_UNDERVOLT (R461) -/
  | railUndervolt (rail : Nat) (flush : Flush)
  /-- ICREQ (R226) -/
  | icreq (conn pfv hpda : Nat) (hdgst ddgst : Bool) (maxr2t : Nat) (reserved : Bool)
  /-- TCP_SYN (R228) -/
  | tcpSyn (port : Fin 128) (peer : NetAddr) (dport : BitVec 16)
  /-- COMMAND_CAPSULE (R241) -/
  | commandCapsule (conn : Nat) (sqe data : List Byte) (pdu : Pdu)
  /-- H2C_DATA (R227) -/
  | h2cData (cmd off : Nat) (bytes : List Byte) (pdu : Pdu)
  /-- SQE_FETCH_DONE (R241) -/
  | sqeFetchDone (queue : Nat) (sqe : List Byte)
  /-- COMMAND_ADMIT (R242) -/
  | commandAdmit
  /-- SLOT_RESERVE (R246) -/
  | slotReserve (cmd : Nat)
  /-- COMMAND_RELEASE (R248) -/
  | commandRelease (cmd : Nat)
  /-- KEEP_ALIVE_TIMEOUT (R229) -/
  | keepAliveTimeout (ctrl : Nat)
  /-- CONNECTION_LOSS (R255) -/
  | connectionLoss (conn : Nat)
  /-- CONTROLLER_RESET (R255) -/
  | controllerReset (ctrl : Nat)
  /-- NORMAL_SHUTDOWN (R255) -/
  | normalShutdown (ctrl : Nat)
  /-- PERST (R464) -/
  | perst (link : Fin 2)
  /-- ADMISSION_HOLD_TIMEOUT (R256) -/
  | admissionHoldTimeout
  /-- DELETE_IO_SQ (R255) -/
  | deleteIoSq (cmd : Nat)
  /-- CREATE_IO_SQ (R243) -/
  | createIoSq (cmd : Nat)
  /-- DELETE_IO_CQ (R231) -/
  | deleteIoCq (cmd : Nat)
  /-- CREATE_IO_CQ (R231) -/
  | createIoCq (cmd : Nat)
  /-- GET_LOG_PAGE (R237) -/
  | getLogPage (cmd : Nat)
  /-- IDENTIFY (R236) -/
  | identify (cmd : Nat)
  /-- ABORT (R251) -/
  | abort (cmd : Nat)
  /-- SET_FEATURES (R243) -/
  | setFeatures (cmd : Nat)
  /-- GET_FEATURES (R237) -/
  | getFeatures (cmd : Nat)
  /-- ASYNC_EVENT_REQUEST (R398) -/
  | asyncEventRequest (cmd : Nat)
  /-- KEEP_ALIVE (R229) -/
  | keepAlive (cmd : Nat)
  /-- PROPERTY_GET (R225) -/
  | propertyGet (cmd : Nat)
  /-- PROPERTY_SET (R225) -/
  | propertySet (cmd : Nat)
  /-- CONNECT (R228) -/
  | connect (conn : Nat) (sqe data : List Byte)
  /-- MAILBOX_SEND (R397) -/
  | mailboxSend (cmd : Nat)
  /-- MAILBOX_RECEIVE (R398) -/
  | mailboxReceive (cmd : Nat)
  /-- INSTANCE_TELEMETRY (R401) -/
  | instanceTelemetry (cmd : Nat)
  /-- FLUSH (R250) -/
  | flush (cmd : Nat)
  /-- WRITE (R246) -/
  | write (cmd : Nat)
  /-- READ (R249) -/
  | read (cmd : Nat)
  /-- COMPARE (R237) -/
  | compare (cmd : Nat)
  /-- WRITE_ZEROES (R192) -/
  | writeZeroes (cmd : Nat)
  /-- DATASET_MANAGEMENT (R192) -/
  | datasetManagement (cmd : Nat)
  /-- VERIFY (R374) -/
  | verify (cmd : Nat)
  /-- RESERVATION_REGISTER (R237) -/
  | reservationRegister (cmd : Nat)
  /-- RESERVATION_REPORT (R237) -/
  | reservationReport (cmd : Nat)
  /-- RESERVATION_ACQUIRE (R237) -/
  | reservationAcquire (cmd : Nat)
  /-- RESERVATION_RELEASE (R237) -/
  | reservationRelease (cmd : Nat)
  /-- RETRIEVE (R238) -/
  | retrieve (cmd : Nat)
  /-- EXIST (R238) -/
  | exist (cmd : Nat)
  /-- LIST (R238) -/
  | list (cmd : Nat)
  /-- STORE (R238) -/
  | store (cmd : Nat)
  /-- DELETE (R238) -/
  | delete (cmd : Nat)
  /-- UNSUPPORTED_OPCODE (R239) -/
  | unsupportedOpcode (cmd : Nat)
  /-- GECKO_SEARCH (R259) -/
  | geckoSearch (ag : Agent) (ctx : Fin 276) (part : Fin 64) (fault : FaultClass)
  /-- GECKO_NEXT (R273) -/
  | geckoNext (ag : Agent) (ctx : Fin 276)
  /-- GECKO_END (R273) -/
  | geckoEnd (ag : Agent) (ctx : Fin 276)
  /-- GECKO_INVALIDATE (R268) -/
  | geckoInvalidate (ag : Agent) (ctx : Fin 276) (part : Fin 64) (pos : BitVec 20)
  /-- GECKO_WRITE (R268) -/
  | geckoWrite (ag : Agent) (ctx : Fin 276) (part : Fin 64) (pos : BitVec 20)
  /-- GECKO_VALIDATE (R268) -/
  | geckoValidate (ag : Agent) (ctx : Fin 276) (part : Fin 64) (pos : BitVec 20)
  /-- GECKO_INSERT (R271) -/
  | geckoInsert (ag : Agent) (ctx : Fin 276) (part : Fin 64) (pos : BitVec 20)
  /-- GECKO_READ (R268) -/
  | geckoRead (ag : Agent) (ctx : Fin 276) (part : Fin 64) (pos : BitVec 20)
  /-- GECKO_REPLACE (R268) -/
  | geckoReplace (ag : Agent) (ctx : Fin 276) (part : Fin 64) (pos : BitVec 20)
  /-- STEP_HANDLE_EXPIRY (R274) -/
  | stepHandleExpiry (ctx : Fin 276)
  /-- PARTITION_MOVE_DONE (R275) -/
  | partitionMoveDone (part : Fin 64)
  /-- PARITY_SCAN (R278) -/
  | parityScan (found : List (Nat × FaultClass))
  /-- ADD (R292) -/
  | add (u : Bundle) (b : Bool) (rd ra rb : BitVec 6)
  /-- SUB (R292) -/
  | sub (u : Bundle) (b : Bool) (rd ra rb : BitVec 6)
  /-- AND (R292) -/
  | and (u : Bundle) (b : Bool) (rd ra rb : BitVec 6)
  /-- OR (R292) -/
  | or (u : Bundle) (b : Bool) (rd ra rb : BitVec 6)
  /-- XOR (R292) -/
  | xor (u : Bundle) (b : Bool) (rd ra rb : BitVec 6)
  /-- ANDN (R292) -/
  | andn (u : Bundle) (b : Bool) (rd ra rb : BitVec 6)
  /-- SHL (R292) -/
  | shl (u : Bundle) (b : Bool) (rd ra rb : BitVec 6)
  /-- SHR (R292) -/
  | shr (u : Bundle) (b : Bool) (rd ra rb : BitVec 6)
  /-- SAR (R292) -/
  | sar (u : Bundle) (b : Bool) (rd ra rb : BitVec 6)
  /-- MUL (R292) -/
  | mul (u : Bundle) (b : Bool) (rd ra rb : BitVec 6)
  /-- MULHU (R292) -/
  | mulhu (u : Bundle) (b : Bool) (rd ra rb : BitVec 6)
  /-- MULHS (R292) -/
  | mulhs (u : Bundle) (b : Bool) (rd ra rb : BitVec 6)
  /-- MIN (R292) -/
  | min (u : Bundle) (b : Bool) (rd ra rb : BitVec 6)
  /-- MAX (R292) -/
  | max (u : Bundle) (b : Bool) (rd ra rb : BitVec 6)
  /-- MINU (R292) -/
  | minu (u : Bundle) (b : Bool) (rd ra rb : BitVec 6)
  /-- MAXU (R292) -/
  | maxu (u : Bundle) (b : Bool) (rd ra rb : BitVec 6)
  /-- CMP (R292) -/
  | cmp (u : Bundle) (b : Bool) (cond pd : BitVec 3) (ra rb : BitVec 6)
  /-- SEL (R292) -/
  | sel (u : Bundle) (b : Bool) (rd ra rb : BitVec 6) (p : BitVec 3)
  /-- UNARY (R292) -/
  | unary (u : Bundle) (b : Bool) (fn : BitVec 5) (rd ra : BitVec 6)
  /-- PLOG (R292) -/
  | plog (u : Bundle) (b : Bool) (fn : BitVec 5) (pd pa pb : BitVec 3)
  /-- MFS (R292) -/
  | mfs (u : Bundle) (b : Bool) (rd sel : BitVec 6)
  /-- MTS (R292) -/
  | mts (u : Bundle) (b : Bool) (sel ra : BitVec 6)
  /-- MFP (R292) -/
  | mfp (u : Bundle) (b : Bool) (rd : BitVec 6)
  /-- MTP (R292) -/
  | mtp (u : Bundle) (b : Bool) (ra : BitVec 6)
  /-- ADDI (R292) -/
  | addi (u : Bundle) (b : Bool) (rd ra : BitVec 6) (imm : BitVec 11)
  /-- ANDI (R292) -/
  | andi (u : Bundle) (b : Bool) (rd ra : BitVec 6) (imm : BitVec 11)
  /-- ORI (R292) -/
  | ori (u : Bundle) (b : Bool) (rd ra : BitVec 6) (imm : BitVec 11)
  /-- XORI (R292) -/
  | xori (u : Bundle) (b : Bool) (rd ra : BitVec 6) (imm : BitVec 11)
  /-- SHLI (R292) -/
  | shli (u : Bundle) (b : Bool) (rd ra sh : BitVec 6)
  /-- SHRI (R292) -/
  | shri (u : Bundle) (b : Bool) (rd ra sh : BitVec 6)
  /-- SARI (R292) -/
  | sari (u : Bundle) (b : Bool) (rd ra sh : BitVec 6)
  /-- CMPI (R292) -/
  | cmpi (u : Bundle) (b : Bool) (cond pd : BitVec 3) (ra : BitVec 6) (imm : BitVec 11)
  /-- MOVI (R292) -/
  | movi (u : Bundle) (b : Bool) (rd : BitVec 6) (imm : BitVec 17)
  /-- MOVK (R292) -/
  | movk (u : Bundle) (b : Bool) (h : BitVec 2) (rd : BitVec 6) (imm : BitVec 16)
  /-- PCADD (R292) -/
  | pcadd (u : Bundle) (b : Bool) (rd : BitVec 6) (imm : BitVec 17)
  /-- BR (R292) -/
  | br (u : Bundle) (p : BitVec 3) (n : BitVec 1) (off : BitVec 19)
  /-- CALL (R292) -/
  | call (u : Bundle) (off : BitVec 19)
  /-- JR (R292) -/
  | jr (u : Bundle) (ra : BitVec 6)
  /-- JALR (R292) -/
  | jalr (u : Bundle) (ra : BitVec 6)
  /-- RET (R292) -/
  | ret (u : Bundle)
  /-- REP (R296) -/
  | rep (u : Bundle) (count : RepCount)
  /-- REPI (R299) -/
  | repi (u : Bundle) (count : RepCount) (upTo : Option Nat)
  /-- WFE (R303) -/
  | wfe (u : Bundle) (rd : BitVec 6)
  /-- WAITT (R303) -/
  | waitt (u : Bundle) (rd ra : BitVec 6)
  /-- WAIT_WAKE (R303) -/
  | waitWake (core : Fin 272)
  /-- SEV (R302) -/
  | sev (u : Bundle) (ra : BitVec 6)
  /-- TRAP (R306) -/
  | trap (u : Bundle) (code : BitVec 8)
  /-- ENDW (R314) -/
  | endw (u : Bundle)
  /-- FENCE (R291) -/
  | fence (u : Bundle) (fn : BitVec 5)
  /-- ERET (R308) -/
  | eret (u : Bundle) (upTo : Option Nat)
  /-- LDB (R292) -/
  | ldb (u : Bundle) (rd ra : BitVec 6) (imm : BitVec 11)
  /-- LDBS (R292) -/
  | ldbs (u : Bundle) (rd ra : BitVec 6) (imm : BitVec 11)
  /-- LDH (R292) -/
  | ldh (u : Bundle) (rd ra : BitVec 6) (imm : BitVec 11)
  /-- LDHS (R292) -/
  | ldhs (u : Bundle) (rd ra : BitVec 6) (imm : BitVec 11)
  /-- LDW (R292) -/
  | ldw (u : Bundle) (rd ra : BitVec 6) (imm : BitVec 11)
  /-- LDWS (R292) -/
  | ldws (u : Bundle) (rd ra : BitVec 6) (imm : BitVec 11)
  /-- LDD (R292) -/
  | ldd (u : Bundle) (rd ra : BitVec 6) (imm : BitVec 11)
  /-- STB (R292) -/
  | stb (u : Bundle) (rs ra : BitVec 6) (imm : BitVec 11)
  /-- STH (R292) -/
  | sth (u : Bundle) (rs ra : BitVec 6) (imm : BitVec 11)
  /-- STW (R292) -/
  | stw (u : Bundle) (rs ra : BitVec 6) (imm : BitVec 11)
  /-- STD (R292) -/
  | std (u : Bundle) (rs ra : BitVec 6) (imm : BitVec 11)
  /-- LDV (R292) -/
  | ldv (u : Bundle) (vd : BitVec 5) (ra : BitVec 6) (imm : BitVec 11)
  /-- STV (R292) -/
  | stv (u : Bundle) (vs : BitVec 5) (ra : BitVec 6) (imm : BitVec 11)
  /-- LDDX (R292) -/
  | lddx (u : Bundle) (rd ra rb : BitVec 6)
  /-- AMOADD (R293) -/
  | amoadd (u : Bundle) (rd ra rb : BitVec 6)
  /-- AMOSWP (R293) -/
  | amoswp (u : Bundle) (rd ra rb : BitVec 6)
  /-- CAS (R293) -/
  | cas (u : Bundle) (rd ra rb : BitVec 6)
  /-- XFER (R294) -/
  | xfer (u : Bundle) (rl ra rb : BitVec 6) (k : BitVec 3)
  /-- XFER_DONE (R294) -/
  | xferDone (core : Fin 272) (index : Fin 8) (fault : Bool)
  /-- IN (R290) -/
  | inp (u : Bundle) (rd ra : BitVec 6) (imm : BitVec 11)
  /-- OUT (R290) -/
  | outp (u : Bundle) (rs ra : BitVec 6) (imm : BitVec 11)
  /-- LDC (R305) -/
  | ldc (u : Bundle) (rd ra : BitVec 6) (imm : BitVec 11)
  /-- STC (R305) -/
  | stc (u : Bundle) (rs ra : BitVec 6) (imm : BitVec 11)
  /-- VADD (R292) -/
  | vadd (u : Bundle) (vd va vb : BitVec 5) (ew : BitVec 2)
  /-- VSUB (R292) -/
  | vsub (u : Bundle) (vd va vb : BitVec 5) (ew : BitVec 2)
  /-- VADDSU (R292) -/
  | vaddsu (u : Bundle) (vd va vb : BitVec 5) (ew : BitVec 2)
  /-- VSUBSU (R292) -/
  | vsubsu (u : Bundle) (vd va vb : BitVec 5) (ew : BitVec 2)
  /-- VMUL (R292) -/
  | vmul (u : Bundle) (vd va vb : BitVec 5) (ew : BitVec 2)
  /-- VMINU (R292) -/
  | vminu (u : Bundle) (vd va vb : BitVec 5) (ew : BitVec 2)
  /-- VMAXU (R292) -/
  | vmaxu (u : Bundle) (vd va vb : BitVec 5) (ew : BitVec 2)
  /-- VMIN (R292) -/
  | vmin (u : Bundle) (vd va vb : BitVec 5) (ew : BitVec 2)
  /-- VMAX (R292) -/
  | vmax (u : Bundle) (vd va vb : BitVec 5) (ew : BitVec 2)
  /-- VABSDU (R292) -/
  | vabsdu (u : Bundle) (vd va vb : BitVec 5) (ew : BitVec 2)
  /-- VAND (R292) -/
  | vand (u : Bundle) (vd va vb : BitVec 5)
  /-- VOR (R292) -/
  | vor (u : Bundle) (vd va vb : BitVec 5)
  /-- VXOR (R292) -/
  | vxor (u : Bundle) (vd va vb : BitVec 5)
  /-- VSHLI (R292) -/
  | vshli (u : Bundle) (vd va : BitVec 5) (ew : BitVec 2) (imm : BitVec 6)
  /-- VSHRI (R292) -/
  | vshri (u : Bundle) (vd va : BitVec 5) (ew : BitVec 2) (imm : BitVec 6)
  /-- VSARI (R292) -/
  | vsari (u : Bundle) (vd va : BitVec 5) (ew : BitVec 2) (imm : BitVec 6)
  /-- VCMPEQ (R292) -/
  | vcmpeq (u : Bundle) (vd va vb : BitVec 5) (ew : BitVec 2)
  /-- VCMPGTU (R292) -/
  | vcmpgtu (u : Bundle) (vd va vb : BitVec 5) (ew : BitVec 2)
  /-- VCMPGT (R292) -/
  | vcmpgt (u : Bundle) (vd va vb : BitVec 5) (ew : BitVec 2)
  /-- VSEL (R292) -/
  | vsel (u : Bundle) (vd va vb vm : BitVec 5)
  /-- VBCST (R292) -/
  | vbcst (u : Bundle) (v : BitVec 5) (g : BitVec 6) (ew : BitVec 2)
  /-- VGET (R292) -/
  | vget (u : Bundle) (g : BitVec 6) (v : BitVec 5) (ew : BitVec 2) (idx : BitVec 5)
  /-- VRSUM (R292) -/
  | vrsum (u : Bundle) (g : BitVec 6) (v : BitVec 5) (ew : BitVec 2)
  /-- VUNP (R295) -/
  | vunp (u : Bundle) (vd va : BitVec 5) (msb : BitVec 1) (depth : BitVec 2)
  /-- BUDGET_EXPIRY (R306) -/
  | budgetExpiry (core : Fin 272)
  /-- HALT (R307) -/
  | halt (core : Fin 272) (why : HaltReason)
  /-- SET (R318) -/
  | set (ag : Agent) (task : Fin 65536) (flag : Fin 32)
  /-- CLEAR (R320) -/
  | clear (ag : Agent) (task : Fin 65536) (flag : Fin 32) (withSet : Bool)
  /-- CANCEL (R321) -/
  | cancel (ag : Agent) (task : Fin 65536) (race : Bool)
  /-- DELAY_START (R322) -/
  | delayStart (ag : Agent) (task : Fin 65536)
  /-- DELAY_STOP (R320) -/
  | delayStop (ag : Agent) (task : Fin 65536)
  /-- ENABLE (R321) -/
  | enable (ag : Agent) (task : Fin 65536)
  /-- DISABLE (R321) -/
  | disable (ag : Agent) (task : Fin 65536)
  /-- POST (R326) -/
  | post (ag : Agent) (addr64 : W32)
  /-- TASK_PRIORITY_WRITE (R317) -/
  | taskPriorityWrite (ag : Agent) (task : Fin 65536) (value : W32)
  /-- DISPATCH (R327) -/
  | dispatch
  /-- DELAY_EXPIRY (R323) -/
  | delayExpiry
  /-- PROGRAM_UNLOAD_DONE (R337) -/
  | programUnloadDone (inst : Fin 256) (program : W64)
  /-- MEM_REQUEST (R340) -/
  | memRequest (levels : List (Nat × Nat)) (requests : List MemReq) (readable : Bool)
  /-- REFRESH_DUE (R347) -/
  | refreshDue (pc : Fin 256) (bank : Fin 64) (kept : Bool) (issued : Nat)
  /-- ACT_TABLE_CLEAR (R348) -/
  | actTableClear (stack : Fin 4)
  /-- STACK_TEMP_READ (R346) -/
  | stackTempRead (stack : Fin 4) (temp : Nat)
  /-- MEM_PATROL_SCRUB (R354) -/
  | memPatrolScrub (line : Nat) (found : ScrubRead) (written readable : Bool)
  /-- TRACKING_STEP (R357) -/
  | trackingStep (chan : Fin 128) (margin : Nat)
  /-- RETRAIN_STEP (R357) -/
  | retrainStep (chan : Fin 128)
  /-- RETRAIN_END (R358) -/
  | retrainEnd (chan : Fin 128) (margin : Option Nat) (readable : Bool)
  /-- MIGRATION_STEP (R360) -/
  | migrationStep (chan : Fin 128) (failed : List Nat)
  /-- CTX_INIT (R380) -/
  | ctxInit (ag : Agent) (ctx : Fin 1024) (notify : Bool) (flag : Fin 32) (task : Fin 65536)
  /-- CTX_FEED (R380) -/
  | ctxFeed (ag : Agent) (ctx : Fin 1024) (notify : Bool) (flag : Fin 32) (task : Fin 65536)
  /-- CTX_SET (R380) -/
  | ctxSet (ag : Agent) (ctx : Fin 1024) (notify : Bool) (flag : Fin 32) (task : Fin 65536)
  /-- FEED_DONE (R381) -/
  | feedDone (ctx : Fin 1024) (fault : FaultClass)
  /-- INSTANCE_RESET (R402) -/
  | instanceReset (inst : Fin 256)
  /-- SHARE_WRITE (R391) -/
  | shareWrite (inst : Fin 256) (off : BitVec 12) (value : W32)
  /-- EPOCH_BOUNDARY (R387) -/
  | epochBoundary
  /-- MBX_POP (R399) -/
  | mbxPop (inst : Fin 256)
  /-- MBX_PUSH (R399) -/
  | mbxPush (inst : Fin 256) (len : Nat) (type : BitVec 16)
  /-- EVENT_SECOND_END (R487) -/
  | eventSecondEnd
  /-- MGT_HELLO (R409) -/
  | mgtHello (via : Via) (msg : List Byte)
  /-- OP_STATUS (R410) -/
  | opStatus (via : Via) (msg : List Byte)
  /-- REG_READ (R413) -/
  | regRead (via : Via) (msg : List Byte)
  /-- REG_WRITE (R413) -/
  | regWrite (via : Via) (msg : List Byte)
  /-- EVENT_READ (R416) -/
  | eventRead (via : Via) (msg : List Byte)
  /-- EVENT_SUBSCRIBE (R417) -/
  | eventSubscribe (via : Via) (msg : List Byte)
  /-- LOG_READ (R417) -/
  | logRead (via : Via) (msg : List Byte)
  /-- TELEMETRY (R418) -/
  | telemetry (via : Via) (msg : List Byte)
  /-- MODE_SERVICE (R434) -/
  | modeService (via : Via) (msg : List Byte)
  /-- MODE_ENTER_MAINTENANCE (R436) -/
  | modeEnterMaintenance (via : Via) (msg : List Byte)
  /-- MODE_LEAVE_MAINTENANCE (R436) -/
  | modeLeaveMaintenance (via : Via) (msg : List Byte)
  /-- MODE_ENTER_STANDBY (R443) -/
  | modeEnterStandby (via : Via) (msg : List Byte)
  /-- MODE_LEAVE_STANDBY (R444) -/
  | modeLeaveStandby (via : Via) (msg : List Byte) (found : Found)
  /-- RESET_WARM (R440) -/
  | resetWarm (via : Via) (msg : List Byte) (found : Found)
  /-- RESET_COLD (R438) -/
  | resetCold (via : Via) (msg : List Byte) (found : Found) (flush : Flush)
  /-- IMAGE_STAGE (R420) -/
  | imageStage (via : Via) (msg : List Byte)
  /-- ACTIVATE_FIRMWARE (R422) -/
  | activateFirmware (via : Via) (msg : List Byte) (switch : Switch)
  /-- ACTIVATE_STRUCTURE (R62) -/
  | activateStructure (via : Via) (msg : List Byte) (badLanes : List Nat) (mid : Option (Nat × Resource))
  /-- ACTIVATE_BOTH (R424) -/
  | activateBoth (via : Via) (msg : List Byte) (switch : Switch) (badLanes : List Nat) (mid : Option (Nat × Resource))
  /-- BOOT_SELECT (R425) -/
  | bootSelect (via : Via) (msg : List Byte)
  /-- NS_CREATE (R419) -/
  | nsCreate (via : Via) (msg : List Byte)
  /-- NS_DELETE (R419) -/
  | nsDelete (via : Via) (msg : List Byte)
  /-- NS_FORMAT (R419) -/
  | nsFormat (via : Via) (msg : List Byte)
  /-- NQN_SET (R419) -/
  | nqnSet (via : Via) (msg : List Byte)
  /-- PROGRAM_LOAD (R336) -/
  | programLoad (via : Via) (msg : List Byte)
  /-- PROGRAM_UNLOAD (R337) -/
  | programUnload (via : Via) (msg : List Byte)
  /-- LOCK (R415) -/
  | lock (via : Via) (msg : List Byte)
  /-- UNLOCK (R415) -/
  | unlock (via : Via) (msg : List Byte)
  /-- LOCK_EXPIRY (R415) -/
  | lockExpiry
  /-- KEY_MGR_SET (R429) -/
  | keyMgrSet (via : Via) (msg : List Byte)
  /-- KEY_UNLOCK (R429) -/
  | keyUnlock (via : Via) (msg : List Byte)
  /-- KEY_LOAD (R430) -/
  | keyLoad (via : Via) (msg : List Byte)
  /-- KEY_GENERATE (R430) -/
  | keyGenerate (via : Via) (msg : List Byte)
  /-- SANITIZE_INSTANCE (R432) -/
  | sanitizeInstance (via : Via) (msg : List Byte) (steps : Nat)
  /-- SANITIZE_DEVICE (R432) -/
  | sanitizeDevice (via : Via) (msg : List Byte) (steps : Nat)
  /-- SVN_COMMIT (R427) -/
  | svnCommit (via : Via) (msg : List Byte)
  /-- LOG_COPY (R417) -/
  | logCopy
  /-- STEWARD_MISMATCH (R448) -/
  | stewardMismatch (pair : Fin 2) (passes : Bool) (found : Found)
  /-- STOP_DETECT (R452) -/
  | stopDetect (port : Fin 128) (start ms : Nat)
  /-- LIFE_TICK (R455) -/
  | lifeTick
  /-- LIFE_SAVE (R455) -/
  | lifeSave
  /-- REFCLK_LOSS (R466) -/
  | refclkLoss (ref : Fin 2)
  /-- REFCLK_VALID (R466) -/
  | refclkValid (ref : Fin 2)
  /-- REFCLK_REVERT (R466) -/
  | refclkRevert
  /-- SENSOR_READ (R477) -/
  | sensorRead (temps : List Nat) (found : Found) (flush : Flush)
  /-- POWER_CAP_CHECK (R458) -/
  | powerCapCheck (deciwatts : Nat)
  /-- PTP_LOCK_LOSS (R445) -/
  | ptpLockLoss
  /-- PTP_RELOCK (R445) -/
  | ptpRelock (port : Fin 128) (inc : Nat)
  /-- FLASH_TEMPERATURE_DRIFT (R177) -/
  | flashTemperatureDrift (chan : Fin 32) (temp : Nat)
  /-- PROGRAM_TIME_WINDOW_EXPIRY (R197) -/
  | programTimeWindowExpiry
  /-- MEM_CONTROLLER_ENGINE_RESET (R441) -/
  | memControllerEngineReset (chan : Fin 128)
  /-- CHECK_ENGINE_RESET (R384) -/
  | checkEngineReset (engine : Fin 16)
  /-- UNDEFINED_OPCODE (R283) -/
  | undefinedOpcode (u : Bundle) (word : W32)
  /-- UNSUPPORTED_MGMT_TYPE (R409) -/
  | unsupportedMgmtType (via : Via) (msg : List Byte)
  /-- PCIE_DATA_FETCH_DONE (R246) -/
  | pcieDataFetchDone (cmd : Nat) (bytes : Option (List Byte))
  /-- CONTROLLER_ENABLE (R231) -/
  | controllerEnable (pf : Fin 64) (cc : BitVec 32)
  /-- TAP_INSTRUCTION (R475) -/
  | tapInstruction (code : Nat)
deriving DecidableEq, Repr

end Sys2Proof
end

