-- ==== Sys2Proof/Decode.lean ====
section
/-! DEFINITION. The command that a word of the opcode table spells. The table gives no row a word: commands come from
outside as commands, not as bits. The encoding that the spec does give, that of Pypoiz syllables (R281, R292), is in
Machine/Syl.lean. -/
namespace Sys2Proof

/-- No row of the opcode table gives bits, so no word spells a command. -/
def decodeTableWord (_nbits _w : Nat) : Option Instr := none

end Sys2Proof
end

