-- ==== Sys2Proof/Machine/Flags.lean ====
section
/-! DEFINITION. Saturation and comparison: the computations behind every saturating counter (the register maps'
"saturating"), the compare conditions of R281 and the circular comparisons of sequence numbers. -/
namespace Sys2Proof.Machine

/-- Saturating sum at `top`. -/
def satAdd (top a n : Nat) : Nat := if a + n ≤ top then a + n else top

/-- Distance from `b` to `a` modulo 2^w, `a − b`. -/
def modDiff (w a b : Nat) : Nat := (a % 2 ^ w + 2 ^ w - b % 2 ^ w) % 2 ^ w

/-- COND of R281: 0 EQ, 1 NE, 2 LT, 3 GE, 4 LTU, 5 GEU; none for the reserved values 6 and 7. -/
def condHolds (c : BitVec 3) (a b : W64) : Option Bool :=
  match c.toNat with
  | 0 => some (a == b)
  | 1 => some (a != b)
  | 2 => some (a.slt b)
  | 3 => some (!a.slt b)
  | 4 => some (a.ult b)
  | 5 => some (!a.ult b)
  | _ => none

/-- Ceiling of a quotient. -/
def ceilDiv (a b : Nat) : Nat := (a + b - 1) / b

end Sys2Proof.Machine
end

