-- ==== Sys2Proof/Machine/Operands.lean ====
section
/-! DEFINITION. Bit fields and byte orders: every value that the spec lays out in words or bytes is taken apart and put
together here. Data are little-endian (R280, R416) unless a format says big-endian (R365). -/
namespace Sys2Proof.Machine

/-- Bits [hi:lo] of a number. -/
def bitsOf (hi lo v : Nat) : Nat := (v / 2 ^ lo) % 2 ^ (hi + 1 - lo)

/-- One bit of a number. -/
def bitOf (i v : Nat) : Bool := (v / 2 ^ i) % 2 == 1

/-- A Boolean as a register bit. -/
def b2n (b : Bool) : Nat := if b then 1 else 0

/-- The `n` low bytes, least significant first. -/
def leBytes : Nat → Nat → List Byte
  | 0, _ => []
  | n + 1, v => BitVec.ofNat 8 v :: leBytes n (v / 256)

/-- The `n` low bytes, most significant first. -/
def beBytes (n v : Nat) : List Byte := (leBytes n v).reverse

/-- The number that bytes spell, least significant first. -/
def ofLe : List Byte → Nat
  | [] => 0
  | b :: bs => b.toNat + 256 * ofLe bs

/-- The number that bytes spell, most significant first. -/
def ofBe (bs : List Byte) : Nat := ofLe bs.reverse

/-- `n` zero bytes. -/
def zeros (n : Nat) : List Byte := List.replicate n 0

/-- `n` bytes from offset `o`, zeros past the end. -/
def sliceB (o n : Nat) (bs : List Byte) : List Byte :=
  let t := (bs.drop o).take n
  t ++ zeros (n - t.length)

/-- The little-endian number of `n` bytes at offset `o`. -/
def leAt (o n : Nat) (bs : List Byte) : Nat := ofLe (sliceB o n bs)

/-- The big-endian number of `n` bytes at offset `o`. -/
def beAt (o n : Nat) (bs : List Byte) : Nat := ofBe (sliceB o n bs)

/-- The list with `new` in place of its bytes from offset `o`. -/
def putAt (o : Nat) (new bs : List Byte) : List Byte :=
  let b := bs ++ zeros (o - bs.length)
  b.take o ++ new ++ b.drop (o + new.length)

/-- All bytes zero. -/
def allZero (bs : List Byte) : Bool := bs.all (· == 0)

end Sys2Proof.Machine
end

