-- ==== Sys2Proof/Config.lean ====
section
/-! DEFINITION. What the spec leaves open or names without giving its algorithm, as constants without a body: nothing
in Lean can evaluate them or prove a value of them, so a claim that mentions one holds for every value. -/
namespace Sys2Proof

/-- A value the spec does not give, drawn anew each time: applied to the counter that State holds. -/
opaque Config.freeNat : Nat → Nat
/-- A byte the spec declares undefined (R294 destinations, lost contents), drawn by counter. -/
opaque Config.freeByte : Nat → Byte
/-- The cause code that event 0x9011 carries for a broken rule of the loader image (R335 names no codes). -/
opaque Config.loadCause : Nat → Nat
/-- Codes of causes that an event carries and the spec names in words only; the argument is the model's own number for
the words. -/
opaque Config.causeCode : Nat → Nat
/-- Address of the core runtime's bundle that executes ENDW (R313 names none). -/
opaque Config.runtimeEndw : W32
/-- The matches an encoder of GEN mode chooses (R128: a KD-512 always chooses alike, the format does not say how): for
the bytes of a block, the literal-run length and then the match (length, offset) of each round. A choice that does not
reproduce the bytes is not used. -/
opaque Config.genParse : List Byte → List (Nat × Option (Nat × Nat))

/-- AES-256-XTS of IEEE 1619 (R158): key, data-unit number, payload. The spec names the algorithm and gives none of it. -/
opaque Config.xts : List Byte → Nat → List Byte → List Byte

/-- Spare blocks of a die, by channel × 32 + die (R153, R176 name them and give no number). -/
opaque Config.spareBlocks : Nat → Nat

/-- Spare rows of a bank of stacked memory, by pseudo-channel × 64 + bank (R355 names them and gives no number). -/
opaque Config.spareRows : Nat → Nat

/-- The steward's threshold for lasting faults of a fabric link (R25 names it and gives no number). -/
opaque Config.linkThreshold : Nat

/-- SHA-384 (R43, R44, R426), of FIPS 180-4. The spec names the algorithm and gives none of it. -/
opaque Config.sha384 : List Byte → List Byte
/-- Does a signature verify (R46)? ALG (1 ECDSA P-384, 2 ML-DSA-87), public key, message, signature. -/
opaque Config.sigOk : Nat → List Byte → List Byte → List Byte → Bool
/-- Do the boot loader's signatures verify (R428)? The boot loader and the key-set hashes that the fuses authorise for boot
loader and firmware. The spec gives no layout of the boot loader's signatures. -/
opaque Config.loaderOk : List Byte → List (List Byte) → Bool
/-- AES key wrap of SP 800-38F (R429, R430): key, data. -/
opaque Config.kw : List Byte → List Byte → List Byte
/-- Its unwrap; none where the check fails. -/
opaque Config.kwOpen : List Byte → List Byte → Option (List Byte)
/-- AES-256 of one block (R430's KCV): key, block. -/
opaque Config.aes : List Byte → List Byte → List Byte
/-- HKDF-SHA-384 of the device unique key (R429): the key-encryption key. -/
opaque Config.hkdf : List Byte → List Byte

end Sys2Proof
end

