-- ==== Sys2Proof/Machine/AMap.lean ====
section
/-! DEFINITION. Sparse tables: a list of (key, value) pairs with keys rising and no entry equal to the value that an
unlisted key reads as, so that equal tables are equal lists. Memory, the register file and every per-item table of the
machine are such lists. -/
namespace Sys2Proof.Machine

/-- A sparse table from natural numbers. -/
abbrev AMap (α : Type) := List (Nat × α)

/-- What the table holds at `k`; `d` where nothing is listed. -/
def amGet {α : Type} (d : α) (k : Nat) : AMap α → α
  | [] => d
  | (j, v) :: m => if j = k then v else amGet d k m

/-- Insert before the first larger key. -/
def amIns {α : Type} (k : Nat) (v : α) : AMap α → AMap α
  | [] => [(k, v)]
  | (j, w) :: m => if j < k then (j, w) :: amIns k v m else (k, v) :: (j, w) :: m

/-- The table without key `k`. -/
def amDel {α : Type} (k : Nat) (m : AMap α) : AMap α := m.filter (fun p => p.1 != k)

/-- The table with `v` at `k`; writing the default `d` removes the entry. -/
def amSet {α : Type} [DecidableEq α] (d : α) (k : Nat) (v : α) (m : AMap α) : AMap α :=
  if v = d then amDel k m else amIns k v (amDel k m)

/-- Read, change, write back. -/
def amMod {α : Type} [DecidableEq α] (d : α) (k : Nat) (f : α → α) (m : AMap α) : AMap α :=
  amSet d k (f (amGet d k m)) m

/-- Keys strictly rising. -/
def amSorted {α : Type} : AMap α → Bool
  | [] => true
  | [_] => true
  | p :: q :: m => decide (p.1 < q.1) && amSorted (q :: m)

/-- The canonical form: keys strictly rising, no entry equal to the default. -/
def amWf {α : Type} [DecidableEq α] (d : α) (m : AMap α) : Bool :=
  amSorted m && m.all (fun p => p.2 ≠ d)

/-- Optional entry: a table of things that may be absent has no default to hide. -/
def amFind {α : Type} (k : Nat) : AMap α → Option α
  | [] => none
  | (j, v) :: m => if j = k then some v else amFind k m

/-- Insert or replace an entry. -/
def amPut {α : Type} (k : Nat) (v : α) (m : AMap α) : AMap α := amIns k v (amDel k m)

/-- Change an entry that exists. -/
def amAdj {α : Type} (k : Nat) (f : α → α) (m : AMap α) : AMap α :=
  m.map (fun p => if p.1 = k then (p.1, f p.2) else p)

/-- The values at `n` keys from `a` on. -/
def amGetRange {α : Type} (d : α) (a n : Nat) (m : AMap α) : List α :=
  let seg := m.filter (fun p => decide (a ≤ p.1 ∧ p.1 < a + n))
  (List.range n).map (fun k => amGet d (a + k) seg)

/-- The table with the values `vs` at the keys from `a` on. -/
def amSetRange {α : Type} [DecidableEq α] (d : α) (a : Nat) (vs : List α) (m : AMap α) : AMap α :=
  m.filter (fun p => decide (p.1 < a)) ++ ((vs.zipIdx a).filter (fun p => p.1 ≠ d)).map (fun p => (p.2, p.1)) ++
    m.filter (fun p => decide (a + vs.length ≤ p.1))

end Sys2Proof.Machine
end

