-- ==== Sys2Proof/Machine/Regs.lean ====
section
/-! DEFINITION. The register map of the KD-512: every register of the chapters' register maps (spec/01 to
spec/16), with its block, offset, copies, fields, access codes, Reset values and Survives letters, as the maps give them.
The rules that read and write these registers (R8 to R14) are in Machine/Ops.lean. -/
namespace Sys2Proof.Machine

/-- The register blocks of the I/O space map (R8). -/
inductive Block
  | sys | sti | net | cap | cdc | fls | dur | hq | gko | eft | mem | chk | ins | mgt | avl | core
deriving DecidableEq, Repr

/-- Block base (R8). -/
def Block.base : Block → Nat
  | .sys => 0x00000000
  | .sti => 0x00100000
  | .net => 0x01000000
  | .cap => 0x02000000
  | .cdc => 0x03000000
  | .fls => 0x04000000
  | .dur => 0x05000000
  | .hq => 0x06000000
  | .gko => 0x07000000
  | .eft => 0x08000000
  | .mem => 0x09000000
  | .chk => 0x0a000000
  | .ins => 0x0b000000
  | .mgt => 0x0c000000
  | .avl => 0x0d000000
  | .core => 0x0e000000

/-- First address past the block's range: the base of the next block of the map; the last block's window is 16 MiB
like its neighbours (notes/assumptions/2). -/
def Block.limit : Block → Nat
  | .sys => 0x00100000
  | .sti => 0x01000000
  | .net => 0x02000000
  | .cap => 0x03000000
  | .cdc => 0x04000000
  | .fls => 0x05000000
  | .dur => 0x06000000
  | .hq => 0x07000000
  | .gko => 0x08000000
  | .eft => 0x09000000
  | .mem => 0x0a000000
  | .chk => 0x0b000000
  | .ins => 0x0c000000
  | .mgt => 0x0d000000
  | .avl => 0x0e000000
  | .core => 0x0f000000

/-- The blocks in address order (R8). -/
def Block.all : List Block :=
  [.sys, .sti, .net, .cap, .cdc, .fls, .dur, .hq, .gko, .eft, .mem, .chk, .ins, .mgt, .avl, .core]

/-- Copies of the block and their stride (R8); 1 copy where the map gives none. -/
def Block.copies : Block → Nat × Nat
  | .net => (128, 0x10000)
  | .cdc => (32, 0x10000)
  | .fls => (32, 0x40000)
  | .ins => (256, 0x1000)
  | b => (1, b.limit - b.base)

/-- Access codes (R11). -/
inductive Acc
  | ro | rw | rw1c | wo | rwl | rwa
deriving DecidableEq, Repr

/-- The resets and states of a Survives column (R14), in its order. -/
inductive Rst
  | p | c | w | i | e | a | s
deriving DecidableEq, Repr

/-- One constructor per register field of the register maps; registers that form an array share one constructor per
field and differ by their index. -/
inductive Fld
  | SYS_DEV_ID | SYS_FABRIC_STATUS_RSVD_WRITE | SYS_FABRIC_STATUS_LINKS_UP | SYS_FABRIC_STATUS_POISON_SEEN
  | SYS_FABRIC_POISON_CNT | SYS_FLUME_LOSS_LOST | SYS_FLUME_LOSS_REFUSED | SYS_TIME_STATUS_STEPPED
  | SYS_TIME_STATUS_LOCKED | NET_PORT_STATUS_RSVD_WRITE | NET_PORT_STATUS_UP | NET_PORT_STATUS_CFG_WIDTH
  | NET_PORT_STATUS_RUN_WIDTH | NET_PORT_STATUS_RUN_OFFSET | NET_PORT_STATUS_KIND | NET_PORT_STATUS_LANES_OK
  | NET_PORT_STATUS_LANES_CFG | NET_PORT_CTRL_RETRAIN | NET_PORT_CTRL_WIDEN | NET_PORT_CTRL_AUTO_WIDEN
  | NET_LANE_STATUS_ADAPTED | NET_LANE_STATUS_RX_SWAPPED | NET_LANE_STATUS_FAILS | NET_CNT_RX_FRAMES_LO
  | NET_CNT_RX_FRAMES_HI | NET_CNT_TX_FRAMES_LO | NET_CNT_TX_FRAMES_HI | NET_CNT_RX_BYTES_LO
  | NET_CNT_RX_BYTES_HI | NET_CNT_TX_BYTES_LO | NET_CNT_TX_BYTES_HI | NET_CNT_FEC_CORRECTED
  | NET_CNT_FEC_UNCORRECTED | NET_CNT_RX_BAD | NET_CNT_PAUSE_RX | STI_STATUS_RSVD_WRITE
  | STI_STATUS_PENDING_RESET | STI_STATUS_FALLBACK | STI_STATUS_ACTIVE_SLOT | STI_STATUS_STATE
  | STI_ACTIVE_SERIAL_LO | STI_ACTIVE_SERIAL_HI | STI_ACTIVE_FORMAT_MAJOR | STI_ACTIVE_FORMAT_MINOR
  | STI_REJECT_STAGE | STI_REJECT_CAUSE | STI_REJECT_OFFSET | STI_CTRL
  | STI_SECTION_STATE_PRESENT | STI_SECTION_STATE_DEFAULTED | STI_SECTION_STATE_CHANGES | CAP_STATUS_RSVD_WRITE
  | CAP_STATUS_RING_FULL_ANY | CAP_STATUS_STREAMS_BOUND | CAP_KFSP_PORTS_CTRL_PORT | CAP_KFSP_PORTS_DATA_PORT
  | CAP_REPAIR_REPAIR_US | CAP_REPAIR_NAK_TIMEOUT_US | CAP_TIMING_CLOSE_GUARD_MS | CAP_TIMING_IDLE_MS
  | CAP_DRAIN_DEPTH | CAP_WINDOW_NEXT | CAP_CTRL_DROP | CAP_SW_TRIG_TIME_LO
  | CAP_SW_TRIG_TIME_HI | CAP_SW_TRIG_GO | CAP_SW_TRIG_GROUP | CAP_TG_CFG_INSTANCE
  | CAP_TG_CFG_ENABLE | CAP_TG_CFG_MERGE | CAP_TG_CFG_HOLDOFF_US | CAP_TG_PRE
  | CAP_TG_POST | CAP_TG_STATUS_OPEN | CAP_TG_STATUS_IGNORED | CAP_TG_STATUS_WINDOWS
  | CAP_PORT_DROP_RXBUF | CAP_PORT_DROP_UNBOUND | CAP_STREAM_CFG_STATE | CAP_STREAM_CFG_GROUP
  | CAP_STREAM_CFG_INSTANCE | CAP_STREAM_CFG_VERSION | CAP_STREAM_CFG_TIME_SOURCE | CAP_STREAM_CFG_THUMB
  | CAP_STREAM_CFG_FILTER_EN | CAP_STREAM_CFG_DEFAULT_VERDICT | CAP_STREAM_SLOTS | CAP_STREAM_FILTER_BUDGET_US
  | CAP_STREAM_FILTER_TASK | CAP_STREAM_CNT_PKT_RX | CAP_STREAM_CNT_PKT_FORMAT | CAP_STREAM_CNT_PKT_DUP
  | CAP_STREAM_CNT_PKT_LATE | CAP_STREAM_CNT_PKT_STALE | CAP_STREAM_CNT_SLUICE_DROP | CAP_STREAM_CNT_FRAMES_COMMITTED
  | CAP_STREAM_CNT_FRAMES_INCOMPLETE | CAP_STREAM_CNT_FRAMES_LOST | CAP_STREAM_CNT_FRAMES_REFUSED | CAP_STREAM_CNT_NAK_SENT
  | CAP_STREAM_CNT_PKT_REPAIRED | CAP_STREAM_CNT_VERDICT_LATE | CAP_STREAM_CNT_VERDICT_INVALID | CAP_STREAM_CNT_WINDOW_SHORT
  | CDC_ENG_STATUS_RSVD_WRITE | CDC_ENG_STATUS_RETIRED | CDC_ENG_STATUS_SUSPECT | CDC_ENG_STATUS_QUEUE
  | CDC_ENG_STATUS_INSTANCE | CDC_ENG_STATUS_OP | CDC_ENG_STATUS_MODE | CDC_ENG_STATUS_BUSY
  | CDC_ENG_CTRL | CDC_ENG_IN_LO | CDC_ENG_IN_HI | CDC_ENG_OUT_LO
  | CDC_ENG_OUT_HI | CDC_ENG_JOBS | CDC_ENG_FAULTS_TRANSIENT | CDC_ENG_FAULTS_LASTING
  | CDC_ENG_SELFCHK | CDC_ENG_FALLBACK_TO_GEN | CDC_ENG_FALLBACK_TO_STORE | CDC_POOL_STATUS_CTX_FREE
  | CDC_POOL_STATUS_ENGINES | CDC_POOL_CFG_FAULT_WINDOW_H | CDC_POOL_CFG_RETIRE_THRESHOLD | CDC_CTX_FREE_GO
  | CDC_CTX_FREE_SLOT | CDC_Q_CFG_ENABLE | CDC_Q_CFG_CLASS | CDC_Q_CFG_INSTANCE
  | CDC_Q_CFG_DEPTH | CDC_Q_SQ_TAIL | CDC_Q_SQ_HEAD_FULL_CNT | CDC_Q_SQ_HEAD_HEAD
  | CDC_Q_CQ_CQ_TAIL | CDC_Q_CQ_CQ_HEAD | FLS_CH_STATUS_RSVD_WRITE | FLS_CH_STATUS_RETIRED
  | FLS_CH_STATUS_SUSPECT | FLS_CH_STATUS_TRAINING | FLS_CH_STATUS_RATE_200 | FLS_CH_STATUS_DIES
  | FLS_CH_CTRL_RETRAIN | FLS_CH_CTRL_ENG_RESET | FLS_CH_COLMAP_MAP_FULL | FLS_CH_COLMAP_ENTRIES
  | FLS_CH_RL_SEL_DIE | FLS_CH_RL_SEL_GROUP | FLS_CH_RL_SEL_BOUNDARY | FLS_CH_RL_DATA_SPREAD
  | FLS_CH_RL_DATA_OFFSET | FLS_CH_CNT_HARD_OK | FLS_CH_CNT_SOFT2_OK | FLS_CH_CNT_SOFT3_OK
  | FLS_CH_CNT_RETRY_OK | FLS_CH_CNT_REBUILT | FLS_CH_CNT_UNRECOVERED | FLS_CH_CNT_MISDIRECT
  | FLS_CH_CNT_SUSPENDS | FLS_CH_CNT_SUSP_TIMEOUT | FLS_CH_CNT_PROG_FAIL | FLS_CH_CNT_ERASE_FAIL
  | FLS_SUSPEND_CFG_MAX_PROG_SUSPENDS | FLS_SUSPEND_CFG_MAX_ERASE_SUSPENDS | FLS_SUSPEND_CFG_MIN_RUN_US | FLS_RL_CFG_ENABLE
  | FLS_RL_CFG_SAMPLES | FLS_RETIRE_CFG_DIE_THRESHOLD | FLS_RETIRE_CFG_FAULT_WINDOW_H | FLS_TRAIN_CFG_PERIOD_S
  | FLS_TRAIN_CFG_DELTA_C | FLS_REBUILD_CFG_AUTO_FORMAT | FLS_REBUILD_CFG_RATE_PM | FLS_STATUS_WRITES_STOPPED
  | FLS_STATUS_CARRIERS_ONLINE | FLS_STATUS_CHANNELS | FLS_CARRIER_STATE | FLS_CARRIER_PRESENT
  | FLS_CARRIER_POWER_EN | FLS_CARRIER_PROGRESS_PM | FLS_CARRIER_CTRL_CMD | FLS_CARRIER_CTRL_CARRIER
  | DUR_STATUS_RSVD_WRITE | DUR_STATUS_HOLDUP_READY | DUR_STATUS_DIRTY_LIMITED | DUR_STATUS_CAP_SCALED
  | DUR_STATUS_LAST_RECOVERY | DUR_DIRTY_LO | DUR_DIRTY_HI | DUR_DIRTY_LIMIT_LO
  | DUR_DIRTY_LIMIT_HI | DUR_CSEQ_LO | DUR_CSEQ_HI | DUR_CKPT_CFG_INTERVAL_S
  | DUR_CKPT_CFG_JOURNAL_MIB | DUR_GC_CFG_MAX_PM | DUR_GC_CFG_HIGH_PM | DUR_GC_CFG_LOW_PM
  | DUR_WEAR_CFG_WL_DELTA | DUR_WEAR_CFG_SCRUB_PERIOD_H | DUR_FREE_SB | DUR_CNT_HOLDUPS
  | DUR_CNT_TORN_PAGES | DUR_CNT_ABORTS | DUR_CNT_GC_MIB | DUR_CNT_WL_MOVES
  | DUR_CNT_SCRUB_REFRESH | DUR_CNT_TRANSIENT | DUR_CNT_LASTING | DUR_INS_STORED
  | HQ_STATUS_RSVD_WRITE | HQ_STATUS_ADMIT_HELD | HQ_STATUS_INFLIGHT | HQ_TCP_PORTS_IO_PORT
  | HQ_TCP_PORTS_DISC_PORT | HQ_TCP_CFG_HDGST_EN | HQ_TCP_CFG_DDGST_EN | HQ_TCP_CFG_ICD_KIB
  | HQ_TCP_CFG_MAXH2C_KIB | HQ_CONN | HQ_TCP_REFUSED | HQ_ACT_LAST_ABANDONED
  | HQ_ACT_LAST_HOLD_US | HQ_INS_CFG_TCP_QPRIO | HQ_INS_CFG_CMD_QUOTA | HQ_INS_CNT_COMMANDS
  | HQ_INS_CNT_BUFFER_READS | HQ_INS_CNT_SHARE_REFUSED | HQ_INS_CNT_ABORTED_RESET | HQ_INS_CNT_GUARD_ERRORS
  | HQ_INS_CNT_READ_ERRORS | HQ_INS_CNT_TRANSPORT_ERRORS | HQ_INS_CNT_HELD | GKO_STATUS_RSVD_WRITE
  | GKO_STATUS_LEVEL | GKO_STATUS_MOVING | GKO_STATUS_VALID_ENTRIES | GKO_THROTTLE
  | GKO_CFG_STEP_TIMEOUT_US | GKO_CFG_HG_MAX_PM | GKO_SPARES_DISABLED | GKO_SPARES_FEWEST_SPARES
  | GKO_PART_BASE_PRESENT | GKO_PART_BASE_USER | GKO_PART_BASE_MOVING | GKO_PART_BASE_INSTANCE
  | GKO_PART_BASE_FIRST | GKO_PART_SIZE | GKO_PART_LOST | GKO_SEARCHES_LO
  | GKO_SEARCHES_HI | GKO_CNT_FWD_MISS | GKO_CNT_RESULT_BAD | GKO_CNT_CONTEXT_REFUSED
  | GKO_CNT_BUSY_CNT | GKO_CNT_TRANSIENT | GKO_CNT_ENTRIES_MOVED | CTX_KEY
  | CTX_SMASK | CTX_VAL | CTX_CARE | CTX_ERESULT
  | SRCH_CMD_GO | SRCH_CMD_OP | SRCH_CMD_PARTITION | SRCH_STATUS_DONE
  | SRCH_STATUS_HIT | SRCH_STATUS_MULTI | SRCH_STATUS_HANDLE | SRCH_STATUS_CODE
  | SRCH_STATUS_POS | SRCH_RESULT | UPD_CMD_GO | UPD_CMD_OP
  | UPD_CMD_PARTITION | UPD_CMD_POSITION | UPD_STATUS_DONE | UPD_STATUS_CODE
  | UPD_STATUS_DOWN | UPD_STATUS_VALID | UPD_STATUS_DISABLED | UPD_STATUS_POS
  | UPD_FREE | CORE_ID_INSTANCE | CORE_ID_CORE | CORE_STATUS_RSVD_WRITE
  | CORE_STATUS_SUSPECT | CORE_STATUS_LASTING | CORE_STATUS_TRANSIENT | CORE_STATUS_IN_WORK
  | CORE_EXC_EREP | CORE_EXC_EREPI | CORE_EXC_PSUP | CORE_EXC_PIE
  | CORE_EXC_ECAUSE | CORE_EPC | CORE_ERC | CORE_VBASE
  | CORE_EADDR_LO | CORE_EADDR_HI | CORE_BUDGET | CORE_XFER_ERR
  | CORE_EV_SET | CORE_WIN_BASE_LO | CORE_WIN_BASE_HI | CORE_WIN_LEN_W
  | CORE_WIN_LEN_R | CORE_WIN_LEN_LEN64 | EFT_STATUS_RSVD_WRITE | EFT_STATUS_READY
  | EFT_TICK | EFT_SIGNAL_OP | EFT_SIGNAL_FLAG | EFT_SIGNAL_TASK
  | EFT_POST | EFT_RESULT_VALID | EFT_RESULT_CODE | EFT_RESULT_TASK
  | EFT_CANCEL_RACE | EFT_CNT_DISPATCHED | EFT_CNT_POSTS | EFT_CNT_POST_REFUSED
  | EFT_CNT_SIGNAL_REFUSED | EFT_CNT_FAULT_COMPLETIONS | EFT_CNT_TICK_LATE | EFT_CNT_TIMER_OVERRUN
  | EFT_INS_CFG_MAX_PRIO | EFT_INS_CFG_WI_QUOTA | EFT_INS_USE | EFT_INS_WI
  | EFT_GROUP_CORES | EFT_GROUP_IDLE | EFT_TASK_CFG_STATE | EFT_TASK_CFG_PRIORITY
  | EFT_TASK_CFG_GROUP | EFT_TASK_CFG_MODE | EFT_TASK_CFG_PERIODIC | EFT_TASK_CFG_DELAY_ON
  | EFT_TASK_CFG_DFLAG | EFT_TASK_CFG_CONCURRENCY | EFT_TASK_ENTRY | EFT_TASK_MASK
  | EFT_TASK_FLAGS | EFT_TASK_DELAY | EFT_TASK_BUDGET | EFT_TASK_INFO_INSTANCE
  | EFT_TASK_INFO_RUNNING | EFT_TASK_QUEUED | MEM_STATUS_RSVD_WRITE | MEM_STATUS_CHANNELS
  | MEM_CFG_SCRUB_PERIOD_H | MEM_CFG_BK_MIN_PM | MEM_RD_CFG_NR_RADIUS | MEM_RD_CFG_NR_THRESHOLD
  | MEM_RETIRE_CFG_LASTING_THRESHOLD | MEM_RETIRE_CFG_ROW_CE_THRESHOLD | MEM_RETIRE_CFG_FAULT_WINDOW_H | MEM_TRAIN_CFG_TRACK_EN
  | MEM_TRAIN_CFG_MARGIN_MIN | MEM_TRAIN_CFG_DELTA_C | MEM_RELIEF_UNRELIEVED | MEM_RELIEF_RELIEF_USED
  | MEM_PROT_CNT_REFUSED | MEM_PROT_CNT_GEN_DROP | MEM_STACK_HOT | MEM_STACK_TEMP_C
  | MEM_STACK_SPARE_ROWS | MEM_PORT_CFG_PANIC_EN | MEM_PORT_CFG_PANIC_PM | MEM_PORT_CFG_CALM_PM
  | MEM_PORT_CFG_TARGET_US10 | MEM_PORT_STAT_PANIC | MEM_PORT_STAT_PANICS | MEM_PORT_STAT_LATE
  | MEM_CH_STATUS_RETIRED | MEM_CH_STATUS_SUSPECT | MEM_CH_STATUS_TRAINING | MEM_CH_STATUS_MIGRATING
  | MEM_CH_STATUS_CREDITS_MIN | MEM_CH_CNT_CORRECTED | MEM_CH_CNT_TRANSIENT | MEM_CH_CNT_LASTING
  | MEM_CH_CNT_FORCED_REF | MEM_CH_CNT_NEIGHBOUR_REF | MEM_CH_CNT_SCRUB_FIXED | MEM_CH_CNT_ROWS_REPAIRED
  | CHK_STATUS_RSVD_WRITE | CHK_STATUS_ENGINES | CHK_ALIVE_CFG_ALIVE_RESYNC | CHK_ALIVE_CFG_ALIVE_WINDOW
  | CHK_GUARD_CNT_GUARD_REGEN_DROPPED | CHK_GUARD_CNT_GUARD_REGEN | CHK_PORT_CNT_CRC_BAD | CHK_PORT_CNT_DIGEST_BAD
  | CHK_PORT_CNT_GUARD_BAD | CHK_ALIVE_CNT_GAP | CHK_ALIVE_CNT_REPEAT | CHK_ALIVE_CNT_OLD
  | CHK_ALIVE_CNT_RESYNCS | CHK_CTX_CFG_INSTANCE | CHK_CTX_CFG_ALG | CHK_CTX_CFG_MODE
  | CHK_CTX_CFG_STATE | CHK_CTX_CMD_GO | CHK_CTX_CMD_OP | CHK_CTX_CMD_NOTIFY
  | CHK_CTX_CMD_FLAG | CHK_CTX_CMD_TASK | CHK_CTX_SRC_LO | CHK_CTX_SRC_HI
  | CHK_CTX_LEN | CHK_CTX_VAL_LO | CHK_CTX_VAL_HI | CHK_CTX_RES_LO
  | CHK_CTX_RES_HI | CHK_CTX_BUSY_CNT | INS_STATUS_RSVD_WRITE | INS_STATUS_ENABLED
  | INS_STATUS_RESET_BUSY | INS_STATUS_GENERATION | INS_CTRL | INS_SHARE_CODEC_PM
  | INS_SHARE_MEMBW_PM | INS_SHARE_FLASHBW_PM | INS_CORES_CORES_NOW | INS_CORES_CORES_MIN
  | INS_SLUICE | INS_CAPACITY | INS_QUOTA_GECKO | INS_QUOTA_TASKS
  | INS_QUOTA_CONN | INS_QUOTA_STREAMS | INS_IOPERM | INS_YIELD_COUNT
  | INS_EPOCH_USE_CODEC_USE_PM | INS_EPOCH_USE_MEM_USE_PM | INS_EPOCH_USE_FLASH_USE_PM | INS_MBX_STATUS_OUT_COUNT
  | INS_MBX_STATUS_IN_COUNT | INS_MBX_CTRL_POP | INS_MBX_CTRL_PUSH | INS_MBX_CTRL_LEN
  | INS_MBX_CTRL_TYPE | INS_MBX_IN | INS_MBX_OUT | MGT_STATUS_RSVD_WRITE
  | MGT_STATUS_LOCK_HELD | MGT_STATUS_VERSION | MGT_CFG_UDP_EN | MGT_CFG_PF0_EN
  | MGT_CFG_UDP_PORT | MGT_NET_IPV4 | MGT_NET_PREFIX | MGT_ACT_STATE
  | MGT_ACT_STEP | MGT_ACT_FW_PENDING | MGT_ACT_FW_SLOT | MGT_ACT_ABANDONED
  | MGT_FW_VERSION | MGT_CNT_BAD_MSG | MGT_CNT_REPLAYED | SEC_STATUS_BOOT_FAIL
  | SEC_STATUS_SANITIZE_PENDING | SEC_STATUS_MK_STATE | SEC_STATUS_KEYSET | SEC_STATUS_SVN_MIN
  | SEC_KEY_STATE_LOADED | SEC_KEY_STATE_STORED | SEC_KEY_STATE_GENERATED | AVL_STATUS_RSVD_WRITE
  | AVL_STATUS_POWER_STATE | AVL_STATUS_MODE | AVL_DEGRADED | AVL_STANDBY_LOSS_ENTRIES
  | AVL_STANDBY_LOSS_TIME_HOLDOVER | AVL_STANDBY_LOSS_ALIVE | AVL_STANDBY_LOSS_CHECK_CTX | AVL_STANDBY_LOSS_GECKO
  | AVL_STANDBY_LOSS_CONNECTIONS | AVL_STANDBY_LOSS_STREAMS | AVL_STANDBY_LOSS_CORE_STATE | AVL_RESET_CAUSE_KIND
  | AVL_RESET_CAUSE_CAUSE | AVL_STEWARD_FAILOVERS | AVL_STEWARD_STANDBY_OK | AVL_STEWARD_RETIRED_PAIR
  | AVL_STEWARD_ACTIVE | AVL_SPARES_SPARE_CORES | AVL_SPARES_CORES_RETIRED | AVL_RETIRE_CFG_CORE_THRESHOLD
  | AVL_RETIRE_CFG_CLUTCH_THRESHOLD | AVL_RETIRE_CFG_FAULT_WINDOW_H | AVL_STOPS_COUNT | AVL_STOPS_DATA_LOSS
  | AVL_LIFE_HOURS | AVL_LIFE_LIFE_PM | SYS_GPIO_DIR | SYS_GPIO_OUT
  | SYS_GPIO_IN | THM_STATUS_TJ_MAX | THM_STATUS_STACK_MAX | THM_STATUS_LEVEL
  | THM_STATUS_ALERT | THM_STATUS_TRIPPED | THM_CTRL_CAP_W | THM_CTRL_LEVEL
  | THM_CLK_SWITCHES | THM_CLK_REVERT | THM_CLK_PREFER | THM_CLK_HOLDOVER
  | THM_CLK_REF1_OK | THM_CLK_REF0_OK | THM_CLK_ACTIVE | THM_POWER
  | THM_SENSOR
deriving DecidableEq, Repr

/-- What a register map says of one field: its bits, its access code and the resets it survives. -/
structure FldInfo where
  hi : Nat
  lo : Nat
  acc : Acc
  surv : List Rst
deriving DecidableEq, Repr

/-- Survives none. -/
def survNone : List Rst := []
/-- Survives A. -/
def survA : List Rst := [.a]
/-- Survives CWIEAS. -/
def survCWIEAS : List Rst := [.c, .w, .i, .e, .a, .s]
/-- Survives EA. -/
def survEA : List Rst := [.e, .a]
/-- Survives EAS. -/
def survEAS : List Rst := [.e, .a, .s]
/-- Survives IA. -/
def survIA : List Rst := [.i, .a]
/-- Survives IAS. -/
def survIAS : List Rst := [.i, .a, .s]
/-- Survives IE. -/
def survIE : List Rst := [.i, .e]
/-- Survives IEA. -/
def survIEA : List Rst := [.i, .e, .a]
/-- Survives IEAS. -/
def survIEAS : List Rst := [.i, .e, .a, .s]
/-- Survives PCWIEAS. -/
def survPCWIEAS : List Rst := [.p, .c, .w, .i, .e, .a, .s]
/-- Survives WEA. -/
def survWEA : List Rst := [.w, .e, .a]
/-- Survives WEAS. -/
def survWEAS : List Rst := [.w, .e, .a, .s]
/-- Survives WIEA. -/
def survWIEA : List Rst := [.w, .i, .e, .a]
/-- Survives WIEAS. -/
def survWIEAS : List Rst := [.w, .i, .e, .a, .s]
/-- Survives WIES. -/
def survWIES : List Rst := [.w, .i, .e, .s]

/-- The map row of each field (bits, access code, Survives). -/
def Fld.info : Fld → FldInfo
  | .SYS_DEV_ID => ⟨31, 0, .ro, survPCWIEAS⟩
  | .SYS_FABRIC_STATUS_RSVD_WRITE => ⟨31, 31, .rw1c, survIEAS⟩
  | .SYS_FABRIC_STATUS_LINKS_UP => ⟨22, 16, .ro, survWIEAS⟩
  | .SYS_FABRIC_STATUS_POISON_SEEN => ⟨0, 0, .rw1c, survIEAS⟩
  | .SYS_FABRIC_POISON_CNT => ⟨31, 0, .ro, survIEAS⟩
  | .SYS_FLUME_LOSS_LOST => ⟨31, 16, .ro, survIEAS⟩
  | .SYS_FLUME_LOSS_REFUSED => ⟨15, 0, .ro, survIEAS⟩
  | .SYS_TIME_STATUS_STEPPED => ⟨1, 1, .ro, survWIEAS⟩
  | .SYS_TIME_STATUS_LOCKED => ⟨0, 0, .ro, survWIEA⟩
  | .NET_PORT_STATUS_RSVD_WRITE => ⟨31, 31, .rw1c, survIEAS⟩
  | .NET_PORT_STATUS_UP => ⟨30, 30, .ro, survIEA⟩
  | .NET_PORT_STATUS_CFG_WIDTH => ⟨29, 28, .ro, survWIEAS⟩
  | .NET_PORT_STATUS_RUN_WIDTH => ⟨27, 26, .ro, survIEA⟩
  | .NET_PORT_STATUS_RUN_OFFSET => ⟨25, 23, .ro, survIEA⟩
  | .NET_PORT_STATUS_KIND => ⟨17, 16, .ro, survWIEAS⟩
  | .NET_PORT_STATUS_LANES_OK => ⟨15, 8, .ro, survIEA⟩
  | .NET_PORT_STATUS_LANES_CFG => ⟨7, 0, .ro, survWIEAS⟩
  | .NET_PORT_CTRL_RETRAIN => ⟨31, 31, .wo, survNone⟩
  | .NET_PORT_CTRL_WIDEN => ⟨30, 30, .wo, survNone⟩
  | .NET_PORT_CTRL_AUTO_WIDEN => ⟨0, 0, .rw, survWIEAS⟩
  | .NET_LANE_STATUS_ADAPTED => ⟨31, 31, .ro, survIEA⟩
  | .NET_LANE_STATUS_RX_SWAPPED => ⟨30, 30, .ro, survIEA⟩
  | .NET_LANE_STATUS_FAILS => ⟨15, 0, .ro, survWIEAS⟩
  | .NET_CNT_RX_FRAMES_LO => ⟨31, 0, .ro, survWIEAS⟩
  | .NET_CNT_RX_FRAMES_HI => ⟨31, 0, .ro, survWIEAS⟩
  | .NET_CNT_TX_FRAMES_LO => ⟨31, 0, .ro, survWIEAS⟩
  | .NET_CNT_TX_FRAMES_HI => ⟨31, 0, .ro, survWIEAS⟩
  | .NET_CNT_RX_BYTES_LO => ⟨31, 0, .ro, survWIEAS⟩
  | .NET_CNT_RX_BYTES_HI => ⟨31, 0, .ro, survWIEAS⟩
  | .NET_CNT_TX_BYTES_LO => ⟨31, 0, .ro, survWIEAS⟩
  | .NET_CNT_TX_BYTES_HI => ⟨31, 0, .ro, survWIEAS⟩
  | .NET_CNT_FEC_CORRECTED => ⟨31, 0, .ro, survWIEAS⟩
  | .NET_CNT_FEC_UNCORRECTED => ⟨31, 0, .ro, survWIEAS⟩
  | .NET_CNT_RX_BAD => ⟨31, 0, .ro, survWIEAS⟩
  | .NET_CNT_PAUSE_RX => ⟨31, 0, .ro, survWIEAS⟩
  | .STI_STATUS_RSVD_WRITE => ⟨31, 31, .rw1c, survIEAS⟩
  | .STI_STATUS_PENDING_RESET => ⟨10, 10, .ro, survWIEAS⟩
  | .STI_STATUS_FALLBACK => ⟨9, 9, .ro, survWIEAS⟩
  | .STI_STATUS_ACTIVE_SLOT => ⟨8, 8, .ro, survWIEAS⟩
  | .STI_STATUS_STATE => ⟨3, 0, .ro, survWIEAS⟩
  | .STI_ACTIVE_SERIAL_LO => ⟨31, 0, .ro, survWIEAS⟩
  | .STI_ACTIVE_SERIAL_HI => ⟨31, 0, .ro, survWIEAS⟩
  | .STI_ACTIVE_FORMAT_MAJOR => ⟨15, 8, .ro, survWIEAS⟩
  | .STI_ACTIVE_FORMAT_MINOR => ⟨7, 0, .ro, survWIEAS⟩
  | .STI_REJECT_STAGE => ⟨11, 8, .ro, survWIEAS⟩
  | .STI_REJECT_CAUSE => ⟨7, 0, .ro, survWIEAS⟩
  | .STI_REJECT_OFFSET => ⟨31, 0, .ro, survWIEAS⟩
  | .STI_CTRL => ⟨0, 0, .rwl, survCWIEAS⟩
  | .STI_SECTION_STATE_PRESENT => ⟨17, 17, .ro, survWIEAS⟩
  | .STI_SECTION_STATE_DEFAULTED => ⟨16, 16, .ro, survWIEAS⟩
  | .STI_SECTION_STATE_CHANGES => ⟨15, 0, .ro, survWIEAS⟩
  | .CAP_STATUS_RSVD_WRITE => ⟨31, 31, .rw1c, survIEAS⟩
  | .CAP_STATUS_RING_FULL_ANY => ⟨16, 16, .ro, survWIEA⟩
  | .CAP_STATUS_STREAMS_BOUND => ⟨12, 0, .ro, survWIEA⟩
  | .CAP_KFSP_PORTS_CTRL_PORT => ⟨31, 16, .rwl, survWIEAS⟩
  | .CAP_KFSP_PORTS_DATA_PORT => ⟨15, 0, .rwl, survWIEAS⟩
  | .CAP_REPAIR_REPAIR_US => ⟨31, 16, .rw, survWIEAS⟩
  | .CAP_REPAIR_NAK_TIMEOUT_US => ⟨15, 0, .rw, survWIEAS⟩
  | .CAP_TIMING_CLOSE_GUARD_MS => ⟨23, 16, .rw, survWIEAS⟩
  | .CAP_TIMING_IDLE_MS => ⟨15, 0, .rw, survWIEAS⟩
  | .CAP_DRAIN_DEPTH => ⟨20, 0, .ro, survWIEA⟩
  | .CAP_WINDOW_NEXT => ⟨31, 0, .ro, survWIEAS⟩
  | .CAP_CTRL_DROP => ⟨31, 0, .ro, survWIEAS⟩
  | .CAP_SW_TRIG_TIME_LO => ⟨31, 0, .rw, survWIEAS⟩
  | .CAP_SW_TRIG_TIME_HI => ⟨31, 0, .rw, survWIEAS⟩
  | .CAP_SW_TRIG_GO => ⟨31, 31, .wo, survNone⟩
  | .CAP_SW_TRIG_GROUP => ⟨5, 0, .wo, survNone⟩
  | .CAP_TG_CFG_INSTANCE => ⟨31, 24, .rw, survWIEAS⟩
  | .CAP_TG_CFG_ENABLE => ⟨23, 23, .rw, survWIEAS⟩
  | .CAP_TG_CFG_MERGE => ⟨22, 22, .rw, survWIEAS⟩
  | .CAP_TG_CFG_HOLDOFF_US => ⟨19, 0, .rw, survWIEAS⟩
  | .CAP_TG_PRE => ⟨31, 0, .rw, survWIEAS⟩
  | .CAP_TG_POST => ⟨31, 0, .rw, survWIEAS⟩
  | .CAP_TG_STATUS_OPEN => ⟨31, 31, .ro, survWEA⟩
  | .CAP_TG_STATUS_IGNORED => ⟨30, 16, .ro, survWIEAS⟩
  | .CAP_TG_STATUS_WINDOWS => ⟨15, 0, .ro, survWIEAS⟩
  | .CAP_PORT_DROP_RXBUF => ⟨31, 16, .ro, survWIEAS⟩
  | .CAP_PORT_DROP_UNBOUND => ⟨15, 0, .ro, survWIEAS⟩
  | .CAP_STREAM_CFG_STATE => ⟨31, 30, .ro, survWEA⟩
  | .CAP_STREAM_CFG_GROUP => ⟨29, 24, .ro, survWEA⟩
  | .CAP_STREAM_CFG_INSTANCE => ⟨23, 16, .ro, survWEA⟩
  | .CAP_STREAM_CFG_VERSION => ⟨15, 8, .ro, survWEA⟩
  | .CAP_STREAM_CFG_TIME_SOURCE => ⟨7, 7, .rw, survWEA⟩
  | .CAP_STREAM_CFG_THUMB => ⟨6, 5, .ro, survWEA⟩
  | .CAP_STREAM_CFG_FILTER_EN => ⟨4, 4, .ro, survWEA⟩
  | .CAP_STREAM_CFG_DEFAULT_VERDICT => ⟨3, 3, .ro, survWEA⟩
  | .CAP_STREAM_SLOTS => ⟨23, 0, .rw, survWEA⟩
  | .CAP_STREAM_FILTER_BUDGET_US => ⟨31, 16, .ro, survWEA⟩
  | .CAP_STREAM_FILTER_TASK => ⟨15, 0, .ro, survWEA⟩
  | .CAP_STREAM_CNT_PKT_RX => ⟨31, 0, .ro, survWEAS⟩
  | .CAP_STREAM_CNT_PKT_FORMAT => ⟨31, 0, .ro, survWEAS⟩
  | .CAP_STREAM_CNT_PKT_DUP => ⟨31, 0, .ro, survWEAS⟩
  | .CAP_STREAM_CNT_PKT_LATE => ⟨31, 0, .ro, survWEAS⟩
  | .CAP_STREAM_CNT_PKT_STALE => ⟨31, 0, .ro, survWEAS⟩
  | .CAP_STREAM_CNT_SLUICE_DROP => ⟨31, 0, .ro, survWEAS⟩
  | .CAP_STREAM_CNT_FRAMES_COMMITTED => ⟨31, 0, .ro, survWEAS⟩
  | .CAP_STREAM_CNT_FRAMES_INCOMPLETE => ⟨31, 0, .ro, survWEAS⟩
  | .CAP_STREAM_CNT_FRAMES_LOST => ⟨31, 0, .ro, survWEAS⟩
  | .CAP_STREAM_CNT_FRAMES_REFUSED => ⟨31, 0, .ro, survWEAS⟩
  | .CAP_STREAM_CNT_NAK_SENT => ⟨31, 0, .ro, survWEAS⟩
  | .CAP_STREAM_CNT_PKT_REPAIRED => ⟨31, 0, .ro, survWEAS⟩
  | .CAP_STREAM_CNT_VERDICT_LATE => ⟨31, 0, .ro, survWEAS⟩
  | .CAP_STREAM_CNT_VERDICT_INVALID => ⟨31, 0, .ro, survWEAS⟩
  | .CAP_STREAM_CNT_WINDOW_SHORT => ⟨31, 0, .ro, survWEAS⟩
  | .CDC_ENG_STATUS_RSVD_WRITE => ⟨31, 31, .rw1c, survIAS⟩
  | .CDC_ENG_STATUS_RETIRED => ⟨30, 30, .ro, survWIEAS⟩
  | .CDC_ENG_STATUS_SUSPECT => ⟨29, 29, .ro, survWIEAS⟩
  | .CDC_ENG_STATUS_QUEUE => ⟨26, 21, .ro, survIA⟩
  | .CDC_ENG_STATUS_INSTANCE => ⟨20, 13, .ro, survIA⟩
  | .CDC_ENG_STATUS_OP => ⟨12, 11, .ro, survIA⟩
  | .CDC_ENG_STATUS_MODE => ⟨10, 9, .ro, survIA⟩
  | .CDC_ENG_STATUS_BUSY => ⟨0, 0, .ro, survIA⟩
  | .CDC_ENG_CTRL => ⟨0, 0, .wo, survNone⟩
  | .CDC_ENG_IN_LO => ⟨31, 0, .ro, survWIEAS⟩
  | .CDC_ENG_IN_HI => ⟨31, 0, .ro, survWIEAS⟩
  | .CDC_ENG_OUT_LO => ⟨31, 0, .ro, survWIEAS⟩
  | .CDC_ENG_OUT_HI => ⟨31, 0, .ro, survWIEAS⟩
  | .CDC_ENG_JOBS => ⟨31, 0, .ro, survWIEAS⟩
  | .CDC_ENG_FAULTS_TRANSIENT => ⟨31, 16, .ro, survWIEAS⟩
  | .CDC_ENG_FAULTS_LASTING => ⟨15, 0, .ro, survWIEAS⟩
  | .CDC_ENG_SELFCHK => ⟨31, 0, .ro, survWIEAS⟩
  | .CDC_ENG_FALLBACK_TO_GEN => ⟨31, 16, .ro, survWIEAS⟩
  | .CDC_ENG_FALLBACK_TO_STORE => ⟨15, 0, .ro, survWIEAS⟩
  | .CDC_POOL_STATUS_CTX_FREE => ⟨24, 16, .ro, survWIEAS⟩
  | .CDC_POOL_STATUS_ENGINES => ⟨5, 0, .ro, survWIEAS⟩
  | .CDC_POOL_CFG_FAULT_WINDOW_H => ⟨23, 8, .rw, survWIEAS⟩
  | .CDC_POOL_CFG_RETIRE_THRESHOLD => ⟨7, 0, .rw, survWIEAS⟩
  | .CDC_CTX_FREE_GO => ⟨31, 31, .wo, survNone⟩
  | .CDC_CTX_FREE_SLOT => ⟨7, 0, .wo, survNone⟩
  | .CDC_Q_CFG_ENABLE => ⟨31, 31, .rw, survWIEAS⟩
  | .CDC_Q_CFG_CLASS => ⟨30, 30, .rwl, survWIEAS⟩
  | .CDC_Q_CFG_INSTANCE => ⟨23, 16, .rwl, survWIEAS⟩
  | .CDC_Q_CFG_DEPTH => ⟨10, 0, .rwl, survWIEAS⟩
  | .CDC_Q_SQ_TAIL => ⟨9, 0, .rw, survEAS⟩
  | .CDC_Q_SQ_HEAD_FULL_CNT => ⟨31, 16, .ro, survWIEAS⟩
  | .CDC_Q_SQ_HEAD_HEAD => ⟨9, 0, .ro, survEAS⟩
  | .CDC_Q_CQ_CQ_TAIL => ⟨25, 16, .ro, survEAS⟩
  | .CDC_Q_CQ_CQ_HEAD => ⟨9, 0, .rw, survEAS⟩
  | .FLS_CH_STATUS_RSVD_WRITE => ⟨31, 31, .rw1c, survIAS⟩
  | .FLS_CH_STATUS_RETIRED => ⟨30, 30, .ro, survWIEAS⟩
  | .FLS_CH_STATUS_SUSPECT => ⟨29, 29, .ro, survWIEAS⟩
  | .FLS_CH_STATUS_TRAINING => ⟨28, 28, .ro, survIA⟩
  | .FLS_CH_STATUS_RATE_200 => ⟨23, 16, .ro, survWIEAS⟩
  | .FLS_CH_STATUS_DIES => ⟨5, 0, .ro, survWIEAS⟩
  | .FLS_CH_CTRL_RETRAIN => ⟨1, 1, .wo, survNone⟩
  | .FLS_CH_CTRL_ENG_RESET => ⟨0, 0, .wo, survNone⟩
  | .FLS_CH_COLMAP_MAP_FULL => ⟨15, 15, .ro, survWIEAS⟩
  | .FLS_CH_COLMAP_ENTRIES => ⟨11, 0, .ro, survWIEAS⟩
  | .FLS_CH_RL_SEL_DIE => ⟨20, 16, .rw, survWIEAS⟩
  | .FLS_CH_RL_SEL_GROUP => ⟨11, 8, .rw, survWIEAS⟩
  | .FLS_CH_RL_SEL_BOUNDARY => ⟨3, 0, .rw, survWIEAS⟩
  | .FLS_CH_RL_DATA_SPREAD => ⟨10, 8, .ro, survWIEAS⟩
  | .FLS_CH_RL_DATA_OFFSET => ⟨7, 0, .ro, survWIEAS⟩
  | .FLS_CH_CNT_HARD_OK => ⟨31, 0, .ro, survWIEAS⟩
  | .FLS_CH_CNT_SOFT2_OK => ⟨31, 0, .ro, survWIEAS⟩
  | .FLS_CH_CNT_SOFT3_OK => ⟨31, 0, .ro, survWIEAS⟩
  | .FLS_CH_CNT_RETRY_OK => ⟨31, 0, .ro, survWIEAS⟩
  | .FLS_CH_CNT_REBUILT => ⟨31, 0, .ro, survWIEAS⟩
  | .FLS_CH_CNT_UNRECOVERED => ⟨31, 0, .ro, survWIEAS⟩
  | .FLS_CH_CNT_MISDIRECT => ⟨31, 0, .ro, survWIEAS⟩
  | .FLS_CH_CNT_SUSPENDS => ⟨31, 0, .ro, survWIEAS⟩
  | .FLS_CH_CNT_SUSP_TIMEOUT => ⟨31, 0, .ro, survWIEAS⟩
  | .FLS_CH_CNT_PROG_FAIL => ⟨31, 0, .ro, survWIEAS⟩
  | .FLS_CH_CNT_ERASE_FAIL => ⟨31, 0, .ro, survWIEAS⟩
  | .FLS_SUSPEND_CFG_MAX_PROG_SUSPENDS => ⟨31, 24, .rw, survWIEAS⟩
  | .FLS_SUSPEND_CFG_MAX_ERASE_SUSPENDS => ⟨23, 16, .rw, survWIEAS⟩
  | .FLS_SUSPEND_CFG_MIN_RUN_US => ⟨15, 0, .rw, survWIEAS⟩
  | .FLS_RL_CFG_ENABLE => ⟨31, 31, .rw, survWIEAS⟩
  | .FLS_RL_CFG_SAMPLES => ⟨15, 0, .rw, survWIEAS⟩
  | .FLS_RETIRE_CFG_DIE_THRESHOLD => ⟨31, 24, .rw, survWIEAS⟩
  | .FLS_RETIRE_CFG_FAULT_WINDOW_H => ⟨23, 8, .rw, survWIEAS⟩
  | .FLS_TRAIN_CFG_PERIOD_S => ⟨31, 16, .rw, survWIEAS⟩
  | .FLS_TRAIN_CFG_DELTA_C => ⟨7, 0, .rw, survWIEAS⟩
  | .FLS_REBUILD_CFG_AUTO_FORMAT => ⟨31, 31, .rw, survWIEAS⟩
  | .FLS_REBUILD_CFG_RATE_PM => ⟨9, 0, .rw, survWIEAS⟩
  | .FLS_STATUS_WRITES_STOPPED => ⟨30, 30, .ro, survWIEA⟩
  | .FLS_STATUS_CARRIERS_ONLINE => ⟨12, 8, .ro, survWIEA⟩
  | .FLS_STATUS_CHANNELS => ⟨5, 0, .ro, survWIEAS⟩
  | .FLS_CARRIER_STATE => ⟨31, 28, .ro, survWIEA⟩
  | .FLS_CARRIER_PRESENT => ⟨27, 27, .ro, survWIEAS⟩
  | .FLS_CARRIER_POWER_EN => ⟨26, 26, .ro, survWIEA⟩
  | .FLS_CARRIER_PROGRESS_PM => ⟨9, 0, .ro, survWIEA⟩
  | .FLS_CARRIER_CTRL_CMD => ⟨31, 28, .wo, survNone⟩
  | .FLS_CARRIER_CTRL_CARRIER => ⟨3, 0, .wo, survNone⟩
  | .DUR_STATUS_RSVD_WRITE => ⟨31, 31, .rw1c, survIEAS⟩
  | .DUR_STATUS_HOLDUP_READY => ⟨30, 30, .ro, survWIEAS⟩
  | .DUR_STATUS_DIRTY_LIMITED => ⟨29, 29, .ro, survWIEAS⟩
  | .DUR_STATUS_CAP_SCALED => ⟨28, 28, .ro, survWIEAS⟩
  | .DUR_STATUS_LAST_RECOVERY => ⟨18, 16, .ro, survWIEAS⟩
  | .DUR_DIRTY_LO => ⟨31, 0, .ro, survWIEAS⟩
  | .DUR_DIRTY_HI => ⟨31, 0, .ro, survWIEAS⟩
  | .DUR_DIRTY_LIMIT_LO => ⟨31, 0, .ro, survWIEAS⟩
  | .DUR_DIRTY_LIMIT_HI => ⟨31, 0, .ro, survWIEAS⟩
  | .DUR_CSEQ_LO => ⟨31, 0, .ro, survWIEAS⟩
  | .DUR_CSEQ_HI => ⟨31, 0, .ro, survWIEAS⟩
  | .DUR_CKPT_CFG_INTERVAL_S => ⟨31, 16, .rw, survWIEAS⟩
  | .DUR_CKPT_CFG_JOURNAL_MIB => ⟨15, 0, .rw, survWIEAS⟩
  | .DUR_GC_CFG_MAX_PM => ⟨31, 22, .rw, survWIEAS⟩
  | .DUR_GC_CFG_HIGH_PM => ⟨19, 10, .rw, survWIEAS⟩
  | .DUR_GC_CFG_LOW_PM => ⟨9, 0, .rw, survWIEAS⟩
  | .DUR_WEAR_CFG_WL_DELTA => ⟨31, 16, .rw, survWIEAS⟩
  | .DUR_WEAR_CFG_SCRUB_PERIOD_H => ⟨15, 0, .rw, survWIEAS⟩
  | .DUR_FREE_SB => ⟨17, 0, .ro, survWIEAS⟩
  | .DUR_CNT_HOLDUPS => ⟨31, 0, .ro, survCWIEAS⟩
  | .DUR_CNT_TORN_PAGES => ⟨31, 0, .ro, survCWIEAS⟩
  | .DUR_CNT_ABORTS => ⟨31, 0, .ro, survWIEAS⟩
  | .DUR_CNT_GC_MIB => ⟨31, 0, .ro, survWIEAS⟩
  | .DUR_CNT_WL_MOVES => ⟨31, 0, .ro, survWIEAS⟩
  | .DUR_CNT_SCRUB_REFRESH => ⟨31, 0, .ro, survWIEAS⟩
  | .DUR_CNT_TRANSIENT => ⟨31, 0, .ro, survWIEAS⟩
  | .DUR_CNT_LASTING => ⟨31, 0, .ro, survWIEAS⟩
  | .DUR_INS_STORED => ⟨31, 0, .ro, survWIEAS⟩
  | .HQ_STATUS_RSVD_WRITE => ⟨31, 31, .rw1c, survIEAS⟩
  | .HQ_STATUS_ADMIT_HELD => ⟨30, 30, .ro, survIE⟩
  | .HQ_STATUS_INFLIGHT => ⟨18, 0, .ro, survIEAS⟩
  | .HQ_TCP_PORTS_IO_PORT => ⟨31, 16, .rwl, survWIEAS⟩
  | .HQ_TCP_PORTS_DISC_PORT => ⟨15, 0, .rwl, survWIEAS⟩
  | .HQ_TCP_CFG_HDGST_EN => ⟨31, 31, .rw, survWIEAS⟩
  | .HQ_TCP_CFG_DDGST_EN => ⟨30, 30, .rw, survWIEAS⟩
  | .HQ_TCP_CFG_ICD_KIB => ⟨20, 16, .rwl, survWIEAS⟩
  | .HQ_TCP_CFG_MAXH2C_KIB => ⟨7, 0, .rwl, survWIEAS⟩
  | .HQ_CONN => ⟨16, 0, .ro, survIEA⟩
  | .HQ_TCP_REFUSED => ⟨31, 0, .ro, survWIEAS⟩
  | .HQ_ACT_LAST_ABANDONED => ⟨31, 16, .ro, survWIEAS⟩
  | .HQ_ACT_LAST_HOLD_US => ⟨15, 0, .ro, survWIEAS⟩
  | .HQ_INS_CFG_TCP_QPRIO => ⟨31, 30, .rw, survWIEAS⟩
  | .HQ_INS_CFG_CMD_QUOTA => ⟨18, 0, .rw, survWIEAS⟩
  | .HQ_INS_CNT_COMMANDS => ⟨31, 0, .ro, survWIEAS⟩
  | .HQ_INS_CNT_BUFFER_READS => ⟨31, 0, .ro, survWIEAS⟩
  | .HQ_INS_CNT_SHARE_REFUSED => ⟨31, 0, .ro, survWIEAS⟩
  | .HQ_INS_CNT_ABORTED_RESET => ⟨31, 0, .ro, survWIEAS⟩
  | .HQ_INS_CNT_GUARD_ERRORS => ⟨31, 0, .ro, survWIEAS⟩
  | .HQ_INS_CNT_READ_ERRORS => ⟨31, 0, .ro, survWIEAS⟩
  | .HQ_INS_CNT_TRANSPORT_ERRORS => ⟨31, 0, .ro, survWIEAS⟩
  | .HQ_INS_CNT_HELD => ⟨31, 0, .ro, survWIEAS⟩
  | .GKO_STATUS_RSVD_WRITE => ⟨31, 31, .rw1c, survIEAS⟩
  | .GKO_STATUS_LEVEL => ⟨30, 29, .ro, survIEA⟩
  | .GKO_STATUS_MOVING => ⟨28, 28, .ro, survIEA⟩
  | .GKO_STATUS_VALID_ENTRIES => ⟨20, 0, .ro, survIEA⟩
  | .GKO_THROTTLE => ⟨1, 0, .rw, survWIEAS⟩
  | .GKO_CFG_STEP_TIMEOUT_US => ⟨25, 16, .rw, survWIEAS⟩
  | .GKO_CFG_HG_MAX_PM => ⟨9, 0, .rw, survWIEAS⟩
  | .GKO_SPARES_DISABLED => ⟨31, 16, .ro, survWIEAS⟩
  | .GKO_SPARES_FEWEST_SPARES => ⟨7, 0, .ro, survWIEAS⟩
  | .GKO_PART_BASE_PRESENT => ⟨31, 31, .ro, survWIEAS⟩
  | .GKO_PART_BASE_USER => ⟨30, 29, .ro, survWIEAS⟩
  | .GKO_PART_BASE_MOVING => ⟨28, 28, .ro, survIEA⟩
  | .GKO_PART_BASE_INSTANCE => ⟨27, 20, .ro, survWIEAS⟩
  | .GKO_PART_BASE_FIRST => ⟨19, 0, .ro, survWIEAS⟩
  | .GKO_PART_SIZE => ⟨20, 0, .ro, survWIEAS⟩
  | .GKO_PART_LOST => ⟨31, 0, .ro, survWIEAS⟩
  | .GKO_SEARCHES_LO => ⟨31, 0, .ro, survWIEAS⟩
  | .GKO_SEARCHES_HI => ⟨31, 0, .ro, survWIEAS⟩
  | .GKO_CNT_FWD_MISS => ⟨31, 0, .ro, survWIEAS⟩
  | .GKO_CNT_RESULT_BAD => ⟨31, 0, .ro, survWIEAS⟩
  | .GKO_CNT_CONTEXT_REFUSED => ⟨31, 0, .ro, survWIEAS⟩
  | .GKO_CNT_BUSY_CNT => ⟨31, 0, .ro, survWIEAS⟩
  | .GKO_CNT_TRANSIENT => ⟨31, 0, .ro, survWIEAS⟩
  | .GKO_CNT_ENTRIES_MOVED => ⟨31, 0, .ro, survWIEAS⟩
  | .CTX_KEY => ⟨31, 0, .rw, survA⟩
  | .CTX_SMASK => ⟨31, 0, .rw, survA⟩
  | .CTX_VAL => ⟨31, 0, .rw, survA⟩
  | .CTX_CARE => ⟨31, 0, .rw, survA⟩
  | .CTX_ERESULT => ⟨31, 0, .rw, survA⟩
  | .SRCH_CMD_GO => ⟨31, 31, .wo, survNone⟩
  | .SRCH_CMD_OP => ⟨30, 29, .wo, survNone⟩
  | .SRCH_CMD_PARTITION => ⟨5, 0, .wo, survNone⟩
  | .SRCH_STATUS_DONE => ⟨31, 31, .ro, survA⟩
  | .SRCH_STATUS_HIT => ⟨30, 30, .ro, survA⟩
  | .SRCH_STATUS_MULTI => ⟨29, 29, .ro, survA⟩
  | .SRCH_STATUS_HANDLE => ⟨28, 28, .ro, survA⟩
  | .SRCH_STATUS_CODE => ⟨27, 24, .ro, survA⟩
  | .SRCH_STATUS_POS => ⟨19, 0, .ro, survA⟩
  | .SRCH_RESULT => ⟨31, 0, .ro, survA⟩
  | .UPD_CMD_GO => ⟨31, 31, .wo, survNone⟩
  | .UPD_CMD_OP => ⟨30, 28, .wo, survNone⟩
  | .UPD_CMD_PARTITION => ⟨25, 20, .wo, survNone⟩
  | .UPD_CMD_POSITION => ⟨19, 0, .wo, survNone⟩
  | .UPD_STATUS_DONE => ⟨31, 31, .ro, survA⟩
  | .UPD_STATUS_CODE => ⟨30, 27, .ro, survA⟩
  | .UPD_STATUS_DOWN => ⟨26, 26, .ro, survA⟩
  | .UPD_STATUS_VALID => ⟨25, 25, .ro, survA⟩
  | .UPD_STATUS_DISABLED => ⟨24, 24, .ro, survA⟩
  | .UPD_STATUS_POS => ⟨19, 0, .ro, survA⟩
  | .UPD_FREE => ⟨19, 0, .ro, survA⟩
  | .CORE_ID_INSTANCE => ⟨31, 24, .ro, survA⟩
  | .CORE_ID_CORE => ⟨8, 0, .ro, survPCWIEAS⟩
  | .CORE_STATUS_RSVD_WRITE => ⟨31, 31, .rw1c, survIA⟩
  | .CORE_STATUS_SUSPECT => ⟨30, 30, .ro, survIEA⟩
  | .CORE_STATUS_LASTING => ⟨15, 8, .ro, survIEA⟩
  | .CORE_STATUS_TRANSIENT => ⟨7, 1, .ro, survIEA⟩
  | .CORE_STATUS_IN_WORK => ⟨0, 0, .ro, survIA⟩
  | .CORE_EXC_EREP => ⟨31, 31, .rw, survIA⟩
  | .CORE_EXC_EREPI => ⟨30, 30, .rw, survIA⟩
  | .CORE_EXC_PSUP => ⟨29, 29, .rw, survIA⟩
  | .CORE_EXC_PIE => ⟨28, 28, .rw, survIA⟩
  | .CORE_EXC_ECAUSE => ⟨7, 0, .rw, survIA⟩
  | .CORE_EPC => ⟨31, 0, .rw, survIA⟩
  | .CORE_ERC => ⟨15, 0, .rw, survIA⟩
  | .CORE_VBASE => ⟨31, 6, .rw, survIA⟩
  | .CORE_EADDR_LO => ⟨31, 0, .rw, survIA⟩
  | .CORE_EADDR_HI => ⟨31, 0, .rw, survIA⟩
  | .CORE_BUDGET => ⟨31, 0, .rw, survA⟩
  | .CORE_XFER_ERR => ⟨7, 0, .rw1c, survA⟩
  | .CORE_EV_SET => ⟨15, 8, .wo, survNone⟩
  | .CORE_WIN_BASE_LO => ⟨31, 6, .rw, survA⟩
  | .CORE_WIN_BASE_HI => ⟨5, 0, .rw, survA⟩
  | .CORE_WIN_LEN_W => ⟨31, 31, .rw, survA⟩
  | .CORE_WIN_LEN_R => ⟨30, 30, .rw, survA⟩
  | .CORE_WIN_LEN_LEN64 => ⟨29, 0, .rw, survA⟩
  | .EFT_STATUS_RSVD_WRITE => ⟨31, 31, .rw1c, survIEAS⟩
  | .EFT_STATUS_READY => ⟨16, 0, .ro, survIEAS⟩
  | .EFT_TICK => ⟨19, 0, .ro, survWIEAS⟩
  | .EFT_SIGNAL_OP => ⟨31, 29, .wo, survNone⟩
  | .EFT_SIGNAL_FLAG => ⟨28, 24, .wo, survNone⟩
  | .EFT_SIGNAL_TASK => ⟨15, 0, .wo, survNone⟩
  | .EFT_POST => ⟨31, 0, .wo, survNone⟩
  | .EFT_RESULT_VALID => ⟨31, 31, .ro, survA⟩
  | .EFT_RESULT_CODE => ⟨19, 16, .ro, survA⟩
  | .EFT_RESULT_TASK => ⟨15, 0, .ro, survA⟩
  | .EFT_CANCEL_RACE => ⟨31, 0, .ro, survWIEAS⟩
  | .EFT_CNT_DISPATCHED => ⟨31, 0, .ro, survWIEAS⟩
  | .EFT_CNT_POSTS => ⟨31, 0, .ro, survWIEAS⟩
  | .EFT_CNT_POST_REFUSED => ⟨31, 0, .ro, survWIEAS⟩
  | .EFT_CNT_SIGNAL_REFUSED => ⟨31, 0, .ro, survWIEAS⟩
  | .EFT_CNT_FAULT_COMPLETIONS => ⟨31, 0, .ro, survWIEAS⟩
  | .EFT_CNT_TICK_LATE => ⟨31, 0, .ro, survWIEAS⟩
  | .EFT_CNT_TIMER_OVERRUN => ⟨31, 0, .ro, survWIEAS⟩
  | .EFT_INS_CFG_MAX_PRIO => ⟨31, 28, .rw, survWIEAS⟩
  | .EFT_INS_CFG_WI_QUOTA => ⟨17, 0, .rw, survWIEAS⟩
  | .EFT_INS_USE => ⟨16, 0, .ro, survWIEAS⟩
  | .EFT_INS_WI => ⟨17, 0, .ro, survEAS⟩
  | .EFT_GROUP_CORES => ⟨17, 9, .ro, survWIEAS⟩
  | .EFT_GROUP_IDLE => ⟨8, 0, .ro, survIEAS⟩
  | .EFT_TASK_CFG_STATE => ⟨31, 30, .ro, survWIEAS⟩
  | .EFT_TASK_CFG_PRIORITY => ⟨29, 26, .rw, survWIEAS⟩
  | .EFT_TASK_CFG_GROUP => ⟨25, 20, .ro, survWIEAS⟩
  | .EFT_TASK_CFG_MODE => ⟨19, 19, .rw, survWIEAS⟩
  | .EFT_TASK_CFG_PERIODIC => ⟨18, 18, .rw, survWIEAS⟩
  | .EFT_TASK_CFG_DELAY_ON => ⟨17, 17, .ro, survEAS⟩
  | .EFT_TASK_CFG_DFLAG => ⟨16, 12, .rw, survWIEAS⟩
  | .EFT_TASK_CFG_CONCURRENCY => ⟨8, 0, .rw, survWIEAS⟩
  | .EFT_TASK_ENTRY => ⟨31, 2, .ro, survWIEAS⟩
  | .EFT_TASK_MASK => ⟨31, 0, .rw, survWIEAS⟩
  | .EFT_TASK_FLAGS => ⟨31, 0, .ro, survEAS⟩
  | .EFT_TASK_DELAY => ⟨23, 0, .rw, survWIEAS⟩
  | .EFT_TASK_BUDGET => ⟨31, 0, .rw, survWIEAS⟩
  | .EFT_TASK_INFO_INSTANCE => ⟨31, 24, .ro, survWIEAS⟩
  | .EFT_TASK_INFO_RUNNING => ⟨8, 0, .ro, survEAS⟩
  | .EFT_TASK_QUEUED => ⟨16, 0, .ro, survEAS⟩
  | .MEM_STATUS_RSVD_WRITE => ⟨31, 31, .rw1c, survIEAS⟩
  | .MEM_STATUS_CHANNELS => ⟨7, 0, .ro, survWIEAS⟩
  | .MEM_CFG_SCRUB_PERIOD_H => ⟨25, 16, .rw, survWIEAS⟩
  | .MEM_CFG_BK_MIN_PM => ⟨9, 0, .rw, survWIEAS⟩
  | .MEM_RD_CFG_NR_RADIUS => ⟨17, 16, .rw, survWIEAS⟩
  | .MEM_RD_CFG_NR_THRESHOLD => ⟨15, 0, .rw, survWIEAS⟩
  | .MEM_RETIRE_CFG_LASTING_THRESHOLD => ⟨31, 24, .rw, survWIEAS⟩
  | .MEM_RETIRE_CFG_ROW_CE_THRESHOLD => ⟨23, 20, .rw, survWIEAS⟩
  | .MEM_RETIRE_CFG_FAULT_WINDOW_H => ⟨15, 0, .rw, survWIEAS⟩
  | .MEM_TRAIN_CFG_TRACK_EN => ⟨31, 31, .rw, survWIEAS⟩
  | .MEM_TRAIN_CFG_MARGIN_MIN => ⟨15, 8, .rw, survWIEAS⟩
  | .MEM_TRAIN_CFG_DELTA_C => ⟨7, 0, .rw, survWIEAS⟩
  | .MEM_RELIEF_UNRELIEVED => ⟨31, 16, .ro, survWIEAS⟩
  | .MEM_RELIEF_RELIEF_USED => ⟨15, 0, .ro, survWIEAS⟩
  | .MEM_PROT_CNT_REFUSED => ⟨31, 16, .ro, survWIEAS⟩
  | .MEM_PROT_CNT_GEN_DROP => ⟨15, 0, .ro, survWIEAS⟩
  | .MEM_STACK_HOT => ⟨31, 31, .ro, survIEA⟩
  | .MEM_STACK_TEMP_C => ⟨23, 16, .ro, survIEA⟩
  | .MEM_STACK_SPARE_ROWS => ⟨15, 0, .ro, survWIEAS⟩
  | .MEM_PORT_CFG_PANIC_EN => ⟨31, 31, .rw, survWIEAS⟩
  | .MEM_PORT_CFG_PANIC_PM => ⟨30, 21, .rw, survWIEAS⟩
  | .MEM_PORT_CFG_CALM_PM => ⟨20, 11, .rw, survWIEAS⟩
  | .MEM_PORT_CFG_TARGET_US10 => ⟨10, 0, .rw, survWIEAS⟩
  | .MEM_PORT_STAT_PANIC => ⟨31, 31, .ro, survIEA⟩
  | .MEM_PORT_STAT_PANICS => ⟨30, 16, .ro, survWIEAS⟩
  | .MEM_PORT_STAT_LATE => ⟨15, 0, .ro, survWIEAS⟩
  | .MEM_CH_STATUS_RETIRED => ⟨31, 31, .ro, survWIEAS⟩
  | .MEM_CH_STATUS_SUSPECT => ⟨30, 30, .ro, survWIEAS⟩
  | .MEM_CH_STATUS_TRAINING => ⟨29, 29, .ro, survIA⟩
  | .MEM_CH_STATUS_MIGRATING => ⟨28, 28, .ro, survWIEAS⟩
  | .MEM_CH_STATUS_CREDITS_MIN => ⟨3, 0, .ro, survIA⟩
  | .MEM_CH_CNT_CORRECTED => ⟨31, 0, .ro, survWIEAS⟩
  | .MEM_CH_CNT_TRANSIENT => ⟨31, 0, .ro, survWIEAS⟩
  | .MEM_CH_CNT_LASTING => ⟨31, 0, .ro, survWIEAS⟩
  | .MEM_CH_CNT_FORCED_REF => ⟨31, 0, .ro, survWIEAS⟩
  | .MEM_CH_CNT_NEIGHBOUR_REF => ⟨31, 0, .ro, survWIEAS⟩
  | .MEM_CH_CNT_SCRUB_FIXED => ⟨31, 0, .ro, survWIEAS⟩
  | .MEM_CH_CNT_ROWS_REPAIRED => ⟨31, 0, .ro, survWIEAS⟩
  | .CHK_STATUS_RSVD_WRITE => ⟨31, 31, .rw1c, survIEAS⟩
  | .CHK_STATUS_ENGINES => ⟨4, 0, .ro, survWIEAS⟩
  | .CHK_ALIVE_CFG_ALIVE_RESYNC => ⟨20, 16, .rw, survWIEAS⟩
  | .CHK_ALIVE_CFG_ALIVE_WINDOW => ⟨12, 0, .rw, survWIEAS⟩
  | .CHK_GUARD_CNT_GUARD_REGEN_DROPPED => ⟨31, 16, .ro, survWIEAS⟩
  | .CHK_GUARD_CNT_GUARD_REGEN => ⟨15, 0, .ro, survWIEAS⟩
  | .CHK_PORT_CNT_CRC_BAD => ⟨31, 0, .ro, survWIEAS⟩
  | .CHK_PORT_CNT_DIGEST_BAD => ⟨31, 0, .ro, survWIEAS⟩
  | .CHK_PORT_CNT_GUARD_BAD => ⟨31, 0, .ro, survWIEAS⟩
  | .CHK_ALIVE_CNT_GAP => ⟨31, 0, .ro, survWEAS⟩
  | .CHK_ALIVE_CNT_REPEAT => ⟨31, 0, .ro, survWEAS⟩
  | .CHK_ALIVE_CNT_OLD => ⟨31, 0, .ro, survWEAS⟩
  | .CHK_ALIVE_CNT_RESYNCS => ⟨31, 0, .ro, survWEAS⟩
  | .CHK_CTX_CFG_INSTANCE => ⟨31, 24, .rw, survA⟩
  | .CHK_CTX_CFG_ALG => ⟨23, 22, .rw, survIA⟩
  | .CHK_CTX_CFG_MODE => ⟨21, 21, .rw, survA⟩
  | .CHK_CTX_CFG_STATE => ⟨2, 0, .ro, survIA⟩
  | .CHK_CTX_CMD_GO => ⟨31, 31, .wo, survNone⟩
  | .CHK_CTX_CMD_OP => ⟨30, 28, .wo, survNone⟩
  | .CHK_CTX_CMD_NOTIFY => ⟨27, 27, .wo, survNone⟩
  | .CHK_CTX_CMD_FLAG => ⟨26, 22, .wo, survNone⟩
  | .CHK_CTX_CMD_TASK => ⟨15, 0, .wo, survNone⟩
  | .CHK_CTX_SRC_LO => ⟨31, 0, .rw, survA⟩
  | .CHK_CTX_SRC_HI => ⟨31, 0, .rw, survA⟩
  | .CHK_CTX_LEN => ⟨31, 0, .rw, survA⟩
  | .CHK_CTX_VAL_LO => ⟨31, 0, .rw, survIA⟩
  | .CHK_CTX_VAL_HI => ⟨31, 0, .rw, survIA⟩
  | .CHK_CTX_RES_LO => ⟨31, 0, .ro, survIA⟩
  | .CHK_CTX_RES_HI => ⟨31, 0, .ro, survIA⟩
  | .CHK_CTX_BUSY_CNT => ⟨31, 0, .ro, survA⟩
  | .INS_STATUS_RSVD_WRITE => ⟨31, 31, .rw1c, survIEAS⟩
  | .INS_STATUS_ENABLED => ⟨30, 30, .ro, survWIEAS⟩
  | .INS_STATUS_RESET_BUSY => ⟨29, 29, .ro, survEA⟩
  | .INS_STATUS_GENERATION => ⟨15, 0, .ro, survWIEAS⟩
  | .INS_CTRL => ⟨31, 31, .wo, survNone⟩
  | .INS_SHARE_CODEC_PM => ⟨29, 20, .rw, survWIEAS⟩
  | .INS_SHARE_MEMBW_PM => ⟨19, 10, .rw, survWIEAS⟩
  | .INS_SHARE_FLASHBW_PM => ⟨9, 0, .rw, survWIEAS⟩
  | .INS_CORES_CORES_NOW => ⟨24, 16, .ro, survWIEAS⟩
  | .INS_CORES_CORES_MIN => ⟨8, 0, .rw, survWIEAS⟩
  | .INS_SLUICE => ⟨19, 0, .rw, survWIEAS⟩
  | .INS_CAPACITY => ⟨31, 0, .rw, survWIEAS⟩
  | .INS_QUOTA_GECKO => ⟨20, 0, .rw, survWIEAS⟩
  | .INS_QUOTA_TASKS => ⟨16, 0, .rw, survWIEAS⟩
  | .INS_QUOTA_CONN => ⟨16, 0, .rw, survWIEAS⟩
  | .INS_QUOTA_STREAMS => ⟨12, 0, .rw, survWIEAS⟩
  | .INS_IOPERM => ⟨0, 0, .rw, survWIEAS⟩
  | .INS_YIELD_COUNT => ⟨31, 0, .ro, survWIEAS⟩
  | .INS_EPOCH_USE_CODEC_USE_PM => ⟨29, 20, .ro, survIEA⟩
  | .INS_EPOCH_USE_MEM_USE_PM => ⟨19, 10, .ro, survIEA⟩
  | .INS_EPOCH_USE_FLASH_USE_PM => ⟨9, 0, .ro, survIEA⟩
  | .INS_MBX_STATUS_OUT_COUNT => ⟨20, 16, .ro, survWEAS⟩
  | .INS_MBX_STATUS_IN_COUNT => ⟨4, 0, .ro, survWIEAS⟩
  | .INS_MBX_CTRL_POP => ⟨31, 31, .wo, survNone⟩
  | .INS_MBX_CTRL_PUSH => ⟨30, 30, .wo, survNone⟩
  | .INS_MBX_CTRL_LEN => ⟨25, 16, .wo, survNone⟩
  | .INS_MBX_CTRL_TYPE => ⟨15, 0, .wo, survNone⟩
  | .INS_MBX_IN => ⟨31, 0, .ro, survWIEAS⟩
  | .INS_MBX_OUT => ⟨31, 0, .rw, survWEAS⟩
  | .MGT_STATUS_RSVD_WRITE => ⟨31, 31, .rw1c, survIEAS⟩
  | .MGT_STATUS_LOCK_HELD => ⟨30, 30, .ro, survWIEAS⟩
  | .MGT_STATUS_VERSION => ⟨15, 0, .ro, survWIEAS⟩
  | .MGT_CFG_UDP_EN => ⟨31, 31, .rw, survCWIEAS⟩
  | .MGT_CFG_PF0_EN => ⟨30, 30, .rw, survCWIEAS⟩
  | .MGT_CFG_UDP_PORT => ⟨15, 0, .rw, survCWIEAS⟩
  | .MGT_NET_IPV4 => ⟨31, 0, .rw, survCWIEAS⟩
  | .MGT_NET_PREFIX => ⟨5, 0, .rw, survCWIEAS⟩
  | .MGT_ACT_STATE => ⟨31, 28, .ro, survWIEAS⟩
  | .MGT_ACT_STEP => ⟨27, 24, .ro, survWIEAS⟩
  | .MGT_ACT_FW_PENDING => ⟨23, 23, .ro, survWIEAS⟩
  | .MGT_ACT_FW_SLOT => ⟨22, 22, .ro, survWIEAS⟩
  | .MGT_ACT_ABANDONED => ⟨15, 0, .ro, survWIEAS⟩
  | .MGT_FW_VERSION => ⟨31, 0, .ro, survWIES⟩
  | .MGT_CNT_BAD_MSG => ⟨31, 16, .ro, survWIEAS⟩
  | .MGT_CNT_REPLAYED => ⟨15, 0, .ro, survWIEAS⟩
  | .SEC_STATUS_BOOT_FAIL => ⟨31, 31, .ro, survNone⟩
  | .SEC_STATUS_SANITIZE_PENDING => ⟨30, 30, .ro, survWIEAS⟩
  | .SEC_STATUS_MK_STATE => ⟨29, 28, .ro, survWIEAS⟩
  | .SEC_STATUS_KEYSET => ⟨27, 26, .ro, survWIEAS⟩
  | .SEC_STATUS_SVN_MIN => ⟨5, 0, .ro, survPCWIEAS⟩
  | .SEC_KEY_STATE_LOADED => ⟨31, 31, .ro, survWIEA⟩
  | .SEC_KEY_STATE_STORED => ⟨30, 30, .ro, survWIEAS⟩
  | .SEC_KEY_STATE_GENERATED => ⟨29, 29, .ro, survWIEAS⟩
  | .AVL_STATUS_RSVD_WRITE => ⟨31, 31, .rw1c, survIEAS⟩
  | .AVL_STATUS_POWER_STATE => ⟨5, 4, .ro, survIEAS⟩
  | .AVL_STATUS_MODE => ⟨2, 0, .ro, survWIEAS⟩
  | .AVL_DEGRADED => ⟨10, 0, .ro, survWIEAS⟩
  | .AVL_STANDBY_LOSS_ENTRIES => ⟨23, 16, .ro, survCWIEAS⟩
  | .AVL_STANDBY_LOSS_TIME_HOLDOVER => ⟨6, 6, .rw1c, survCWIEAS⟩
  | .AVL_STANDBY_LOSS_ALIVE => ⟨5, 5, .rw1c, survCWIEAS⟩
  | .AVL_STANDBY_LOSS_CHECK_CTX => ⟨4, 4, .rw1c, survCWIEAS⟩
  | .AVL_STANDBY_LOSS_GECKO => ⟨3, 3, .rw1c, survCWIEAS⟩
  | .AVL_STANDBY_LOSS_CONNECTIONS => ⟨2, 2, .rw1c, survCWIEAS⟩
  | .AVL_STANDBY_LOSS_STREAMS => ⟨1, 1, .rw1c, survCWIEAS⟩
  | .AVL_STANDBY_LOSS_CORE_STATE => ⟨0, 0, .rw1c, survCWIEAS⟩
  | .AVL_RESET_CAUSE_KIND => ⟨9, 8, .ro, survIEAS⟩
  | .AVL_RESET_CAUSE_CAUSE => ⟨3, 0, .ro, survIEAS⟩
  | .AVL_STEWARD_FAILOVERS => ⟨31, 16, .ro, survWIEAS⟩
  | .AVL_STEWARD_STANDBY_OK => ⟨2, 2, .ro, survIEAS⟩
  | .AVL_STEWARD_RETIRED_PAIR => ⟨1, 1, .ro, survWIEAS⟩
  | .AVL_STEWARD_ACTIVE => ⟨0, 0, .ro, survIEAS⟩
  | .AVL_SPARES_SPARE_CORES => ⟨20, 16, .ro, survWIEAS⟩
  | .AVL_SPARES_CORES_RETIRED => ⟨8, 0, .ro, survWIEAS⟩
  | .AVL_RETIRE_CFG_CORE_THRESHOLD => ⟨31, 24, .rw, survWIEAS⟩
  | .AVL_RETIRE_CFG_CLUTCH_THRESHOLD => ⟨23, 16, .rw, survWIEAS⟩
  | .AVL_RETIRE_CFG_FAULT_WINDOW_H => ⟨15, 0, .rw, survWIEAS⟩
  | .AVL_STOPS_COUNT => ⟨31, 16, .ro, survCWIEAS⟩
  | .AVL_STOPS_DATA_LOSS => ⟨15, 0, .ro, survCWIEAS⟩
  | .AVL_LIFE_HOURS => ⟨31, 10, .ro, survCWIEAS⟩
  | .AVL_LIFE_LIFE_PM => ⟨9, 0, .ro, survCWIEAS⟩
  | .SYS_GPIO_DIR => ⟨31, 16, .rw, survWIEAS⟩
  | .SYS_GPIO_OUT => ⟨15, 0, .rw, survWIEAS⟩
  | .SYS_GPIO_IN => ⟨15, 0, .ro, survIEA⟩
  | .THM_STATUS_TJ_MAX => ⟨31, 24, .ro, survIEA⟩
  | .THM_STATUS_STACK_MAX => ⟨23, 16, .ro, survIEA⟩
  | .THM_STATUS_LEVEL => ⟨9, 8, .ro, survIEA⟩
  | .THM_STATUS_ALERT => ⟨7, 7, .ro, survIEA⟩
  | .THM_STATUS_TRIPPED => ⟨6, 6, .rw1c, survCWIEAS⟩
  | .THM_CTRL_CAP_W => ⟨25, 16, .rw, survWIEAS⟩
  | .THM_CTRL_LEVEL => ⟨1, 0, .rw, survWIEAS⟩
  | .THM_CLK_SWITCHES => ⟨31, 16, .ro, survWIEAS⟩
  | .THM_CLK_REVERT => ⟨5, 5, .rw, survCWIEAS⟩
  | .THM_CLK_PREFER => ⟨4, 4, .rw, survCWIEAS⟩
  | .THM_CLK_HOLDOVER => ⟨3, 3, .ro, survIEAS⟩
  | .THM_CLK_REF1_OK => ⟨2, 2, .ro, survIEAS⟩
  | .THM_CLK_REF0_OK => ⟨1, 1, .ro, survIEAS⟩
  | .THM_CLK_ACTIVE => ⟨0, 0, .ro, survIEAS⟩
  | .THM_POWER => ⟨15, 0, .ro, survIEA⟩
  | .THM_SENSOR => ⟨7, 0, .ro, survIEA⟩

/-- The Reset column (R14) as a number. A field whose column says "Image" or "Saved value" resets to 0 here, and
building the data path (R58) or loading the saved record (R455) writes it; CORE_ID.CORE and MEM_PORT_CFG.PANIC_EN
depend on the index. -/
def Fld.reset : Fld → Nat → Nat
  | .CORE_ID_CORE, i => i
  | .MEM_PORT_CFG_PANIC_EN, i => if i < 128 then 1 else 0
  | .SYS_DEV_ID, _ => 0x4b440512
  | .SYS_FABRIC_STATUS_LINKS_UP, _ => 64
  | .STI_CTRL, _ => 1
  | .CAP_KFSP_PORTS_CTRL_PORT, _ => 19271
  | .CAP_KFSP_PORTS_DATA_PORT, _ => 19270
  | .CAP_REPAIR_REPAIR_US, _ => 400
  | .CAP_REPAIR_NAK_TIMEOUT_US, _ => 100
  | .CAP_TIMING_CLOSE_GUARD_MS, _ => 10
  | .CAP_TIMING_IDLE_MS, _ => 1000
  | .CAP_TG_CFG_MERGE, _ => 1
  | .CAP_STREAM_CFG_TIME_SOURCE, _ => 1
  | .CAP_STREAM_FILTER_BUDGET_US, _ => 200
  | .CDC_POOL_STATUS_CTX_FREE, _ => 256
  | .CDC_POOL_STATUS_ENGINES, _ => 32
  | .CDC_POOL_CFG_FAULT_WINDOW_H, _ => 24
  | .CDC_POOL_CFG_RETIRE_THRESHOLD, _ => 3
  | .CDC_Q_CFG_DEPTH, _ => 1024
  | .FLS_CH_RL_DATA_SPREAD, _ => 1
  | .FLS_SUSPEND_CFG_MAX_PROG_SUSPENDS, _ => 8
  | .FLS_SUSPEND_CFG_MAX_ERASE_SUSPENDS, _ => 16
  | .FLS_SUSPEND_CFG_MIN_RUN_US, _ => 60
  | .FLS_RL_CFG_ENABLE, _ => 1
  | .FLS_RL_CFG_SAMPLES, _ => 4096
  | .FLS_RETIRE_CFG_DIE_THRESHOLD, _ => 4
  | .FLS_RETIRE_CFG_FAULT_WINDOW_H, _ => 24
  | .FLS_TRAIN_CFG_PERIOD_S, _ => 600
  | .FLS_TRAIN_CFG_DELTA_C, _ => 20
  | .FLS_REBUILD_CFG_RATE_PM, _ => 150
  | .DUR_CKPT_CFG_INTERVAL_S, _ => 60
  | .DUR_CKPT_CFG_JOURNAL_MIB, _ => 1024
  | .DUR_GC_CFG_MAX_PM, _ => 600
  | .DUR_GC_CFG_HIGH_PM, _ => 40
  | .DUR_GC_CFG_LOW_PM, _ => 10
  | .DUR_WEAR_CFG_WL_DELTA, _ => 1000
  | .DUR_WEAR_CFG_SCRUB_PERIOD_H, _ => 168
  | .HQ_TCP_PORTS_IO_PORT, _ => 4420
  | .HQ_TCP_PORTS_DISC_PORT, _ => 8009
  | .HQ_TCP_CFG_HDGST_EN, _ => 1
  | .HQ_TCP_CFG_DDGST_EN, _ => 1
  | .HQ_TCP_CFG_ICD_KIB, _ => 8
  | .HQ_TCP_CFG_MAXH2C_KIB, _ => 128
  | .HQ_INS_CFG_TCP_QPRIO, _ => 2
  | .HQ_INS_CFG_CMD_QUOTA, _ => 16384
  | .GKO_CFG_STEP_TIMEOUT_US, _ => 20
  | .GKO_CFG_HG_MAX_PM, _ => 500
  | .GKO_SPARES_FEWEST_SPARES, _ => 128
  | .CTX_SMASK, _ => 0xffffffff
  | .EFT_TICK, _ => 1000
  | .EFT_INS_CFG_MAX_PRIO, _ => 4
  | .EFT_INS_CFG_WI_QUOTA, _ => 8192
  | .EFT_TASK_CFG_CONCURRENCY, _ => 1
  | .MEM_STATUS_CHANNELS, _ => 128
  | .MEM_CFG_SCRUB_PERIOD_H, _ => 24
  | .MEM_CFG_BK_MIN_PM, _ => 50
  | .MEM_RD_CFG_NR_RADIUS, _ => 2
  | .MEM_RD_CFG_NR_THRESHOLD, _ => 4096
  | .MEM_RETIRE_CFG_LASTING_THRESHOLD, _ => 8
  | .MEM_RETIRE_CFG_ROW_CE_THRESHOLD, _ => 4
  | .MEM_RETIRE_CFG_FAULT_WINDOW_H, _ => 24
  | .MEM_TRAIN_CFG_TRACK_EN, _ => 1
  | .MEM_TRAIN_CFG_MARGIN_MIN, _ => 20
  | .MEM_TRAIN_CFG_DELTA_C, _ => 15
  | .MEM_PORT_CFG_PANIC_PM, _ => 750
  | .MEM_PORT_CFG_CALM_PM, _ => 500
  | .MEM_PORT_CFG_TARGET_US10, _ => 200
  | .MEM_CH_STATUS_CREDITS_MIN, _ => 8
  | .CHK_STATUS_ENGINES, _ => 16
  | .CHK_ALIVE_CFG_ALIVE_RESYNC, _ => 16
  | .CHK_ALIVE_CFG_ALIVE_WINDOW, _ => 1024
  | .MGT_CFG_UDP_EN, _ => 1
  | .MGT_CFG_PF0_EN, _ => 1
  | .MGT_CFG_UDP_PORT, _ => 19277
  | .AVL_SPARES_SPARE_CORES, _ => 16
  | .AVL_RETIRE_CFG_CORE_THRESHOLD, _ => 3
  | .AVL_RETIRE_CFG_CLUTCH_THRESHOLD, _ => 3
  | .AVL_RETIRE_CFG_FAULT_WINDOW_H, _ => 24
  | .THM_CTRL_CAP_W, _ => 520
  | _, _ => 0

/-- The range a field's description states, first and last value (R13); none where every value is legal. Ranges that
depend on another field are in Machine/Ops.lean. -/
def Fld.range : Fld → Option (Nat × Nat)
  | .CAP_REPAIR_REPAIR_US => some (50, 20000)
  | .CAP_REPAIR_NAK_TIMEOUT_US => some (10, 10000)
  | .CAP_TIMING_CLOSE_GUARD_MS => some (1, 255)
  | .CAP_TIMING_IDLE_MS => some (10, 60000)
  | .CAP_TG_CFG_HOLDOFF_US => some (0, 1000000)
  | .CAP_TG_PRE => some (0, 10000000)
  | .CAP_TG_POST => some (0, 10000000)
  | .CDC_POOL_CFG_FAULT_WINDOW_H => some (1, 8760)
  | .CDC_POOL_CFG_RETIRE_THRESHOLD => some (1, 255)
  | .CDC_Q_CFG_DEPTH => some (16, 1024)
  | .FLS_CH_RL_SEL_BOUNDARY => some (0, 14)
  | .FLS_SUSPEND_CFG_MIN_RUN_US => some (10, 10000)
  | .FLS_RL_CFG_SAMPLES => some (256, 65535)
  | .FLS_RETIRE_CFG_DIE_THRESHOLD => some (1, 255)
  | .FLS_RETIRE_CFG_FAULT_WINDOW_H => some (1, 8760)
  | .FLS_TRAIN_CFG_DELTA_C => some (5, 60)
  | .FLS_REBUILD_CFG_RATE_PM => some (1, 1000)
  | .FLS_CARRIER_CTRL_CMD => some (1, 5)
  | .DUR_CKPT_CFG_INTERVAL_S => some (10, 3600)
  | .DUR_CKPT_CFG_JOURNAL_MIB => some (64, 16384)
  | .DUR_GC_CFG_HIGH_PM => some (0, 500)
  | .DUR_GC_CFG_MAX_PM => some (0, 1000)
  | .DUR_GC_CFG_LOW_PM => some (1, 499)
  | .DUR_WEAR_CFG_WL_DELTA => some (50, 65535)
  | .DUR_WEAR_CFG_SCRUB_PERIOD_H => some (24, 8760)
  | .HQ_TCP_CFG_ICD_KIB => some (0, 16)
  | .HQ_TCP_CFG_MAXH2C_KIB => some (4, 128)
  | .HQ_INS_CFG_CMD_QUOTA => some (1, 262144)
  | .GKO_CFG_STEP_TIMEOUT_US => some (1, 1000)
  | .GKO_CFG_HG_MAX_PM => some (0, 1000)
  | .SRCH_CMD_OP => some (0, 2)
  | .EFT_SIGNAL_OP => some (0, 6)
  | .EFT_INS_CFG_WI_QUOTA => some (1, 131072)
  | .EFT_TASK_CFG_CONCURRENCY => some (1, 256)
  | .MEM_CFG_SCRUB_PERIOD_H => some (1, 720)
  | .MEM_CFG_BK_MIN_PM => some (10, 500)
  | .MEM_RD_CFG_NR_RADIUS => some (1, 2)
  | .MEM_RD_CFG_NR_THRESHOLD => some (2560, 65535)
  | .MEM_RETIRE_CFG_LASTING_THRESHOLD => some (1, 255)
  | .MEM_RETIRE_CFG_ROW_CE_THRESHOLD => some (1, 15)
  | .MEM_RETIRE_CFG_FAULT_WINDOW_H => some (1, 8760)
  | .MEM_TRAIN_CFG_MARGIN_MIN => some (5, 50)
  | .MEM_TRAIN_CFG_DELTA_C => some (5, 60)
  | .MEM_PORT_CFG_PANIC_PM => some (500, 950)
  | .MEM_PORT_CFG_TARGET_US10 => some (10, 2047)
  | .CHK_ALIVE_CFG_ALIVE_RESYNC => some (4, 31)
  | .CHK_ALIVE_CFG_ALIVE_WINDOW => some (64, 4096)
  | .CHK_CTX_CFG_ALG => some (0, 2)
  | .CHK_CTX_LEN => some (1, 4294967295)
  | .INS_SLUICE => some (1, 800000)
  | .INS_MBX_CTRL_LEN => some (0, 1008)
  | .MGT_NET_PREFIX => some (0, 32)
  | .AVL_RETIRE_CFG_CORE_THRESHOLD => some (1, 255)
  | .AVL_RETIRE_CFG_CLUTCH_THRESHOLD => some (1, 255)
  | .AVL_RETIRE_CFG_FAULT_WINDOW_H => some (1, 8760)
  | .THM_CTRL_CAP_W => some (200, 520)
  | _ => none

/-- One register, or one array of registers: its block, the offset of its first word, the copies of that word in the
block (count and stride) and the array inside a copy (count and stride). -/
structure RegDef where
  blk : Block
  off : Nat
  copies : Nat
  cstride : Nat
  n : Nat
  stride : Nat
  flds : List Fld
deriving DecidableEq, Repr

/-- Registers of block sys. -/
def regs_sys : List RegDef := [
  ⟨.sys, 0x0, 1, 0x0, 1, 0, [.SYS_DEV_ID]⟩,
  ⟨.sys, 0x100, 1, 0x0, 1, 0, [.SYS_FABRIC_STATUS_RSVD_WRITE, .SYS_FABRIC_STATUS_LINKS_UP, .SYS_FABRIC_STATUS_POISON_SEEN]⟩,
  ⟨.sys, 0x104, 1, 0x0, 1, 0, [.SYS_FABRIC_POISON_CNT]⟩,
  ⟨.sys, 0x108, 1, 0x0, 1, 0, [.SYS_FLUME_LOSS_LOST, .SYS_FLUME_LOSS_REFUSED]⟩,
  ⟨.sys, 0x300, 1, 0x0, 1, 0, [.SYS_TIME_STATUS_STEPPED, .SYS_TIME_STATUS_LOCKED]⟩,
  ⟨.sys, 0x200, 1, 0x0, 1, 0, [.SYS_GPIO_DIR, .SYS_GPIO_OUT]⟩,
  ⟨.sys, 0x204, 1, 0x0, 1, 0, [.SYS_GPIO_IN]⟩]

/-- Registers of block sti. -/
def regs_sti : List RegDef := [
  ⟨.sti, 0x0, 1, 0x0, 1, 0, [.STI_STATUS_RSVD_WRITE, .STI_STATUS_PENDING_RESET, .STI_STATUS_FALLBACK, .STI_STATUS_ACTIVE_SLOT, .STI_STATUS_STATE]⟩,
  ⟨.sti, 0x8, 1, 0x0, 1, 0, [.STI_ACTIVE_SERIAL_LO]⟩,
  ⟨.sti, 0xc, 1, 0x0, 1, 0, [.STI_ACTIVE_SERIAL_HI]⟩,
  ⟨.sti, 0x10, 1, 0x0, 1, 0, [.STI_ACTIVE_FORMAT_MAJOR, .STI_ACTIVE_FORMAT_MINOR]⟩,
  ⟨.sti, 0x20, 1, 0x0, 1, 0, [.STI_REJECT_STAGE, .STI_REJECT_CAUSE]⟩,
  ⟨.sti, 0x24, 1, 0x0, 1, 0, [.STI_REJECT_OFFSET]⟩,
  ⟨.sti, 0x40, 1, 0x0, 1, 0, [.STI_CTRL]⟩,
  ⟨.sti, 0x104, 1, 0x0, 10, 4, [.STI_SECTION_STATE_PRESENT, .STI_SECTION_STATE_DEFAULTED, .STI_SECTION_STATE_CHANGES]⟩]

/-- Registers of block net. -/
def regs_net : List RegDef := [
  ⟨.net, 0x0, 128, 0x10000, 1, 0, [.NET_PORT_STATUS_RSVD_WRITE, .NET_PORT_STATUS_UP, .NET_PORT_STATUS_CFG_WIDTH, .NET_PORT_STATUS_RUN_WIDTH, .NET_PORT_STATUS_RUN_OFFSET, .NET_PORT_STATUS_KIND, .NET_PORT_STATUS_LANES_OK, .NET_PORT_STATUS_LANES_CFG]⟩,
  ⟨.net, 0x4, 128, 0x10000, 1, 0, [.NET_PORT_CTRL_RETRAIN, .NET_PORT_CTRL_WIDEN, .NET_PORT_CTRL_AUTO_WIDEN]⟩,
  ⟨.net, 0x10, 128, 0x10000, 8, 4, [.NET_LANE_STATUS_ADAPTED, .NET_LANE_STATUS_RX_SWAPPED, .NET_LANE_STATUS_FAILS]⟩,
  ⟨.net, 0x40, 128, 0x10000, 1, 0, [.NET_CNT_RX_FRAMES_LO]⟩,
  ⟨.net, 0x44, 128, 0x10000, 1, 0, [.NET_CNT_RX_FRAMES_HI]⟩,
  ⟨.net, 0x48, 128, 0x10000, 1, 0, [.NET_CNT_TX_FRAMES_LO]⟩,
  ⟨.net, 0x4c, 128, 0x10000, 1, 0, [.NET_CNT_TX_FRAMES_HI]⟩,
  ⟨.net, 0x50, 128, 0x10000, 1, 0, [.NET_CNT_RX_BYTES_LO]⟩,
  ⟨.net, 0x54, 128, 0x10000, 1, 0, [.NET_CNT_RX_BYTES_HI]⟩,
  ⟨.net, 0x58, 128, 0x10000, 1, 0, [.NET_CNT_TX_BYTES_LO]⟩,
  ⟨.net, 0x5c, 128, 0x10000, 1, 0, [.NET_CNT_TX_BYTES_HI]⟩,
  ⟨.net, 0x60, 128, 0x10000, 1, 0, [.NET_CNT_FEC_CORRECTED]⟩,
  ⟨.net, 0x64, 128, 0x10000, 1, 0, [.NET_CNT_FEC_UNCORRECTED]⟩,
  ⟨.net, 0x68, 128, 0x10000, 1, 0, [.NET_CNT_RX_BAD]⟩,
  ⟨.net, 0x6c, 128, 0x10000, 1, 0, [.NET_CNT_PAUSE_RX]⟩]

/-- Registers of block cap. -/
def regs_cap : List RegDef := [
  ⟨.cap, 0x0, 1, 0x0, 1, 0, [.CAP_STATUS_RSVD_WRITE, .CAP_STATUS_RING_FULL_ANY, .CAP_STATUS_STREAMS_BOUND]⟩,
  ⟨.cap, 0x4, 1, 0x0, 1, 0, [.CAP_KFSP_PORTS_CTRL_PORT, .CAP_KFSP_PORTS_DATA_PORT]⟩,
  ⟨.cap, 0x8, 1, 0x0, 1, 0, [.CAP_REPAIR_REPAIR_US, .CAP_REPAIR_NAK_TIMEOUT_US]⟩,
  ⟨.cap, 0xc, 1, 0x0, 1, 0, [.CAP_TIMING_CLOSE_GUARD_MS, .CAP_TIMING_IDLE_MS]⟩,
  ⟨.cap, 0x10, 1, 0x0, 1, 0, [.CAP_DRAIN_DEPTH]⟩,
  ⟨.cap, 0x14, 1, 0x0, 1, 0, [.CAP_WINDOW_NEXT]⟩,
  ⟨.cap, 0x18, 1, 0x0, 1, 0, [.CAP_CTRL_DROP]⟩,
  ⟨.cap, 0x20, 1, 0x0, 1, 0, [.CAP_SW_TRIG_TIME_LO]⟩,
  ⟨.cap, 0x24, 1, 0x0, 1, 0, [.CAP_SW_TRIG_TIME_HI]⟩,
  ⟨.cap, 0x28, 1, 0x0, 1, 0, [.CAP_SW_TRIG_GO, .CAP_SW_TRIG_GROUP]⟩,
  ⟨.cap, 0x1000, 1, 0x0, 64, 16, [.CAP_TG_CFG_INSTANCE, .CAP_TG_CFG_ENABLE, .CAP_TG_CFG_MERGE, .CAP_TG_CFG_HOLDOFF_US]⟩,
  ⟨.cap, 0x1004, 1, 0x0, 64, 16, [.CAP_TG_PRE]⟩,
  ⟨.cap, 0x1008, 1, 0x0, 64, 16, [.CAP_TG_POST]⟩,
  ⟨.cap, 0x100c, 1, 0x0, 64, 16, [.CAP_TG_STATUS_OPEN, .CAP_TG_STATUS_IGNORED, .CAP_TG_STATUS_WINDOWS]⟩,
  ⟨.cap, 0x2000, 1, 0x0, 128, 4, [.CAP_PORT_DROP_RXBUF, .CAP_PORT_DROP_UNBOUND]⟩,
  ⟨.cap, 0x100000, 1, 0x0, 4096, 64, [.CAP_STREAM_CFG_STATE, .CAP_STREAM_CFG_GROUP, .CAP_STREAM_CFG_INSTANCE, .CAP_STREAM_CFG_VERSION, .CAP_STREAM_CFG_TIME_SOURCE, .CAP_STREAM_CFG_THUMB, .CAP_STREAM_CFG_FILTER_EN, .CAP_STREAM_CFG_DEFAULT_VERDICT]⟩,
  ⟨.cap, 0x100004, 1, 0x0, 4096, 64, [.CAP_STREAM_SLOTS]⟩,
  ⟨.cap, 0x100008, 1, 0x0, 4096, 64, [.CAP_STREAM_FILTER_BUDGET_US, .CAP_STREAM_FILTER_TASK]⟩,
  ⟨.cap, 0x200000, 1, 0x0, 4096, 64, [.CAP_STREAM_CNT_PKT_RX]⟩,
  ⟨.cap, 0x200004, 1, 0x0, 4096, 64, [.CAP_STREAM_CNT_PKT_FORMAT]⟩,
  ⟨.cap, 0x200008, 1, 0x0, 4096, 64, [.CAP_STREAM_CNT_PKT_DUP]⟩,
  ⟨.cap, 0x20000c, 1, 0x0, 4096, 64, [.CAP_STREAM_CNT_PKT_LATE]⟩,
  ⟨.cap, 0x200010, 1, 0x0, 4096, 64, [.CAP_STREAM_CNT_PKT_STALE]⟩,
  ⟨.cap, 0x200014, 1, 0x0, 4096, 64, [.CAP_STREAM_CNT_SLUICE_DROP]⟩,
  ⟨.cap, 0x200018, 1, 0x0, 4096, 64, [.CAP_STREAM_CNT_FRAMES_COMMITTED]⟩,
  ⟨.cap, 0x20001c, 1, 0x0, 4096, 64, [.CAP_STREAM_CNT_FRAMES_INCOMPLETE]⟩,
  ⟨.cap, 0x200020, 1, 0x0, 4096, 64, [.CAP_STREAM_CNT_FRAMES_LOST]⟩,
  ⟨.cap, 0x200024, 1, 0x0, 4096, 64, [.CAP_STREAM_CNT_FRAMES_REFUSED]⟩,
  ⟨.cap, 0x200028, 1, 0x0, 4096, 64, [.CAP_STREAM_CNT_NAK_SENT]⟩,
  ⟨.cap, 0x20002c, 1, 0x0, 4096, 64, [.CAP_STREAM_CNT_PKT_REPAIRED]⟩,
  ⟨.cap, 0x200030, 1, 0x0, 4096, 64, [.CAP_STREAM_CNT_VERDICT_LATE]⟩,
  ⟨.cap, 0x200034, 1, 0x0, 4096, 64, [.CAP_STREAM_CNT_VERDICT_INVALID]⟩,
  ⟨.cap, 0x200038, 1, 0x0, 4096, 64, [.CAP_STREAM_CNT_WINDOW_SHORT]⟩]

/-- Registers of block cdc. -/
def regs_cdc : List RegDef := [
  ⟨.cdc, 0x0, 32, 0x10000, 1, 0, [.CDC_ENG_STATUS_RSVD_WRITE, .CDC_ENG_STATUS_RETIRED, .CDC_ENG_STATUS_SUSPECT, .CDC_ENG_STATUS_QUEUE, .CDC_ENG_STATUS_INSTANCE, .CDC_ENG_STATUS_OP, .CDC_ENG_STATUS_MODE, .CDC_ENG_STATUS_BUSY]⟩,
  ⟨.cdc, 0x4, 32, 0x10000, 1, 0, [.CDC_ENG_CTRL]⟩,
  ⟨.cdc, 0x10, 32, 0x10000, 1, 0, [.CDC_ENG_IN_LO]⟩,
  ⟨.cdc, 0x14, 32, 0x10000, 1, 0, [.CDC_ENG_IN_HI]⟩,
  ⟨.cdc, 0x18, 32, 0x10000, 1, 0, [.CDC_ENG_OUT_LO]⟩,
  ⟨.cdc, 0x1c, 32, 0x10000, 1, 0, [.CDC_ENG_OUT_HI]⟩,
  ⟨.cdc, 0x20, 32, 0x10000, 1, 0, [.CDC_ENG_JOBS]⟩,
  ⟨.cdc, 0x24, 32, 0x10000, 1, 0, [.CDC_ENG_FAULTS_TRANSIENT, .CDC_ENG_FAULTS_LASTING]⟩,
  ⟨.cdc, 0x28, 32, 0x10000, 1, 0, [.CDC_ENG_SELFCHK]⟩,
  ⟨.cdc, 0x2c, 32, 0x10000, 1, 0, [.CDC_ENG_FALLBACK_TO_GEN, .CDC_ENG_FALLBACK_TO_STORE]⟩,
  ⟨.cdc, 0x8000, 1, 0x0, 1, 0, [.CDC_POOL_STATUS_CTX_FREE, .CDC_POOL_STATUS_ENGINES]⟩,
  ⟨.cdc, 0x8004, 1, 0x0, 1, 0, [.CDC_POOL_CFG_FAULT_WINDOW_H, .CDC_POOL_CFG_RETIRE_THRESHOLD]⟩,
  ⟨.cdc, 0x8008, 1, 0x0, 1, 0, [.CDC_CTX_FREE_GO, .CDC_CTX_FREE_SLOT]⟩,
  ⟨.cdc, 0x8100, 1, 0x0, 64, 16, [.CDC_Q_CFG_ENABLE, .CDC_Q_CFG_CLASS, .CDC_Q_CFG_INSTANCE, .CDC_Q_CFG_DEPTH]⟩,
  ⟨.cdc, 0x8104, 1, 0x0, 64, 16, [.CDC_Q_SQ_TAIL]⟩,
  ⟨.cdc, 0x8108, 1, 0x0, 64, 16, [.CDC_Q_SQ_HEAD_FULL_CNT, .CDC_Q_SQ_HEAD_HEAD]⟩,
  ⟨.cdc, 0x810c, 1, 0x0, 64, 16, [.CDC_Q_CQ_CQ_TAIL, .CDC_Q_CQ_CQ_HEAD]⟩]

/-- Registers of block fls. -/
def regs_fls : List RegDef := [
  ⟨.fls, 0x0, 32, 0x40000, 1, 0, [.FLS_CH_STATUS_RSVD_WRITE, .FLS_CH_STATUS_RETIRED, .FLS_CH_STATUS_SUSPECT, .FLS_CH_STATUS_TRAINING, .FLS_CH_STATUS_RATE_200, .FLS_CH_STATUS_DIES]⟩,
  ⟨.fls, 0x4, 32, 0x40000, 1, 0, [.FLS_CH_CTRL_RETRAIN, .FLS_CH_CTRL_ENG_RESET]⟩,
  ⟨.fls, 0x8, 32, 0x40000, 1, 0, [.FLS_CH_COLMAP_MAP_FULL, .FLS_CH_COLMAP_ENTRIES]⟩,
  ⟨.fls, 0x10, 32, 0x40000, 1, 0, [.FLS_CH_RL_SEL_DIE, .FLS_CH_RL_SEL_GROUP, .FLS_CH_RL_SEL_BOUNDARY]⟩,
  ⟨.fls, 0x14, 32, 0x40000, 1, 0, [.FLS_CH_RL_DATA_SPREAD, .FLS_CH_RL_DATA_OFFSET]⟩,
  ⟨.fls, 0x100, 32, 0x40000, 1, 0, [.FLS_CH_CNT_HARD_OK]⟩,
  ⟨.fls, 0x104, 32, 0x40000, 1, 0, [.FLS_CH_CNT_SOFT2_OK]⟩,
  ⟨.fls, 0x108, 32, 0x40000, 1, 0, [.FLS_CH_CNT_SOFT3_OK]⟩,
  ⟨.fls, 0x10c, 32, 0x40000, 1, 0, [.FLS_CH_CNT_RETRY_OK]⟩,
  ⟨.fls, 0x110, 32, 0x40000, 1, 0, [.FLS_CH_CNT_REBUILT]⟩,
  ⟨.fls, 0x114, 32, 0x40000, 1, 0, [.FLS_CH_CNT_UNRECOVERED]⟩,
  ⟨.fls, 0x118, 32, 0x40000, 1, 0, [.FLS_CH_CNT_MISDIRECT]⟩,
  ⟨.fls, 0x11c, 32, 0x40000, 1, 0, [.FLS_CH_CNT_SUSPENDS]⟩,
  ⟨.fls, 0x120, 32, 0x40000, 1, 0, [.FLS_CH_CNT_SUSP_TIMEOUT]⟩,
  ⟨.fls, 0x124, 32, 0x40000, 1, 0, [.FLS_CH_CNT_PROG_FAIL]⟩,
  ⟨.fls, 0x128, 32, 0x40000, 1, 0, [.FLS_CH_CNT_ERASE_FAIL]⟩,
  ⟨.fls, 0x30000, 1, 0x0, 1, 0, [.FLS_SUSPEND_CFG_MAX_PROG_SUSPENDS, .FLS_SUSPEND_CFG_MAX_ERASE_SUSPENDS, .FLS_SUSPEND_CFG_MIN_RUN_US]⟩,
  ⟨.fls, 0x30004, 1, 0x0, 1, 0, [.FLS_RL_CFG_ENABLE, .FLS_RL_CFG_SAMPLES]⟩,
  ⟨.fls, 0x30008, 1, 0x0, 1, 0, [.FLS_RETIRE_CFG_DIE_THRESHOLD, .FLS_RETIRE_CFG_FAULT_WINDOW_H]⟩,
  ⟨.fls, 0x3000c, 1, 0x0, 1, 0, [.FLS_TRAIN_CFG_PERIOD_S, .FLS_TRAIN_CFG_DELTA_C]⟩,
  ⟨.fls, 0x30010, 1, 0x0, 1, 0, [.FLS_REBUILD_CFG_AUTO_FORMAT, .FLS_REBUILD_CFG_RATE_PM]⟩,
  ⟨.fls, 0x30014, 1, 0x0, 1, 0, [.FLS_STATUS_WRITES_STOPPED, .FLS_STATUS_CARRIERS_ONLINE, .FLS_STATUS_CHANNELS]⟩,
  ⟨.fls, 0x30100, 1, 0x0, 16, 4, [.FLS_CARRIER_STATE, .FLS_CARRIER_PRESENT, .FLS_CARRIER_POWER_EN, .FLS_CARRIER_PROGRESS_PM]⟩,
  ⟨.fls, 0x30200, 1, 0x0, 1, 0, [.FLS_CARRIER_CTRL_CMD, .FLS_CARRIER_CTRL_CARRIER]⟩]

/-- Registers of block dur. -/
def regs_dur : List RegDef := [
  ⟨.dur, 0x0, 1, 0x0, 1, 0, [.DUR_STATUS_RSVD_WRITE, .DUR_STATUS_HOLDUP_READY, .DUR_STATUS_DIRTY_LIMITED, .DUR_STATUS_CAP_SCALED, .DUR_STATUS_LAST_RECOVERY]⟩,
  ⟨.dur, 0x8, 1, 0x0, 1, 0, [.DUR_DIRTY_LO]⟩,
  ⟨.dur, 0xc, 1, 0x0, 1, 0, [.DUR_DIRTY_HI]⟩,
  ⟨.dur, 0x10, 1, 0x0, 1, 0, [.DUR_DIRTY_LIMIT_LO]⟩,
  ⟨.dur, 0x14, 1, 0x0, 1, 0, [.DUR_DIRTY_LIMIT_HI]⟩,
  ⟨.dur, 0x18, 1, 0x0, 1, 0, [.DUR_CSEQ_LO]⟩,
  ⟨.dur, 0x1c, 1, 0x0, 1, 0, [.DUR_CSEQ_HI]⟩,
  ⟨.dur, 0x20, 1, 0x0, 1, 0, [.DUR_CKPT_CFG_INTERVAL_S, .DUR_CKPT_CFG_JOURNAL_MIB]⟩,
  ⟨.dur, 0x24, 1, 0x0, 1, 0, [.DUR_GC_CFG_MAX_PM, .DUR_GC_CFG_HIGH_PM, .DUR_GC_CFG_LOW_PM]⟩,
  ⟨.dur, 0x28, 1, 0x0, 1, 0, [.DUR_WEAR_CFG_WL_DELTA, .DUR_WEAR_CFG_SCRUB_PERIOD_H]⟩,
  ⟨.dur, 0x2c, 1, 0x0, 1, 0, [.DUR_FREE_SB]⟩,
  ⟨.dur, 0x100, 1, 0x0, 1, 0, [.DUR_CNT_HOLDUPS]⟩,
  ⟨.dur, 0x104, 1, 0x0, 1, 0, [.DUR_CNT_TORN_PAGES]⟩,
  ⟨.dur, 0x108, 1, 0x0, 1, 0, [.DUR_CNT_ABORTS]⟩,
  ⟨.dur, 0x10c, 1, 0x0, 1, 0, [.DUR_CNT_GC_MIB]⟩,
  ⟨.dur, 0x110, 1, 0x0, 1, 0, [.DUR_CNT_WL_MOVES]⟩,
  ⟨.dur, 0x114, 1, 0x0, 1, 0, [.DUR_CNT_SCRUB_REFRESH]⟩,
  ⟨.dur, 0x118, 1, 0x0, 1, 0, [.DUR_CNT_TRANSIENT]⟩,
  ⟨.dur, 0x11c, 1, 0x0, 1, 0, [.DUR_CNT_LASTING]⟩,
  ⟨.dur, 0x1000, 1, 0x0, 256, 4, [.DUR_INS_STORED]⟩]

/-- Registers of block hq. -/
def regs_hq : List RegDef := [
  ⟨.hq, 0x0, 1, 0x0, 1, 0, [.HQ_STATUS_RSVD_WRITE, .HQ_STATUS_ADMIT_HELD, .HQ_STATUS_INFLIGHT]⟩,
  ⟨.hq, 0x4, 1, 0x0, 1, 0, [.HQ_TCP_PORTS_IO_PORT, .HQ_TCP_PORTS_DISC_PORT]⟩,
  ⟨.hq, 0x8, 1, 0x0, 1, 0, [.HQ_TCP_CFG_HDGST_EN, .HQ_TCP_CFG_DDGST_EN, .HQ_TCP_CFG_ICD_KIB, .HQ_TCP_CFG_MAXH2C_KIB]⟩,
  ⟨.hq, 0xc, 1, 0x0, 1, 0, [.HQ_CONN]⟩,
  ⟨.hq, 0x10, 1, 0x0, 1, 0, [.HQ_TCP_REFUSED]⟩,
  ⟨.hq, 0x14, 1, 0x0, 1, 0, [.HQ_ACT_LAST_ABANDONED, .HQ_ACT_LAST_HOLD_US]⟩,
  ⟨.hq, 0x1000, 1, 0x0, 256, 16, [.HQ_INS_CFG_TCP_QPRIO, .HQ_INS_CFG_CMD_QUOTA]⟩,
  ⟨.hq, 0x2000, 1, 0x0, 256, 64, [.HQ_INS_CNT_COMMANDS]⟩,
  ⟨.hq, 0x2004, 1, 0x0, 256, 64, [.HQ_INS_CNT_BUFFER_READS]⟩,
  ⟨.hq, 0x2008, 1, 0x0, 256, 64, [.HQ_INS_CNT_SHARE_REFUSED]⟩,
  ⟨.hq, 0x200c, 1, 0x0, 256, 64, [.HQ_INS_CNT_ABORTED_RESET]⟩,
  ⟨.hq, 0x2010, 1, 0x0, 256, 64, [.HQ_INS_CNT_GUARD_ERRORS]⟩,
  ⟨.hq, 0x2014, 1, 0x0, 256, 64, [.HQ_INS_CNT_READ_ERRORS]⟩,
  ⟨.hq, 0x2018, 1, 0x0, 256, 64, [.HQ_INS_CNT_TRANSPORT_ERRORS]⟩,
  ⟨.hq, 0x201c, 1, 0x0, 256, 64, [.HQ_INS_CNT_HELD]⟩]

/-- Registers of block gko. -/
def regs_gko : List RegDef := [
  ⟨.gko, 0x0, 1, 0x0, 1, 0, [.GKO_STATUS_RSVD_WRITE, .GKO_STATUS_LEVEL, .GKO_STATUS_MOVING, .GKO_STATUS_VALID_ENTRIES]⟩,
  ⟨.gko, 0x4, 1, 0x0, 1, 0, [.GKO_THROTTLE]⟩,
  ⟨.gko, 0x8, 1, 0x0, 1, 0, [.GKO_CFG_STEP_TIMEOUT_US, .GKO_CFG_HG_MAX_PM]⟩,
  ⟨.gko, 0xc, 1, 0x0, 1, 0, [.GKO_SPARES_DISABLED, .GKO_SPARES_FEWEST_SPARES]⟩,
  ⟨.gko, 0x100, 1, 0x0, 64, 16, [.GKO_PART_BASE_PRESENT, .GKO_PART_BASE_USER, .GKO_PART_BASE_MOVING, .GKO_PART_BASE_INSTANCE, .GKO_PART_BASE_FIRST]⟩,
  ⟨.gko, 0x104, 1, 0x0, 64, 16, [.GKO_PART_SIZE]⟩,
  ⟨.gko, 0x108, 1, 0x0, 64, 16, [.GKO_PART_LOST]⟩,
  ⟨.gko, 0x200, 1, 0x0, 1, 0, [.GKO_SEARCHES_LO]⟩,
  ⟨.gko, 0x204, 1, 0x0, 1, 0, [.GKO_SEARCHES_HI]⟩,
  ⟨.gko, 0x210, 1, 0x0, 1, 0, [.GKO_CNT_FWD_MISS]⟩,
  ⟨.gko, 0x214, 1, 0x0, 1, 0, [.GKO_CNT_RESULT_BAD]⟩,
  ⟨.gko, 0x218, 1, 0x0, 1, 0, [.GKO_CNT_CONTEXT_REFUSED]⟩,
  ⟨.gko, 0x21c, 1, 0x0, 1, 0, [.GKO_CNT_BUSY_CNT]⟩,
  ⟨.gko, 0x220, 1, 0x0, 1, 0, [.GKO_CNT_TRANSIENT]⟩,
  ⟨.gko, 0x224, 1, 0x0, 1, 0, [.GKO_CNT_ENTRIES_MOVED]⟩,
  ⟨.gko, 0x100000, 276, 0x80, 4, 4, [.CTX_KEY]⟩,
  ⟨.gko, 0x100010, 276, 0x80, 4, 4, [.CTX_SMASK]⟩,
  ⟨.gko, 0x100030, 276, 0x80, 4, 4, [.CTX_VAL]⟩,
  ⟨.gko, 0x100040, 276, 0x80, 4, 4, [.CTX_CARE]⟩,
  ⟨.gko, 0x100050, 1, 0x0, 276, 128, [.CTX_ERESULT]⟩,
  ⟨.gko, 0x100020, 1, 0x0, 276, 128, [.SRCH_CMD_GO, .SRCH_CMD_OP, .SRCH_CMD_PARTITION]⟩,
  ⟨.gko, 0x100024, 1, 0x0, 276, 128, [.SRCH_STATUS_DONE, .SRCH_STATUS_HIT, .SRCH_STATUS_MULTI, .SRCH_STATUS_HANDLE, .SRCH_STATUS_CODE, .SRCH_STATUS_POS]⟩,
  ⟨.gko, 0x100028, 1, 0x0, 276, 128, [.SRCH_RESULT]⟩,
  ⟨.gko, 0x100054, 1, 0x0, 276, 128, [.UPD_CMD_GO, .UPD_CMD_OP, .UPD_CMD_PARTITION, .UPD_CMD_POSITION]⟩,
  ⟨.gko, 0x100058, 1, 0x0, 276, 128, [.UPD_STATUS_DONE, .UPD_STATUS_CODE, .UPD_STATUS_DOWN, .UPD_STATUS_VALID, .UPD_STATUS_DISABLED, .UPD_STATUS_POS]⟩,
  ⟨.gko, 0x10005c, 1, 0x0, 276, 128, [.UPD_FREE]⟩]

/-- Registers of block eft. -/
def regs_eft : List RegDef := [
  ⟨.eft, 0x0, 1, 0x0, 1, 0, [.EFT_STATUS_RSVD_WRITE, .EFT_STATUS_READY]⟩,
  ⟨.eft, 0x4, 1, 0x0, 1, 0, [.EFT_TICK]⟩,
  ⟨.eft, 0x10, 1, 0x0, 1, 0, [.EFT_SIGNAL_OP, .EFT_SIGNAL_FLAG, .EFT_SIGNAL_TASK]⟩,
  ⟨.eft, 0x14, 1, 0x0, 1, 0, [.EFT_POST]⟩,
  ⟨.eft, 0x18, 1, 0x0, 274, 0, [.EFT_RESULT_VALID, .EFT_RESULT_CODE, .EFT_RESULT_TASK]⟩,
  ⟨.eft, 0x20, 1, 0x0, 1, 0, [.EFT_CANCEL_RACE]⟩,
  ⟨.eft, 0x40, 1, 0x0, 1, 0, [.EFT_CNT_DISPATCHED]⟩,
  ⟨.eft, 0x44, 1, 0x0, 1, 0, [.EFT_CNT_POSTS]⟩,
  ⟨.eft, 0x48, 1, 0x0, 1, 0, [.EFT_CNT_POST_REFUSED]⟩,
  ⟨.eft, 0x4c, 1, 0x0, 1, 0, [.EFT_CNT_SIGNAL_REFUSED]⟩,
  ⟨.eft, 0x50, 1, 0x0, 1, 0, [.EFT_CNT_FAULT_COMPLETIONS]⟩,
  ⟨.eft, 0x54, 1, 0x0, 1, 0, [.EFT_CNT_TICK_LATE]⟩,
  ⟨.eft, 0x58, 1, 0x0, 1, 0, [.EFT_CNT_TIMER_OVERRUN]⟩,
  ⟨.eft, 0x1000, 1, 0x0, 256, 16, [.EFT_INS_CFG_MAX_PRIO, .EFT_INS_CFG_WI_QUOTA]⟩,
  ⟨.eft, 0x1004, 1, 0x0, 256, 16, [.EFT_INS_USE]⟩,
  ⟨.eft, 0x1008, 1, 0x0, 256, 16, [.EFT_INS_WI]⟩,
  ⟨.eft, 0x2000, 1, 0x0, 64, 4, [.EFT_GROUP_CORES, .EFT_GROUP_IDLE]⟩,
  ⟨.eft, 0x100000, 1, 0x0, 65536, 32, [.EFT_TASK_CFG_STATE, .EFT_TASK_CFG_PRIORITY, .EFT_TASK_CFG_GROUP, .EFT_TASK_CFG_MODE, .EFT_TASK_CFG_PERIODIC, .EFT_TASK_CFG_DELAY_ON, .EFT_TASK_CFG_DFLAG, .EFT_TASK_CFG_CONCURRENCY]⟩,
  ⟨.eft, 0x100004, 1, 0x0, 65536, 32, [.EFT_TASK_ENTRY]⟩,
  ⟨.eft, 0x100008, 1, 0x0, 65536, 32, [.EFT_TASK_MASK]⟩,
  ⟨.eft, 0x10000c, 1, 0x0, 65536, 32, [.EFT_TASK_FLAGS]⟩,
  ⟨.eft, 0x100010, 1, 0x0, 65536, 32, [.EFT_TASK_DELAY]⟩,
  ⟨.eft, 0x100014, 1, 0x0, 65536, 32, [.EFT_TASK_BUDGET]⟩,
  ⟨.eft, 0x100018, 1, 0x0, 65536, 32, [.EFT_TASK_INFO_INSTANCE, .EFT_TASK_INFO_RUNNING]⟩,
  ⟨.eft, 0x10001c, 1, 0x0, 65536, 32, [.EFT_TASK_QUEUED]⟩]

/-- Registers of block mem. -/
def regs_mem : List RegDef := [
  ⟨.mem, 0x0, 1, 0x0, 1, 0, [.MEM_STATUS_RSVD_WRITE, .MEM_STATUS_CHANNELS]⟩,
  ⟨.mem, 0x4, 1, 0x0, 1, 0, [.MEM_CFG_SCRUB_PERIOD_H, .MEM_CFG_BK_MIN_PM]⟩,
  ⟨.mem, 0x8, 1, 0x0, 1, 0, [.MEM_RD_CFG_NR_RADIUS, .MEM_RD_CFG_NR_THRESHOLD]⟩,
  ⟨.mem, 0xc, 1, 0x0, 1, 0, [.MEM_RETIRE_CFG_LASTING_THRESHOLD, .MEM_RETIRE_CFG_ROW_CE_THRESHOLD, .MEM_RETIRE_CFG_FAULT_WINDOW_H]⟩,
  ⟨.mem, 0x10, 1, 0x0, 1, 0, [.MEM_TRAIN_CFG_TRACK_EN, .MEM_TRAIN_CFG_MARGIN_MIN, .MEM_TRAIN_CFG_DELTA_C]⟩,
  ⟨.mem, 0x14, 1, 0x0, 1, 0, [.MEM_RELIEF_UNRELIEVED, .MEM_RELIEF_RELIEF_USED]⟩,
  ⟨.mem, 0x18, 1, 0x0, 1, 0, [.MEM_PROT_CNT_REFUSED, .MEM_PROT_CNT_GEN_DROP]⟩,
  ⟨.mem, 0x40, 1, 0x0, 4, 4, [.MEM_STACK_HOT, .MEM_STACK_TEMP_C, .MEM_STACK_SPARE_ROWS]⟩,
  ⟨.mem, 0x1000, 1, 0x0, 256, 8, [.MEM_PORT_CFG_PANIC_EN, .MEM_PORT_CFG_PANIC_PM, .MEM_PORT_CFG_CALM_PM, .MEM_PORT_CFG_TARGET_US10]⟩,
  ⟨.mem, 0x1004, 1, 0x0, 256, 8, [.MEM_PORT_STAT_PANIC, .MEM_PORT_STAT_PANICS, .MEM_PORT_STAT_LATE]⟩,
  ⟨.mem, 0x2000, 1, 0x0, 128, 64, [.MEM_CH_STATUS_RETIRED, .MEM_CH_STATUS_SUSPECT, .MEM_CH_STATUS_TRAINING, .MEM_CH_STATUS_MIGRATING, .MEM_CH_STATUS_CREDITS_MIN]⟩,
  ⟨.mem, 0x2004, 1, 0x0, 128, 64, [.MEM_CH_CNT_CORRECTED]⟩,
  ⟨.mem, 0x2008, 1, 0x0, 128, 64, [.MEM_CH_CNT_TRANSIENT]⟩,
  ⟨.mem, 0x200c, 1, 0x0, 128, 64, [.MEM_CH_CNT_LASTING]⟩,
  ⟨.mem, 0x2010, 1, 0x0, 128, 64, [.MEM_CH_CNT_FORCED_REF]⟩,
  ⟨.mem, 0x2014, 1, 0x0, 128, 64, [.MEM_CH_CNT_NEIGHBOUR_REF]⟩,
  ⟨.mem, 0x2018, 1, 0x0, 128, 64, [.MEM_CH_CNT_SCRUB_FIXED]⟩,
  ⟨.mem, 0x201c, 1, 0x0, 128, 64, [.MEM_CH_CNT_ROWS_REPAIRED]⟩]

/-- Registers of block chk. -/
def regs_chk : List RegDef := [
  ⟨.chk, 0x0, 1, 0x0, 1, 0, [.CHK_STATUS_RSVD_WRITE, .CHK_STATUS_ENGINES]⟩,
  ⟨.chk, 0x4, 1, 0x0, 1, 0, [.CHK_ALIVE_CFG_ALIVE_RESYNC, .CHK_ALIVE_CFG_ALIVE_WINDOW]⟩,
  ⟨.chk, 0x8, 1, 0x0, 1, 0, [.CHK_GUARD_CNT_GUARD_REGEN_DROPPED, .CHK_GUARD_CNT_GUARD_REGEN]⟩,
  ⟨.chk, 0x1000, 1, 0x0, 128, 16, [.CHK_PORT_CNT_CRC_BAD]⟩,
  ⟨.chk, 0x1004, 1, 0x0, 128, 16, [.CHK_PORT_CNT_DIGEST_BAD]⟩,
  ⟨.chk, 0x1008, 1, 0x0, 128, 16, [.CHK_PORT_CNT_GUARD_BAD]⟩,
  ⟨.chk, 0x20000, 1, 0x0, 4096, 16, [.CHK_ALIVE_CNT_GAP]⟩,
  ⟨.chk, 0x20004, 1, 0x0, 4096, 16, [.CHK_ALIVE_CNT_REPEAT]⟩,
  ⟨.chk, 0x20008, 1, 0x0, 4096, 16, [.CHK_ALIVE_CNT_OLD]⟩,
  ⟨.chk, 0x2000c, 1, 0x0, 4096, 16, [.CHK_ALIVE_CNT_RESYNCS]⟩,
  ⟨.chk, 0x100000, 16, 0x1000, 64, 64, [.CHK_CTX_CFG_INSTANCE, .CHK_CTX_CFG_ALG, .CHK_CTX_CFG_MODE, .CHK_CTX_CFG_STATE]⟩,
  ⟨.chk, 0x100004, 16, 0x1000, 64, 64, [.CHK_CTX_CMD_GO, .CHK_CTX_CMD_OP, .CHK_CTX_CMD_NOTIFY, .CHK_CTX_CMD_FLAG, .CHK_CTX_CMD_TASK]⟩,
  ⟨.chk, 0x100008, 16, 0x1000, 64, 64, [.CHK_CTX_SRC_LO]⟩,
  ⟨.chk, 0x10000c, 16, 0x1000, 64, 64, [.CHK_CTX_SRC_HI]⟩,
  ⟨.chk, 0x100010, 16, 0x1000, 64, 64, [.CHK_CTX_LEN]⟩,
  ⟨.chk, 0x100014, 16, 0x1000, 64, 64, [.CHK_CTX_VAL_LO]⟩,
  ⟨.chk, 0x100018, 16, 0x1000, 64, 64, [.CHK_CTX_VAL_HI]⟩,
  ⟨.chk, 0x10001c, 16, 0x1000, 64, 64, [.CHK_CTX_RES_LO]⟩,
  ⟨.chk, 0x100020, 16, 0x1000, 64, 64, [.CHK_CTX_RES_HI]⟩,
  ⟨.chk, 0x100024, 16, 0x1000, 64, 64, [.CHK_CTX_BUSY_CNT]⟩]

/-- Registers of block ins. -/
def regs_ins : List RegDef := [
  ⟨.ins, 0x0, 256, 0x1000, 1, 0, [.INS_STATUS_RSVD_WRITE, .INS_STATUS_ENABLED, .INS_STATUS_RESET_BUSY, .INS_STATUS_GENERATION]⟩,
  ⟨.ins, 0x4, 256, 0x1000, 1, 0, [.INS_CTRL]⟩,
  ⟨.ins, 0x10, 256, 0x1000, 1, 0, [.INS_SHARE_CODEC_PM, .INS_SHARE_MEMBW_PM, .INS_SHARE_FLASHBW_PM]⟩,
  ⟨.ins, 0x14, 256, 0x1000, 1, 0, [.INS_CORES_CORES_NOW, .INS_CORES_CORES_MIN]⟩,
  ⟨.ins, 0x18, 256, 0x1000, 1, 0, [.INS_SLUICE]⟩,
  ⟨.ins, 0x1c, 256, 0x1000, 1, 0, [.INS_CAPACITY]⟩,
  ⟨.ins, 0x20, 256, 0x1000, 1, 0, [.INS_QUOTA_GECKO]⟩,
  ⟨.ins, 0x24, 256, 0x1000, 1, 0, [.INS_QUOTA_TASKS]⟩,
  ⟨.ins, 0x28, 256, 0x1000, 1, 0, [.INS_QUOTA_CONN]⟩,
  ⟨.ins, 0x2c, 256, 0x1000, 1, 0, [.INS_QUOTA_STREAMS]⟩,
  ⟨.ins, 0x30, 256, 0x1000, 1, 0, [.INS_IOPERM]⟩,
  ⟨.ins, 0x40, 256, 0x1000, 1, 0, [.INS_YIELD_COUNT]⟩,
  ⟨.ins, 0x44, 256, 0x1000, 1, 0, [.INS_EPOCH_USE_CODEC_USE_PM, .INS_EPOCH_USE_MEM_USE_PM, .INS_EPOCH_USE_FLASH_USE_PM]⟩,
  ⟨.ins, 0x80, 256, 0x1000, 1, 0, [.INS_MBX_STATUS_OUT_COUNT, .INS_MBX_STATUS_IN_COUNT]⟩,
  ⟨.ins, 0x84, 256, 0x1000, 1, 0, [.INS_MBX_CTRL_POP, .INS_MBX_CTRL_PUSH, .INS_MBX_CTRL_LEN, .INS_MBX_CTRL_TYPE]⟩,
  ⟨.ins, 0x400, 256, 0x1000, 256, 4, [.INS_MBX_IN]⟩,
  ⟨.ins, 0x800, 256, 0x1000, 256, 4, [.INS_MBX_OUT]⟩]

/-- Registers of block mgt. -/
def regs_mgt : List RegDef := [
  ⟨.mgt, 0x0, 1, 0x0, 1, 0, [.MGT_STATUS_RSVD_WRITE, .MGT_STATUS_LOCK_HELD, .MGT_STATUS_VERSION]⟩,
  ⟨.mgt, 0x4, 1, 0x0, 1, 0, [.MGT_CFG_UDP_EN, .MGT_CFG_PF0_EN, .MGT_CFG_UDP_PORT]⟩,
  ⟨.mgt, 0x8, 1, 0x0, 1, 0, [.MGT_NET_IPV4]⟩,
  ⟨.mgt, 0xc, 1, 0x0, 1, 0, [.MGT_NET_PREFIX]⟩,
  ⟨.mgt, 0x10, 1, 0x0, 1, 0, [.MGT_ACT_STATE, .MGT_ACT_STEP, .MGT_ACT_FW_PENDING, .MGT_ACT_FW_SLOT, .MGT_ACT_ABANDONED]⟩,
  ⟨.mgt, 0x14, 1, 0x0, 1, 0, [.MGT_FW_VERSION]⟩,
  ⟨.mgt, 0x20, 1, 0x0, 1, 0, [.MGT_CNT_BAD_MSG, .MGT_CNT_REPLAYED]⟩,
  ⟨.mgt, 0x4000, 1, 0x0, 1, 0, [.SEC_STATUS_BOOT_FAIL, .SEC_STATUS_SANITIZE_PENDING, .SEC_STATUS_MK_STATE, .SEC_STATUS_KEYSET, .SEC_STATUS_SVN_MIN]⟩,
  ⟨.mgt, 0x4100, 1, 0x0, 256, 4, [.SEC_KEY_STATE_LOADED, .SEC_KEY_STATE_STORED, .SEC_KEY_STATE_GENERATED]⟩]

/-- Registers of block avl. -/
def regs_avl : List RegDef := [
  ⟨.avl, 0x0, 1, 0x0, 1, 0, [.AVL_STATUS_RSVD_WRITE, .AVL_STATUS_POWER_STATE, .AVL_STATUS_MODE]⟩,
  ⟨.avl, 0x4, 1, 0x0, 1, 0, [.AVL_DEGRADED]⟩,
  ⟨.avl, 0x8, 1, 0x0, 1, 0, [.AVL_STANDBY_LOSS_ENTRIES, .AVL_STANDBY_LOSS_TIME_HOLDOVER, .AVL_STANDBY_LOSS_ALIVE, .AVL_STANDBY_LOSS_CHECK_CTX, .AVL_STANDBY_LOSS_GECKO, .AVL_STANDBY_LOSS_CONNECTIONS, .AVL_STANDBY_LOSS_STREAMS, .AVL_STANDBY_LOSS_CORE_STATE]⟩,
  ⟨.avl, 0xc, 1, 0x0, 1, 0, [.AVL_RESET_CAUSE_KIND, .AVL_RESET_CAUSE_CAUSE]⟩,
  ⟨.avl, 0x10, 1, 0x0, 1, 0, [.AVL_STEWARD_FAILOVERS, .AVL_STEWARD_STANDBY_OK, .AVL_STEWARD_RETIRED_PAIR, .AVL_STEWARD_ACTIVE]⟩,
  ⟨.avl, 0x14, 1, 0x0, 1, 0, [.AVL_SPARES_SPARE_CORES, .AVL_SPARES_CORES_RETIRED]⟩,
  ⟨.avl, 0x18, 1, 0x0, 1, 0, [.AVL_RETIRE_CFG_CORE_THRESHOLD, .AVL_RETIRE_CFG_CLUTCH_THRESHOLD, .AVL_RETIRE_CFG_FAULT_WINDOW_H]⟩,
  ⟨.avl, 0x1c, 1, 0x0, 1, 0, [.AVL_STOPS_COUNT, .AVL_STOPS_DATA_LOSS]⟩,
  ⟨.avl, 0x20, 1, 0x0, 1, 0, [.AVL_LIFE_HOURS, .AVL_LIFE_LIFE_PM]⟩,
  ⟨.avl, 0x4000, 1, 0x0, 1, 0, [.THM_STATUS_TJ_MAX, .THM_STATUS_STACK_MAX, .THM_STATUS_LEVEL, .THM_STATUS_ALERT, .THM_STATUS_TRIPPED]⟩,
  ⟨.avl, 0x4004, 1, 0x0, 1, 0, [.THM_CTRL_CAP_W, .THM_CTRL_LEVEL]⟩,
  ⟨.avl, 0x4008, 1, 0x0, 1, 0, [.THM_CLK_SWITCHES, .THM_CLK_REVERT, .THM_CLK_PREFER, .THM_CLK_HOLDOVER, .THM_CLK_REF1_OK, .THM_CLK_REF0_OK, .THM_CLK_ACTIVE]⟩,
  ⟨.avl, 0x400c, 1, 0x0, 1, 0, [.THM_POWER]⟩,
  ⟨.avl, 0x4100, 1, 0x0, 24, 4, [.THM_SENSOR]⟩]

/-- Registers of block core. -/
def regs_core : List RegDef := [
  ⟨.core, 0x0, 272, 0x0, 1, 0, [.CORE_ID_INSTANCE, .CORE_ID_CORE]⟩,
  ⟨.core, 0x4, 272, 0x0, 1, 0, [.CORE_STATUS_RSVD_WRITE, .CORE_STATUS_SUSPECT, .CORE_STATUS_LASTING, .CORE_STATUS_TRANSIENT, .CORE_STATUS_IN_WORK]⟩,
  ⟨.core, 0x10, 272, 0x0, 1, 0, [.CORE_EXC_EREP, .CORE_EXC_EREPI, .CORE_EXC_PSUP, .CORE_EXC_PIE, .CORE_EXC_ECAUSE]⟩,
  ⟨.core, 0x14, 272, 0x0, 1, 0, [.CORE_EPC]⟩,
  ⟨.core, 0x20, 272, 0x0, 1, 0, [.CORE_ERC]⟩,
  ⟨.core, 0x24, 272, 0x0, 1, 0, [.CORE_VBASE]⟩,
  ⟨.core, 0x18, 272, 0x0, 1, 0, [.CORE_EADDR_LO]⟩,
  ⟨.core, 0x1c, 272, 0x0, 1, 0, [.CORE_EADDR_HI]⟩,
  ⟨.core, 0x28, 272, 0x0, 1, 0, [.CORE_BUDGET]⟩,
  ⟨.core, 0x2c, 272, 0x0, 1, 0, [.CORE_XFER_ERR]⟩,
  ⟨.core, 0x40, 272, 0x0, 1, 0, [.CORE_EV_SET]⟩,
  ⟨.core, 0x100, 272, 0x0, 16, 16, [.CORE_WIN_BASE_LO]⟩,
  ⟨.core, 0x104, 272, 0x0, 16, 16, [.CORE_WIN_BASE_HI]⟩,
  ⟨.core, 0x108, 272, 0x0, 16, 16, [.CORE_WIN_LEN_W, .CORE_WIN_LEN_R, .CORE_WIN_LEN_LEN64]⟩]

/-- The registers of a block, from its chapters' register maps. -/
def Block.regs : Block → List RegDef
  | .sys => regs_sys
  | .sti => regs_sti
  | .net => regs_net
  | .cap => regs_cap
  | .cdc => regs_cdc
  | .fls => regs_fls
  | .dur => regs_dur
  | .hq => regs_hq
  | .gko => regs_gko
  | .eft => regs_eft
  | .mem => regs_mem
  | .chk => regs_chk
  | .ins => regs_ins
  | .mgt => regs_mgt
  | .avl => regs_avl
  | .core => regs_core

/-- The sticky RSVD_WRITE flag of the block or of its copy (R12). -/
def Block.rsvd : Block → Fld
  | .sys => .SYS_FABRIC_STATUS_RSVD_WRITE
  | .sti => .STI_STATUS_RSVD_WRITE
  | .net => .NET_PORT_STATUS_RSVD_WRITE
  | .cap => .CAP_STATUS_RSVD_WRITE
  | .cdc => .CDC_ENG_STATUS_RSVD_WRITE
  | .fls => .FLS_CH_STATUS_RSVD_WRITE
  | .dur => .DUR_STATUS_RSVD_WRITE
  | .hq => .HQ_STATUS_RSVD_WRITE
  | .gko => .GKO_STATUS_RSVD_WRITE
  | .eft => .EFT_STATUS_RSVD_WRITE
  | .mem => .MEM_STATUS_RSVD_WRITE
  | .chk => .CHK_STATUS_RSVD_WRITE
  | .ins => .INS_STATUS_RSVD_WRITE
  | .mgt => .MGT_STATUS_RSVD_WRITE
  | .avl => .AVL_STATUS_RSVD_WRITE
  | .core => .CORE_STATUS_RSVD_WRITE

end Sys2Proof.Machine
end

