-- ==== Sys2Proof/Machine/Types.lean ====
section
/-! DEFINITION. The records that State is made of: what the spec names of each block beside its registers (those are in
the register file). Plain data throughout. -/
namespace Sys2Proof.Machine

/-! ## Events (R416, R417) -/

/-- One event record (R416). `data` is the 16-byte DATA field. -/
structure EvRec where
  time : Nat
  eseq : Nat
  code : Nat
  sev : Nat
  inst : Nat
  data : List Byte
deriving DecidableEq, Repr

/-- The one event subscription (R417): address, port and SEVERITY_MIN. -/
structure Subscription where
  ip : Nat
  port : Nat
  sevMin : Nat
deriving DecidableEq, Repr

/-- A latched or held word of a _LO/_HI pair (R10): agent, LO field, index, word. -/
structure PairWord where
  agent : Nat
  lo : Fld
  idx : Nat
  word : Nat
deriving DecidableEq, Repr

/-! ## Flume fabric (R18–R29) -/

/-- One flume (R20, R22, R25, R26). -/
structure Flume where
  present : Bool
  cls : Nat
  inst : Nat
  stages : List (Nat × Nat)
  links : List Nat
  altLinks : List Nat
  hasAlt : Bool
  onAlt : Bool
  down : Bool
  stopped : Bool
  switchTo : Bool
deriving DecidableEq, Repr

/-- A poisoned parcel whose one repetition is still under way (R24). -/
structure PoisonedParcel where
  flume : Nat
  link : Nat
  op : FlowOp
deriving DecidableEq, Repr

/-! ## Memory controller (R338–R363) -/

/-- One region of the active image (R49, R338). `full` is the image's SIZE, which the slices follow; `size` is what is
left of it after giving up relief (R359). -/
structure Region where
  num : Nat
  kind : Nat
  inst : Nat
  stackMask : Nat
  grain : Nat
  base : Nat
  size : Nat
  full : Nat
deriving DecidableEq, Repr

/-- One bank: the refreshes it owes of its 8 credits (R347), its open row, the activate-count table and the spill count
(R348). -/
structure Bank where
  owed : Nat
  openRow : Option Nat
  table : List (Nat × Nat)
  spill : Nat
deriving DecidableEq, Repr

/-- Full retraining of a channel (R357, R358). -/
structure Retrain where
  stepsDone : Nat
  failures : Nat
  waitSince : Option Nat
deriving DecidableEq, Repr

/-- What relieves a retired channel (R359–R362): its 64 KiB blocks in the order of relief, as (region, blocks); how many
have a relief block, the i-th of them on channel `targets[(first + i) mod n]`; how many have switched; the 4 KiB steps
done of the next; lines that failed to copy. -/
structure Relief where
  chan : Nat
  readable : Bool
  order : List (Nat × Nat)
  covered : Nat
  first : Nat
  targets : List Nat
  switched : Nat
  steps : Nat
  bad : Nat
deriving DecidableEq, Repr

/-! ## Eft (R316–R337) -/

/-- One window of a work-item descriptor (R325). -/
structure Window where
  base : Nat
  len64 : Nat
  perm : Nat
deriving DecidableEq, Repr

/-- An accepted post: the descriptor's fields (R325), who posted it, the generation it carries, and whether it is the
one rerun of R330. `frame` names the stream and frame of a filter post (R92). -/
structure Post where
  notify : Bool
  rerunOk : Bool
  windows : List Window
  budget : Nat
  compAddr : Nat
  compTask : Nat
  compFlag : Nat
  arg : List Byte
  poster : Nat
  gen : Nat
  rerun : Bool
  frame : Option (Nat × Nat)
deriving DecidableEq, Repr

/-- What a task record holds beside its registers (the pending activation of R318 is its event condition, which the
registers give): queued posts, its place among ready
tasks (R327) with the time it became ready, its dispatch count, and its deadline in device time (R322, R324). -/
structure Task where
  posts : List Post
  readyOrd : Option Nat
  readyAt : Nat
  seq : Nat
  deadline : Option Nat
deriving DecidableEq, Repr

/-- A running work item (R328, R329). -/
structure WorkItem where
  task : Nat
  inst : Nat
  fired : Nat
  seq : Nat
  post : Option Post
  gen : Nat
deriving DecidableEq, Repr

/-- A loader segment (R335). -/
structure Segment where
  kind : Nat
  addr : Nat
  len : Nat
  bytes : List Byte
deriving DecidableEq, Repr

/-- The load record of a program (R335, R336): its tasks, the groups it was loaded for, its segments, where its blob
lies, the tasks whose delay starts by itself, and whether it is being unloaded. -/
structure Program where
  inst : Nat
  id : Nat
  name : List Byte
  tasks : List Nat
  groups : List Nat
  segs : List Segment
  blobBase : Nat
  blobLen : Nat
  autostart : List Nat
  unloading : Bool
deriving DecidableEq, Repr

/-! ## Cores (R280–R315) -/

/-- A wait of WFE or WAITT (R303): the destination register and WAITT's deadline. -/
structure WaitState where
  rd : Nat
  deadline : Option Nat
deriving DecidableEq, Repr

/-- A running transfer (R294). -/
structure Xfer where
  idx : Nat
  dst : Nat
  src : Nat
  len : Nat
deriving DecidableEq, Repr

/-- One Pypoiz core (R280, R285, R286, R294, R303, R307, R310). `ending` is the completion value of an
ENDW that waits for running transfers (R314). Registers and memories are sparse and read 0 where
nothing is listed. -/
structure PCore where
  g : AMap W64
  v : AMap W256
  p : BitVec 8
  lr : W32
  rc : BitVec 16
  ev : W32
  evm : W32
  st : W64
  pc : W32
  imem : AMap Byte
  dmem : AMap Byte
  wait : Option WaitState
  xfers : List Xfer
  ending : Option (List Byte)
  stopped : Bool
  halted : Bool
  wi : Option WorkItem
  lastInst : Nat
  group : Option Nat
  assigned : Bool
  retired : Bool
  lastingAt : List Nat
deriving DecidableEq, Repr

/-! ## Gecko (R259–R279) -/

/-- One entry with its state bits and its parity bit over V, C and RESULT. -/
structure GEntry where
  v : W128
  c : W128
  res : W32
  valid : Bool
  shadow : Bool
  parity : Bool
  disabled : Bool
deriving DecidableEq, Repr

/-- An open step-through handle (R273, R274). -/
structure Handle where
  part : Nat
  key : W128
  mask : W128
  last : Nat
  at_ : Nat
  expired : Bool
deriving DecidableEq, Repr

/-- A partition move under way (R275). -/
structure PartMove where
  part : Nat
  oldFirst : Nat
  newFirst : Nat
deriving DecidableEq, Repr

/-- An update whose GO was taken and which waits for a handle or a partition move (R270, R274, R275). -/
structure HeldUpdate where
  ctx : Nat
  op : Nat
  part : Nat
  pos : Nat
  v : W128
  c : W128
  res : W32
deriving DecidableEq, Repr

/-! ## Check engines and alive counters (R370–R384) -/

/-- Alive state of a stream (R370, R371): A, the values up to A seen within the window, the run of ascending too-old
packets, and whether a first packet has come. -/
structure Alive where
  started : Bool
  a : Nat
  seen : List Nat
  runLen : Nat
  runLast : Nat
deriving DecidableEq, Repr

/-- A FEED under way (R381): the running value held at its GO. -/
structure Feed where
  saved : Nat
  src : Nat
  len : Nat
  notify : Bool
  flag : Nat
  task : Nat
  inst : Nat
  gen : Nat
deriving DecidableEq, Repr

/-! ## Policy and messages -/

/-- The policy keys in force (R57's table Policy keys). -/
structure Policy where
  tickNs : Nat
  ringAutosize : Nat
  gcFloor : Nat
  throttleAutonomy : Nat
deriving DecidableEq, Repr

/-- What the device sends or answers. -/
inductive Out
  /-- A register read returned a word to an agent. -/
  | word (agent : Nat) (addr value : Nat)
  /-- A memory read returns to its port: whether it is poisoned, and its bytes. -/
  | memRead (port agent : Nat) (poisoned : Bool) (bytes : List Byte)
  /-- An EVENT message (R417). -/
  | eventMsg (ip port : Nat) (recs : List EvRec)
  /-- A KFSP control message (R70). -/
  | kfsp (port : Nat) (dst : NetAddr) (msg : List Byte)
  /-- An Ethernet frame forwarded or mirrored (R262). -/
  | frame (port : Nat) (bytes : List Byte)
  /-- A frame or packet handed on: to an instance, or to the steward (R262). -/
  | deliver (inst : Nat) (steward : Bool) (bytes : List Byte)
  /-- The answer to a Connect that made no queue: connection, command identifier, status code type, status code. -/
  | connectFail (conn cid sct sc : Nat)
  /-- A TCP reset (R228). -/
  | tcpReset (port : Nat) (peer : NetAddr)
  /-- A connection closed by the device. -/
  | tcpClose (conn : Nat)
  /-- ICResp: CPDA, digests granted, MAXH2CDATA (R225). -/
  | icResp (conn cpda : Nat) (hdgst ddgst : Bool) (maxh2c : Nat)
  /-- C2HTermReq with its FES (R226). -/
  | termReq (conn fes : Nat)
  /-- R2T for a range of a write (R246). -/
  | r2t (conn cid off len : Nat)
  /-- A PCIe read of write data into reserved slots (R246). -/
  | dmaRead (queue cid off len : Nat)
  /-- Data to the host. -/
  | c2h (queue cid : Nat) (bytes : List Byte)
  /-- A completion: status code type, status code, DNR, DW0, DW1. -/
  | cqe (queue cid sct sc : Nat) (dnr : Bool) (dw0 dw1 : Nat)
  /-- A management message (R409). -/
  | mgmt (via : Via) (msg : List Byte)
  /-- Text on the UART console (R428): the number of the cause. -/
  | uart (cause : Nat)
  /-- A level or pulse driven on an output; the number names the output group. -/
  | pin (group index : Nat) (level : Bool)
deriving DecidableEq, Repr

end Sys2Proof.Machine
end

