-- ==== Sys2Proof/Machine/PathTypes.lean ====
section
/-! DEFINITION. The records of the data path: image, capture, codec, flash, durability, host service, instances. Plain
data throughout. -/
namespace Sys2Proof.Machine

/-! ## Structure image (R42–R56) -/

/-- One section of an image: its offset, its records as bytes, its trailer and its SECTION_TAG. -/
structure Section where
  type : Nat
  off : Nat
  recs : List (List Byte)
  trailer : List Byte
  tag : List Byte
deriving DecidableEq, Repr

/-- An accepted image, with the bytes it came from. -/
structure Image where
  major : Nat
  minor : Nat
  serial : Nat
  secs : List Section
  raw : List Byte
deriving DecidableEq, Repr

/-! ## Capture (R67–R109) -/

/-- A KFSP session (R74–R76): who opened it, what was granted, the HELLO and the OPENs answered so far. -/
structure Session where
  id : Nat
  port : Nat
  src : NetAddr
  ver : Nat
  opts : Nat
  replayKib : Nat
  helloSeq : Nat
  opens : List (Nat × List Byte)
deriving DecidableEq, Repr

/-- A frame held in a ring slot: the fields of its descriptor (R88) and what its assembly, verdict and drain need.
`age` orders allocations; `placed` lists the packet indices placed while filling; `repair` is the start of repair and
the NAKs sent; `pendingVerdict` is set while a posted filter has not answered (R94); `queued` while it stands in the
drain queue; `dropped` after a drop verdict. -/
structure Frame where
  id : Nat
  age : Nat
  slot : Nat
  state : Nat
  num : Nat
  time : Nat
  rx : Nat
  expected : Nat
  missing : Nat
  tag : Nat
  window : Option Nat
  sig : Nat
  flags : Nat
  verdict : Nat
  incReason : Nat
  placed : List Nat
  repair : Option (Nat × Nat)
  commitAt : Nat
  pendingVerdict : Bool
  queued : Bool
  dropped : Bool
  cseq : Option Nat
deriving DecidableEq, Repr

/-- A bound stream, or one that is unbound and still holds frozen frames (R67–R87). `slots` are those its ring has now,
`target` those R85 gives it. `paused` is the cause of R104. -/
structure Stream where
  bound : Bool
  session : Nat
  port : Nat
  src : NetAddr
  raw : Bool
  width : Nat
  height : Nat
  pixfmt : Nat
  bytes : Nat
  rate : Nat
  unit : Nat
  repairUs : Nat
  nak : Bool
  region : Nat
  base : Nat
  slots : Nat
  target : Nat
  h : Option Nat
  done : List Nat
  frames : List Frame
  firstTime : Option Nat
  lastTraffic : Nat
  idle : Bool
  full : Bool
  refused : Nat
  nsid : Nat
  standing : Option Nat
  paused : Option Nat
  thumbBase : Nat
  thumbLen : Nat
  thumbNext : Nat
deriving DecidableEq, Repr

/-- A trigger window (R95–R103): members whose part has not ended, frames frozen and not yet drained, frames excluded,
and the Freeze Window commands that wait for the drain. A standing window of R101 has no group. -/
structure TrigWindow where
  id : Nat
  group : Option Nat
  t : Nat
  start : Nat
  stop : Nat
  members : List Nat
  open_ : List Nat
  closed : Bool
  frozen : Nat
  left : Nat
  excluded : Nat
  reported : Bool
  waiting : List Nat
deriving DecidableEq, Repr

/-- An open query handle (R108): its owner, the positions still to return, and the time of its last step. -/
structure QueryHandle where
  inst : Nat
  left : List Nat
  at_ : Nat
deriving DecidableEq, Repr

/-- A stamped trigger edge whose debounce runs (R96, R472). -/
structure Edge where
  pin : Nat
  t : Nat
  until_ : Nat
  groups : Nat
deriving DecidableEq, Repr

/-! ## Codec (R110–R146) -/

/-- What a job is for. `drain` and the others name the durable transaction or the host command that waits for it. -/
inductive JobPurpose
  | program
  | drain (stream frame : Nat)
  | hostWrite (cseq nsid granule : Nat)
  | serve (handle block : Nat)
deriving DecidableEq, Repr

/-- A job of an internal queue that has not started: its queue slot, its descriptor, its owner with generation, and its
source bytes where they do not lie at SRC. -/
structure Job where
  queue : Nat
  desc : List Byte
  inst : Nat
  gen : Nat
  purpose : JobPurpose
  src : Option (List Byte)
deriving DecidableEq, Repr

/-- A running job: also whether it is resumable (R140) and whether it was begun again by an engine reset (R145). -/
structure Running where
  job : Job
  resumable : Bool
  rerun : Bool
deriving DecidableEq, Repr

/-- A saved context (R140–R142): the fields a resume repeats, the source position and the bytes of the block in
progress with how much of it was already produced. -/
structure CodecCtx where
  inst : Nat
  op : Nat
  mode : Nat
  raster : Bool
  pixfmt : Nat
  width : Nat
  height : Nat
  src : Nat
  srcLen : Nat
  firstIndex : Nat
  unitsDone : Nat
  head : List Byte
  skip : Nat
deriving DecidableEq, Repr

/-! ## Flash (R147–R188) -/

/-- One die (R149, R170–R176, R187, R188). -/
structure Die where
  info : DieInfo
  retired : Bool
  suspect : Bool
  profile : Option Nat
  remap : List (Nat × Nat)
  retiredBlocks : List Nat
  suspectBlocks : List Nat
  lastingAt : List Nat
  colmap : List (Nat × Nat × Nat)
  offsets : AMap Nat
  spread : AMap Nat
  ups : AMap Nat
  downs : AMap Nat
  hist : AMap (List Bool)
  suspended : Bool
deriving DecidableEq, Repr

/-- A program or erase that runs on a die (R162): which one, since when it has run or run on, how often it was suspended,
and reads served in the present suspension. -/
structure DieRun where
  op : Nat
  since : Nat
  count : Nat
  served : Nat
deriving DecidableEq, Repr

/-- A map entry (R189) with its namespace. -/
structure MapEntry where
  nsid : Nat
  loff : Nat
  ulen : Nat
  slen : Nat
  overlay : Bool
  sb : Nat
  w : Nat
  off : Nat
deriving DecidableEq, Repr

/-- One block of a stripe's summary (R195): the entry, the CSEQ of its transaction, its key slot, and whether it is a
dumped slot (R210). -/
structure StripeBlock where
  entry : MapEntry
  cseq : Nat
  key : Nat
  bytes : List Byte
deriving DecidableEq, Repr

/-- One stripe (R154–R156): page set `w` of its superblock. `tweaks` gives the XTS data-unit number of each data codeword
used. `units` lists the members whose unit has reported success; `retried` the member whose first failure moved the stripe; `failed` the members whose unit is not readable. -/
structure Stripe where
  id : Nat
  seq : Nat
  sb : Nat
  w : Nat
  members : List Nat
  blocks : List StripeBlock
  used : Nat
  tweaks : AMap (Nat × Nat)
  dump : Bool
  issued : Bool
  programmed : Bool
  retried : Option Nat
  units : List Nat
  failed : List Nat
deriving DecidableEq, Repr

/-- An encoded block that waits in flash staging for its place in a stripe. A copy made by garbage collection keeps the
key slots and TWEAK values of its codewords and its place in the first of them (R159). -/
structure Staged where
  block : StripeBlock
  gc : Bool
  keep : List (Nat × Nat)
  at_ : Nat
deriving DecidableEq, Repr

/-- A superblock's record (R194). STATE: 0 free, 1 open, 2 closed, 3 reserve, 4 erasing. -/
structure Superblock where
  state : Nat
  members : List Nat
  baseSeq : Nat
  next : Nat
  erases : Nat
  closedAt : Nat
  relocate : Bool
deriving DecidableEq, Repr

/-- What a carrier holds beside its register: its record, the pending level of CPRES with the time of its change, its
channels waiting for the training of its power-up, and the units still to rebuild with those done. -/
structure Carrier where
  record : Option CarrierRec
  level : Bool
  changedAt : Nat
  since : Nat
  left : Nat
  total : Nat
  cancelled : Bool
deriving DecidableEq, Repr

/-- A channel's training (R177, R178): waiting causes and whether one repetition has been used. -/
structure Train where
  waiting : Bool
  deferrable : Bool
  repeated : Bool
  lastAt : Nat
  lastTemp : Nat
deriving DecidableEq, Repr

/-! ## Durability (R189–R224) -/

/-- A durable change that takes a CSEQ (R199). -/
inductive TxnKind
  | write (handle nsid : Nat) (slots : List Nat)
  | frame (stream frame nsid blocks stored : Nat)
  | dealloc (handle nsid first last : Nat)
  | relocate (old : MapEntry)
  | superblock (sb state : Nat)
  | retire (kind number : Nat)
deriving DecidableEq, Repr

/-- A transaction (R199, R200): the parts of a host write whose compress job is still to be posted (namespace, first
granule, and whether the part is a whole 16-granule span), the stripes that hold its blocks by their model number, the
jobs under way, and how far it is: 0 blocks under way, 1 its record may be written, 2 its record is in a page, 3 to be
abandoned with an ABORT record. -/
structure Txn where
  cseq : Nat
  inst : Nat
  gen : Nat
  kind : TxnKind
  parts : List (Nat × Nat × Bool)
  stripes : List Nat
  todo : Nat
  stage : Nat
deriving DecidableEq, Repr

/-- A journal record (R201's table), by TYPE with its CSEQ and what its body says. -/
inductive JRec
  | commit (cseq inst : Nat) (stripes : List Nat) (catalog : List Byte)
  | relocate (cseq : Nat) (old : MapEntry) (stripe : Nat)
  | dealloc (cseq nsid first last : Nat)
  | superblock (cseq sb state : Nat) (members : List Nat) (baseSeq : Nat)
  | checkpoint (cseq : Nat)
  | holdupEnd (cseq bytes highest : Nat)
  | tweakReserve (cseq key highest : Nat)
  | abort (cseq : Nat)
  | retire (cseq kind number : Nat)
deriving DecidableEq, Repr

/-- A journal page under way (R200, R201): its die pair, its records and the time of the first. -/
structure JPage where
  pair : Nat
  recs : List JRec
  firstAt : Nat
deriving DecidableEq, Repr

/-- A live slot of the protected write buffer (R196): its namespace and granule, its bytes, the write that took it, its
CSEQ once acknowledged. `copies` says which copies hold it: 1 A, 2 B, 3 both. -/
structure Slot where
  nsid : Nat
  granule : Nat
  bytes : List Byte
  handle : Nat
  cseq : Option Nat
  copies : Nat
deriving DecidableEq, Repr

/-- A dumped slot on flash (R210). -/
structure DumpSlot where
  cseq : Nat
  nsid : Nat
  granule : Nat
  bytes : List Byte
  ok : Bool
deriving DecidableEq, Repr

/-- A namespace (R192, R232, R235): kind 0 block, 1 frame, 2 frame view; a companion or catalog namespace is hidden. -/
structure Namespace where
  inst : Nat
  kind : Nat
  lbaf : Nat
  sizeLbas : Nat
  pack : Bool
  guardSrc : Nat
  piType : Nat
  view : Nat
  append : Nat
deriving DecidableEq, Repr

/-! ## Host service (R225–R258) -/

/-- A TCP connection (R225–R228). `ready` after ICResp; `ctrl` after Connect. -/
structure Conn where
  port : Nat
  peer : NetAddr
  inst : Nat
  ready : Bool
  hdgst : Bool
  ddgst : Bool
  maxr2t : Nat
  disc : Bool
  ctrl : Option Nat
  qid : Nat
deriving DecidableEq, Repr

/-- A controller (R229, R231): dynamic over TCP, or a PCIe function's. `aers` are the identifiers of the outstanding
Asynchronous Event Requests, `notices` the notices that wait for one; `cc` is Controller Configuration; `shutdown` is
CSTS.SHST; `arb` and `aecfg` are the Arbitration and Asynchronous Event Configuration features; `nq` the I/O queues
granted; `disc` a discovery controller. -/
structure Ctrl where
  inst : Nat
  pf : Option Nat
  kato : Nat
  lastAdmin : Nat
  aers : List Nat
  notices : List Nat
  host : List Byte
  cc : Nat
  ready : Bool
  shutdown : Nat
  arb : Nat
  aecfg : Nat
  nq : Nat
  disc : Bool
deriving DecidableEq, Repr

/-- A submission queue: of a TCP connection or a PCIe queue pair. Class 0 urgent, 1 high, 2 medium, 3 low; admin queues
have qid 0. `clsNext` is the class from the next arbitration round (R243). -/
structure HQueue where
  ctrl : Nat
  qid : Nat
  conn : Option Nat
  cls : Nat
  clsNext : Nat
  size : Nat
  cq : Nat
deriving DecidableEq, Repr

/-- One stored block that a read needs (R249): its entry, its stripe by model number, the codewords (member, number) that
carry it and still have to be read, the read statuses so far, whether its decompression is under way, and its bytes. -/
structure BlockRead where
  entry : MapEntry
  stripe : Nat
  need : List (Nat × Nat)
  got : List Nat
  posted : Bool
  data : Option (List Byte)
deriving DecidableEq, Repr

/-- Where a granule of a read comes from (R249): a slot's bytes are copied when the read resolves. -/
inductive GSource
  | zeros
  | slot (bytes : List Byte)
  | blocks (es : List MapEntry)
deriving DecidableEq, Repr

/-- A host command (R241–R251): its queue, its 64-byte entry, the data it has received of those it wants, its arrival
instant, and its stage: 0 waiting, 1 admitted, 2 released, 3 resolved or acknowledged. `asked` says that its data have been
asked for; a write holds its `slots`; a read holds the byte range that it reads (namespace, first byte, bytes), where each
granule comes from, the blocks it needs, bytes that go before the data, and the byte ranges
written since it resolved. -/
structure HCmd where
  handle : Nat
  queue : Nat
  ctrl : Nat
  inst : Nat
  gen : Nat
  sqe : List Byte
  data : List Byte
  want : Nat
  asked : Bool
  arrival : Nat
  stage : Nat
  silent : Bool
  slots : List Nat
  span : Nat × Nat × Nat
  sources : List (Nat × Nat × GSource)
  reads : List BlockRead
  head : List Byte
  newer : List (Nat × Nat)
  held : Bool
deriving DecidableEq, Repr

/-- A reservation of a namespace (R237): registered keys by host, and the holder. -/
structure Reservation where
  gen : Nat
  regs : List (List Byte × Nat)
  holder : Option (List Byte)
deriving DecidableEq, Repr

/-! ## Instances (R385–R405) -/

/-- A share or quota write that waits for the next epoch (R391). -/
structure ShareWrite where
  inst : Nat
  fld : Fld
  value : Nat
deriving DecidableEq, Repr

/-! ## Boot flash, fuses, management (R38–R41, R406–R432) -/

/-- A key set (R426): its ECDSA P-384 and ML-DSA-87 public keys. -/
structure KeySet where
  ecdsa : List Byte
  mldsa : List Byte
deriving DecidableEq, Repr

/-- The fuses (R426, R427): key-set hashes with USE and REVOKE, the device unique key and the MAC address. The SVN minimum
is SEC_STATUS.SVN_MIN. -/
structure Fuses where
  hashes : List (List Byte)
  use : List Nat
  revoked : List Bool
  duk : List Byte
  mac : Nat
deriving DecidableEq, Repr

/-- The boot flash (the table Boot flash layout), apart from the NQN area and the persistent log, which stand with the host
service and the events: structure and firmware slots A and B, the boot-slot pointers, the recorded KIND of R39, the key-set
area, the key area (the wrapped MK with its MODE, wrapped instance keys, and those that KEY_GENERATE made), and the
service-life record in units of 2^-64 hours. -/
structure BootFlash where
  loader : List Byte
  structA : List Byte
  structB : List Byte
  fwA : List Byte
  fwB : List Byte
  ptrStruct : Nat
  ptrFw : Nat
  kind : Option Nat
  keySets : List KeySet
  mkWrapped : Option (List Byte)
  mkMode : Nat
  keys : AMap (List Byte)
  generated : List Nat
  life : Nat
deriving DecidableEq, Repr

/-- A long operation (R410): its TYPE, STATE 0 running or 1 ended, final status, step and cause, and the data of its response. -/
structure LongOp where
  id : Nat
  type : Nat
  state : Nat
  status : Nat
  step : Nat
  cause : Nat
  data : List Byte
deriving DecidableEq, Repr

/-- An entry to Maintenance or Standby, or an exit, that waits for what its step names (R436, R443). Steps: 1 windows still
drain or commands still run, 2 work items or codec jobs still run, 3 slots are still dirty. `streams` and `alive` say that
streams were bound and alive state was held at the request. -/
structure Entry where
  standby : Bool
  op : Nat
  step : Nat
  streams : Bool
  alive : Bool
deriving DecidableEq, Repr

/-- A firmware activation whose switch has closed admission (R256, R422): its operation, its slot and image, and the length of
the structure image that follows (KIND 2). Admission closed at `hq.heldAt`. -/
structure FwHold where
  op : Nat
  slot : Nat
  image : List Byte
  also : Option Nat
deriving DecidableEq, Repr

/-- A journaled sanitize (R432): of the device, or of an instance; the instance it is at, its operation, and its first step
not completed: 1 to 4 of the instance, 5 the device's own. -/
structure Sanitize where
  device : Bool
  inst : Nat
  op : Nat
  step : Nat
deriving DecidableEq, Repr

end Sys2Proof.Machine
end

