-- ==== Sys2Proof/Machine/State.lean ====
section
/-! DEFINITION. The state of the KD-512: the register file, device memory and what each block holds beside its
registers; the queue of waiting commands; the reasons a step can stop; and the state after reset. -/
namespace Sys2Proof.Machine

/-- Time, control network and fabric. -/
structure SysSt where
  acc : Nat
  inc : Nat
  pairs : List PairWord
  held : List PairWord
  flumes : AMap Flume
  retiredLinks : List Nat
  suspectLinks : List Nat
  linkLasting : AMap Nat
  poisoned : List PoisonedParcel
  gpioPins : Nat
deriving DecidableEq, Repr

/-- Event queue and logs (R416, R417, R487). `seen` holds, per (event, item), the second of its last raising; `counts`
holds counted events until the second ends. -/
structure EvSt where
  queue : List EvRec
  next : Nat
  alwaysOn : List EvRec
  uncopied : Nat
  lost : Nat
  plog : List EvRec
  plogPos : Nat
  sub : Option Subscription
  seen : AMap Nat
  counts : AMap (Nat × Nat)
deriving DecidableEq, Repr

/-- Memory controller (R338–R363). `poison` lists lines in the poison code; `lost` the channels whose lines a retirement
lost, or the blocks of a channel whose relief lay on one (R360); `healed` the lines written since; `rowFixes` the times of a
row's corrected scrub passes by row, bank and pseudo-channel; `spares` the spare rows used, by bank. -/
structure MemSt where
  regions : List Region
  poison : List Nat
  lost : List (Nat × Option Nat)
  healed : List Nat
  relief : List Relief
  reliefNext : Nat
  banks : AMap Bank
  retrain : AMap Retrain
  trainTemp : AMap Nat
  rowFixes : AMap (List Nat)
  spares : AMap Nat
  lastingAt : AMap (List Nat)
  scrubPos : Nat
deriving DecidableEq, Repr

/-- Eft. -/
structure EftSt where
  tasks : AMap Task
  ord : Nat
  lastGroup : Nat
  pool : Nat
  programs : List Program
  groups : AMap Nat
  stopped : Bool
deriving DecidableEq, Repr

/-- Cores and clutch memories. -/
structure CoreSt where
  cores : AMap PCore
  clutchI : AMap (AMap Byte)
  clutchD : AMap (AMap Byte)
deriving DecidableEq, Repr

/-- Gecko. -/
structure GkSt where
  entries : AMap GEntry
  handles : AMap Handle
  updates : List HeldUpdate
  moves : List PartMove
  sparesUsed : AMap Nat
  copy : AMap GEntry
deriving DecidableEq, Repr

/-- Check units. -/
structure ChkSt where
  operand : AMap Nat
  feeds : AMap Feed
  alive : AMap Alive
  lastingAt : AMap (List Nat)
deriving DecidableEq, Repr

/-- Structure image: the active one (R41). -/
structure ImgSt where
  active : Option Image
deriving DecidableEq, Repr

/-- Capture (R67–R109). `lastT` holds, per trigger group, one more than the instant of its last accepted trigger;
`pulses`, per trigger output, the time its pulse ends; `tokens`, per sluice, its tokens in eightieths of a byte. -/
structure CapSt where
  sessions : List Session
  nextSession : Nat
  streams : AMap Stream
  windows : List TrigWindow
  lastT : AMap Nat
  edges : List Edge
  pulses : AMap Nat
  lastSecond : Nat
  queue : List (Nat × Nat)
  nextFrame : Nat
  catalog : AMap (List (List Byte))
  handles : AMap QueryHandle
  nextHandle : Nat
  tokens : AMap Nat
  lastRefill : Nat
deriving DecidableEq, Repr

/-- Codec (R110–R146): jobs of internal queues by queue × 1024 + slot, running jobs by engine, saved contexts by slot. -/
structure CdcSt where
  jobs : AMap Job
  engines : AMap Running
  ctxs : AMap CodecCtx
  lastingAt : AMap (List Nat)
  fullEpisode : List Nat
deriving DecidableEq, Repr

/-- Flash (R147–R188): dies by channel × 32 + die. -/
structure FlsSt where
  dies : AMap Die
  carriers : AMap Carrier
  train : AMap Train
  training : Option Nat
  stripes : List Stripe
  staged : List Staged
  nextStripe : Nat
  sbs : AMap Superblock
  seqNext : Nat
  deviceTag : Nat
  savedLevels : AMap (AMap Nat × AMap Nat)
  savedAt : Nat
  lastingAt : AMap (List Nat)
  unavailable : Nat
  runs : AMap DieRun
deriving DecidableEq, Repr

/-- What a checkpoint holds (R205): the map, the superblock table, the TWEAK reserves, the namespaces' append points, and
the CSEQ it stands at. -/
structure Ckpt where
  map : List MapEntry
  sbs : AMap Superblock
  reserves : AMap Nat
  appends : AMap Nat
  cseq : Nat
deriving DecidableEq, Repr

/-- Durability (R189–R224). -/
structure DurSt where
  map : List MapEntry
  txns : List Txn
  cseqNext : Nat
  slots : AMap Slot
  slotCount : Nat
  page : Option JPage
  flight : List JPage
  pairNext : Nat
  journal : List (List JRec)
  journalBytes : Nat
  ckpt : Ckpt
  ckptAt : Nat
  tweak : AMap Nat
  reserves : AMap Nat
  progTimes : List (Nat × Nat)
  dump : List DumpSlot
  dumpEnd : Bool
  lowSpace : Bool
  exhausted : List Nat
  scrubbed : Nat
  gcBytes : Nat
deriving DecidableEq, Repr

/-- Host service (R225–R258). `turn` holds the arbiter's round robin: when a queue (2^40 + queue) or a controller
(2^41 + controller) was served last, what a class used in its round (2^42 + controller × 4 + class), the queue of the current
burst plus 1 (key 0), what is left of the burst (key 1) and the turns taken (key 2). PCIe completion queues are kept by controller × 1024 + identifier, with their size. -/
structure HqSt where
  conns : AMap Conn
  nextConn : Nat
  ctrls : AMap Ctrl
  nextCtrl : Nat
  queues : AMap HQueue
  cqs : AMap Nat
  nextQueue : Nat
  cmds : List HCmd
  nextCmd : Nat
  ns : AMap Namespace
  resv : AMap Reservation
  nqns : AMap (List Byte)
  turn : AMap Nat
  heldAt : Option Nat
  changedNs : AMap (List Nat)
deriving DecidableEq, Repr

/-- Shares (R386–R391): what each instance used in the epoch and served beyond credit, by kind × 256 + instance (kind 0
codec, 1 memory, 2 flash, 3 admission), and writes that wait for the next epoch; `secUse` sums the use of the second under way, `lastUse` holds that of
the last one in per mille of capacity. -/
structure ShareSt where
  used : AMap Nat
  extra : AMap Nat
  waiting : List ShareWrite
  epoch : Nat
  secUse : AMap Nat
  lastUse : AMap Nat
  second : Nat
deriving DecidableEq, Repr

/-- Mailboxes and instance resets (R396–R403): messages oldest first; sequence numbers used so far. -/
structure InsSt where
  inbox : AMap (List (List Byte))
  outbox : AMap (List (List Byte))
  inSeq : AMap Nat
  outSeq : AMap Nat
deriving DecidableEq, Repr

/-- Management (R406–R432): the XTS keys loaded, by slot; whether the steward runs; boot flash and fuses; the staging
buffers; the last 16 responses by SEQ; the last 64 long operations; the lock with its TAG and end; MK while it is known;
what waits; the response buffer of BAR2. -/
structure MgtSt where
  slots : AMap (List Byte)
  up : Bool
  boot : BootFlash
  fuses : Fuses
  stageFw : AMap Byte
  stageStruct : AMap Byte
  stageProg : AMap Byte
  replay : List (Nat × List Byte)
  ops : List LongOp
  nextOp : Nat
  lock : Option (Nat × Nat)
  mgrKey : Option (List Byte)
  entry : Option Entry
  hold : Option FwHold
  sanitize : List Sanitize
  mbxResp : List Byte
  mbxReady : Bool
deriving DecidableEq, Repr

/-- Availability and electrical (R433–R478): steward pairs in service; service life in units of 2^-64 hours, with the
hours since its last save; ports that were up when a reset the manager did not ask for began, and when, where device
time goes on; the owners of windows that a hold-up lost; the power-fail input and the
trip's hold; the thermal level by temperature, the level that the power cap asks for and since when the power has stayed
below its release; references lost and not yet valid again for 1 s; carrier slots that have been ONLINE; the TAP instruction; the
ball MGT_MODE at reset release. -/
structure AvlSt where
  pair0 : Bool
  pair1 : Bool
  life : Nat
  lifeSaved : Nat
  stoppedPorts : List Nat
  lostAt : Option Nat
  lostWindows : List Nat
  powerFail : Bool
  tripHold : Bool
  thermal : Nat
  capped : Bool
  capBelow : Option Nat
  refLost : List Nat
  everOnline : List Nat
  tap : Nat
  mgtMode : Bool
deriving DecidableEq, Repr

/-- The device: everything but the queue of commands. `free` counts the values drawn so far where the spec leaves a
value open; it is the model's own field, not the spec's. `out` lists what the device has sent, oldest first. -/
structure Dev where
  regs : AMap Nat
  ram : List Host.Cell
  sys : SysSt
  pol : Policy
  ev : EvSt
  mem : MemSt
  eft : EftSt
  cor : CoreSt
  gk : GkSt
  chk : ChkSt
  img : ImgSt
  cap : CapSt
  cdc : CdcSt
  fls : FlsSt
  dur : DurSt
  hq : HqSt
  shr : ShareSt
  ins : InsSt
  mgt : MgtSt
  avl : AvlSt
  out : List Out
  free : Nat
deriving DecidableEq, Repr

/-- The machine: the device and the commands that wait, first in, first out. -/
structure State where
  pending : List Instr
  dev : Dev
deriving DecidableEq, Repr

/-! ## Stops -/

/-- Why a step faults. No command of this block does: where the spec turns a command away, the event, the status or the
code that it answers with is the command's effect. -/
inductive Fault
deriving DecidableEq, Repr

/-- Why a step refuses. -/
inductive Refusal
  /-- A command whose meaning is not written yet; none is left. Safe: nothing is claimed of such a command. -/
  | notModelled (mnemonic : String)
deriving DecidableEq, Repr

/-! ## Reset (spec/15_availability.md, State kept, column P)

State.reset is the device with its supplies within limits and PWR_ON_RST_N still low: the command POWER_ON_RESET is its
release. What an integrator or Lenwalor puts into fuses, boot flash and flash media is not there yet (notes/assumptions/15). -/

/-- Nominal increment of the device time counter for each control-clock cycle, in units of 2^-32 ns (R33). -/
def incNominal : Nat := 5726623061

/-- Time, control network and fabric at reset. -/
def SysSt.blank : SysSt := ⟨0, incNominal, [], [], [], [], [], [], [], 0⟩
/-- Policy keys at their defaults (R57). -/
def Policy.blank : Policy := ⟨1000, 1, 50, 1⟩
/-- Event queue and logs at power-on. -/
def EvSt.blank : EvSt := ⟨[], 0, [], 0, 0, [], 0, none, [], []⟩
/-- Memory controller at reset. -/
def MemSt.blank : MemSt := ⟨[], [], [], [], [], 0, [], [], [], [], [], [], 0⟩
/-- Eft at reset. -/
def EftSt.blank : EftSt := ⟨[], 0, 0, 0, [], [], false⟩
/-- Cores at reset. -/
def CoreSt.blank : CoreSt := ⟨[], [], []⟩
/-- Gecko at reset. -/
def GkSt.blank : GkSt := ⟨[], [], [], [], [], []⟩
/-- Check units at reset. -/
def ChkSt.blank : ChkSt := ⟨[], [], [], []⟩
/-- Capture at reset. -/
def CapSt.blank : CapSt := ⟨[], 0, [], [], [], [], [], 0, [], 0, [], [], 1, [], 0⟩
/-- Codec at reset. -/
def CdcSt.blank : CdcSt := ⟨[], [], [], [], []⟩
/-- Flash at reset: no dies found, no carriers. -/
def FlsSt.blank : FlsSt := ⟨[], [], [], none, [], [], 0, [], 0, 0, [], 0, [], 0, []⟩
/-- Durability at reset: an empty map and an empty journal. -/
def DurSt.blank : DurSt :=
  ⟨[], [], 0, [], 0, none, [], 0, [], 0, ⟨[], [], [], [], 0⟩, 0, [], [], [], [], false, false, [], 0, 0⟩
/-- Host service at reset: controllers over TCP are numbered from 64, after the physical functions. -/
def HqSt.blank : HqSt := ⟨[], 0, [], 64, [], [], 0, [], 0, [], [], [], [], none, []⟩
/-- Shares at reset. -/
def ShareSt.blank : ShareSt := ⟨[], [], [], 0, [], [], 0⟩
/-- Mailboxes at reset. -/
def InsSt.blank : InsSt := ⟨[], [], [], []⟩
/-- Boot flash as delivered: blank. -/
def BootFlash.blank : BootFlash := ⟨[], [], [], [], [], 0, 0, none, [], none, 0, [], [], 0⟩
/-- Fuses as delivered: blank. -/
def Fuses.blank : Fuses := ⟨[], [], [], [], 0⟩
/-- Management before the steward starts. -/
def MgtSt.blank : MgtSt :=
  ⟨[], false, BootFlash.blank, Fuses.blank, [], [], [], [], [], 0, none, none, none, none, [], [], false⟩
/-- Availability before the self-tests: no steward pair in service. -/
def AvlSt.blank : AvlSt := ⟨false, false, 0, 0, [], none, [], false, false, 0, false, none, [], [], 0, false⟩

/-- The device at reset: every register at its Reset value (no entry listed), memory with nothing listed. -/
def Dev.blank : Dev :=
  { regs := [], ram := [], sys := SysSt.blank, pol := Policy.blank, ev := EvSt.blank, mem := MemSt.blank
    eft := EftSt.blank, cor := CoreSt.blank, gk := GkSt.blank, chk := ChkSt.blank, img := ⟨none⟩, cap := CapSt.blank
    cdc := CdcSt.blank, fls := FlsSt.blank, dur := DurSt.blank, hq := HqSt.blank, shr := ShareSt.blank
    ins := InsSt.blank, mgt := MgtSt.blank, avl := AvlSt.blank, out := [], free := 0 }

/-- The machine right after reset, with no command waiting. -/
def State.reset : State := ⟨[], Dev.blank⟩

end Sys2Proof.Machine
end

