-- ==== Sys2Proof/Machine/Ops.lean ====
section
/-! DEFINITION. The operations every block shares: registers (R8–R14), events (R15, R416, R417, R485–R487), device time
(R33), device memory bytes, drawing a free value, and sending a message. -/
namespace Sys2Proof.Machine

/-! ## The register file -/

/-- Where a field's value is kept. -/
def fkey (f : Fld) (i : Nat) : Nat := i * 1024 + f.ctorIdx

/-- The value a field holds. An entry that is not listed is at its Reset value (R14). -/
def Dev.rd (d : Dev) (f : Fld) (i : Nat := 0) : Nat := amGet (f.reset i) (fkey f i) d.regs

/-- Width of a field in bits. -/
def Fld.width (f : Fld) : Nat := f.info.hi + 1 - f.info.lo

/-- Set a field, cut to its width. -/
def Dev.wr (d : Dev) (f : Fld) (v : Nat) (i : Nat := 0) : Dev :=
  { d with regs := amSet (f.reset i) (fkey f i) (v % 2 ^ f.width) d.regs }

/-- Count up in a field that saturates at its width. -/
def Dev.cnt (d : Dev) (f : Fld) (i : Nat := 0) (n : Nat := 1) : Dev :=
  d.wr f (satAdd (2 ^ f.width - 1) (d.rd f i) n) i

/-- A 64-bit value held as a pair of fields (R10). -/
def Dev.rd64 (d : Dev) (lo hi : Fld) (i : Nat := 0) : Nat := d.rd lo i + 2 ^ 32 * d.rd hi i

/-- Set a 64-bit pair. -/
def Dev.wr64 (d : Dev) (lo hi : Fld) (v : Nat) (i : Nat := 0) : Dev :=
  (d.wr lo (v % 2 ^ 32) i).wr hi (v / 2 ^ 32) i

/-- Count up in a 64-bit pair that saturates. -/
def Dev.cnt64 (d : Dev) (lo hi : Fld) (i n : Nat) : Dev :=
  d.wr64 lo hi (satAdd (2 ^ 64 - 1) (d.rd64 lo hi i) n) i

/-- Does the field keep its value across this reset or state (R14)? -/
def Fld.survives (f : Fld) (k : Rst) : Bool := decide (k ∈ f.info.surv)

/-- Every field of the register maps. -/
def allFlds : List Fld := Block.all.flatMap (fun b => b.regs.flatMap (fun r => r.flds))

/-- Latches and held words of pairs whose fields return to Reset are lost (R10). -/
def Dev.dropPairs (d : Dev) (lost : Fld → Nat → Bool) : Dev :=
  { d with sys.pairs := d.sys.pairs.filter (fun p => !lost p.lo p.idx), sys.held := d.sys.held.filter (fun p => !lost p.lo p.idx) }

/-- Return to Reset every field that does not survive `k`, at the indices that `sel` names (R14). -/
def Dev.resetRegs (d : Dev) (k : Rst) (sel : Fld → Nat → Bool) : Dev :=
  let lost := allFlds.filter (fun f => !f.survives k)
  { d.dropPairs (fun f i => !f.survives k && sel f i) with regs := d.regs.filter (fun e => !lost.any (fun f => f.ctorIdx == e.1 % 1024 && sel f (e.1 / 1024))) }

/-! ## Device time -/

/-- The device time counter: the integer part of the accumulator, 64 bits (R33). -/
def Dev.now (d : Dev) : Nat := (d.sys.acc / 2 ^ 32) % 2 ^ 64

/-- The TAI second of the device time (R487). -/
def Dev.second (d : Dev) : Nat := d.now / 1000000000

/-- One control-clock cycle: the increment is added to the accumulator (R33). -/
def Dev.tick (d : Dev) : Dev := { d with sys.acc := (d.sys.acc + d.sys.inc) % 2 ^ 96 }

/-! ## Free values -/

/-- A value the spec leaves open, `w` bits wide; the counter moves on so that the next one is another. -/
def Dev.draw (d : Dev) (w : Nat) : Nat × Dev :=
  (Config.freeNat d.free % 2 ^ w, { d with free := d.free + 1 })

/-- `n` bytes the spec leaves open. -/
def Dev.drawBytes (d : Dev) (n : Nat) : List Byte × Dev :=
  ((List.range n).map (fun k => Config.freeByte (d.free + k)), { d with free := d.free + n })

/-! ## Events -/

/-- Severity of an event code (R485): 4 critical to 0 information, 1 where the table does not list it. -/
def severity (code : Nat) : Nat :=
  if code ∈ [0x1008, 0x4032, 0x5003, 0xE021, 0xE053, 0xE061] then 4
  else if code ∈ [0x0031, 0x0033, 0x0041, 0x2191, 0x3006, 0x4003, 0x4010, 0x4062, 0x4066, 0x7042, 0x8002, 0xA004,
    0xA006, 0xA012, 0xB010, 0xB042, 0xE020, 0xE040, 0xE042, 0xE052, 0xE082, 0xE090] then 3
  else if code ∈ [0x0030, 0x0032, 0x1001, 0x1005, 0x1006, 0x1007, 0x2140, 0x2160, 0x2190, 0x3003, 0x3005, 0x4011,
    0x4031, 0x4041, 0x4042, 0x4065, 0x5001, 0x5002, 0x5012, 0x5013, 0x5030, 0x5041, 0x5050, 0x5051, 0x5061, 0x5080,
    0x6031, 0x7010, 0x7041, 0x8011, 0x9040, 0xA003, 0xA014, 0xA020, 0xA030, 0xB041, 0xC301, 0xD001, 0xD010, 0xD013,
    0xE002, 0xE010, 0xE050, 0xE060, 0xE062, 0xE070, 0xE080] then 2
  else if code ∈ [0x1002, 0x1003, 0x1004, 0x2101, 0x2102, 0x2130, 0x2133, 0x2134, 0x2141, 0x3009, 0x4001, 0x4061,
    0x4063, 0x4064, 0x5011, 0x5020, 0x5031, 0x7060, 0x9010, 0x9012, 0xC003, 0xC010, 0xC101, 0xD011, 0xD012, 0xE001,
    0xE003, 0xE030, 0xE031, 0xE032, 0xE041, 0xE051, 0xE081, 0xE083] then 0
  else 1

/-- Pack data fields (width, value) into the 16-byte DATA field (R486). A field of width 16 is an IP address, held in
network order; cut short, it keeps its last bytes. -/
def packInto (room : Nat) : List (Nat × Nat) → List Byte
  | [] => zeros room
  | (w, v) :: fs =>
    if w ≤ room then (if w = 16 then beBytes 16 v else leBytes w v) ++ packInto (room - w) fs
    else if w = 16 then beBytes room v
    else leBytes room v

/-- DATA of an event record. -/
def packData (fs : List (Nat × Nat)) : List Byte := packInto 16 fs

/-- A list with an element it may lack. -/
def insertNew {α : Type} [BEq α] (x : α) (l : List α) : List α := if l.contains x then l else l ++ [x]

/-- Keep the newest `n` elements. -/
def keepLast {α : Type} (n : Nat) (l : List α) : List α := l.drop (l.length - n)

/-- Enter a record into the queue, the always-on log when its severity is 2 or higher, and the subscription's EVENT
message when one exists (R416, R417). A record that overwrites one not yet copied loses it from the persistent log. -/
def Dev.record (d : Dev) (r : EvRec) : Dev :=
  let e := d.ev
  let full := r.sev ≥ 2 ∧ e.alwaysOn.length ≥ 1024 ∧ e.uncopied ≥ 1024
  let e1 : EvSt := { e with queue := keepLast 65536 (e.queue ++ [r]), next := (e.next + 1) % 2 ^ 32 }
  let e2 : EvSt :=
    if r.sev ≥ 2 then
      { e1 with
        alwaysOn := keepLast 1024 (e1.alwaysOn ++ [r])
        uncopied := if full then 1024 else e1.uncopied + 1
        lost := if full then e1.lost + 1 else e1.lost }
    else e1
  let o := match e.sub with
    | some s => if r.sev ≥ s.sevMin then d.out ++ [.eventMsg s.ip s.port [r]] else d.out
    | none => d.out
  { d with ev := e2, out := o }

/-- Raise an event for an instance with data fields (width, value). -/
def Dev.raiseI (d : Dev) (inst code : Nat) (fs : List (Nat × Nat)) : Dev :=
  d.record ⟨d.now, d.ev.next, code, severity code, inst, packData fs⟩

/-- Raise an event that names no instance. -/
def Dev.raise (d : Dev) (code : Nat) (fs : List (Nat × Nat)) : Dev := d.raiseI 0 code fs

/-- Raise an event once in each second of device time for an item (R487). -/
def Dev.raiseSec (d : Dev) (inst code item : Nat) (fs : List (Nat × Nat)) : Dev :=
  let k := code * 2 ^ 24 + item
  if amGet 0 k d.ev.seen = d.second + 1 then d
  else
    let d1 := { d with ev.seen := amSet 0 k (d.second + 1) d.ev.seen }
    d1.raiseI inst code fs

/-- Count an event that is raised at the end of the second with that second's count (R487: 0xB001, 0xC201). -/
def Dev.countSec (d : Dev) (code item : Nat) : Dev :=
  let k := code * 2 ^ 24 + item
  { d with ev.counts := amSet (0, 0) k (d.second, (amGet (0, 0) k d.ev.counts).2 + 1) d.ev.counts }

/-- Send a message. -/
def Dev.send (d : Dev) (m : Out) : Dev := { d with out := d.out ++ [m] }

/-! ## Reading and writing registers (R8–R13) -/

/-- The index of a register at block offset `o`, if `o` names one of this array. -/
def RegDef.hit (r : RegDef) (o : Nat) : Option Nat :=
  if o < r.off then none
  else
    let x := o - r.off
    let c := if r.cstride = 0 then 0 else x / r.cstride
    let y := x - c * r.cstride
    let j := if r.stride = 0 then 0 else y / r.stride
    if (r.cstride = 0 ∨ c < r.copies) ∧ j < r.n ∧ y = j * r.stride then some (c * r.n + j) else none

/-- The register at an offset, with its index. -/
def findReg (o : Nat) : List RegDef → Option (RegDef × Nat)
  | [] => none
  | r :: rs => match r.hit o with
    | some i => some (r, i)
    | none => findReg o rs

/-- The block an I/O address lies in (R8). -/
def blockOf (a : Nat) : Option Block :=
  Block.all.find? (fun b => decide (b.base ≤ a ∧ a < b.limit))

/-- What an I/O address names: a register with its index, or 32 reserved bits of a block and copy (R12). -/
inductive Target
  | reg (b : Block) (copy : Nat) (r : RegDef) (i : Nat)
  | hole (b : Block) (copy : Nat)
  | nothing
deriving DecidableEq, Repr

/-- Resolve an I/O address (R8, R9). `core` selects the copy of the core-local window. -/
def resolve (core a : Nat) : Target :=
  match blockOf a with
  | none => .nothing
  | some b =>
    let o := a - b.base
    let copy := if b = .core then core else min (o / b.copies.2) (b.copies.1 - 1)
    match findReg o b.regs with
    | some (r, i) => .reg b copy r (if b = .core then core * r.n + i else i)
    | none => .hole b copy

/-- The bits of a register that no field covers (R12). -/
def reservedBits (fs : List Fld) (v : Nat) : Bool :=
  (List.range 32).any (fun k => bitOf k v && !fs.any (fun f => decide (f.info.lo ≤ k ∧ k ≤ f.info.hi)))

/-- The legal values of ECAUSE: the table Exception causes. -/
def legalEcause (v : Nat) : Bool := decide (v ∈ [0, 1, 2, 3, 4, 5, 6, 7, 8, 0x10, 0x11])

/-- Is the value presented to a field legal (R13)? `v` is the whole word written. -/
def Dev.legal (d : Dev) (f : Fld) (i w v : Nat) : Bool :=
  (match f.range with
    | some (lo, hi) => decide (lo ≤ v ∧ v ≤ hi)
    | none => true) &&
  (match f with
    | .MEM_PORT_CFG_CALM_PM => decide (v + 100 ≤ d.rd .MEM_PORT_CFG_PANIC_PM i)
    | .DUR_GC_CFG_HIGH_PM =>
      decide ((if 1 ≤ bitsOf 9 0 w ∧ bitsOf 9 0 w ≤ 499 then bitsOf 9 0 w else d.rd .DUR_GC_CFG_LOW_PM) < v)
    | .DUR_GC_CFG_MAX_PM => decide (d.pol.gcFloor ≤ v)
    | .CORE_EXC_ECAUSE => legalEcause v
    | _ => true)

/-- Is the device in Configuration mode, where RWL fields take writes (R11)? -/
def Dev.configuring (d : Dev) : Bool := d.rd .AVL_STATUS_MODE == 1

/-- What one field of a write did: nothing to report, an ignored RWL or RWA write, a reserved value. -/
structure WriteNote where
  ignored : Bool
  reserved : Bool
deriving DecidableEq, Repr

/-- Write one field by its access code (R11, R13). -/
def Dev.writeField (d : Dev) (f : Fld) (i w : Nat) (n : WriteNote) : Dev × WriteNote :=
  let v := bitsOf f.info.hi f.info.lo w
  let put := if d.legal f i w v then (d.wr f v i, n) else (d, { n with reserved := true })
  match f.info.acc with
  | .ro => (d, n)
  | .rw => if f = .MEM_PORT_CFG_PANIC_EN ∧ 128 ≤ i then (d, n) else put
  | .rw1c => (d.wr f (d.rd f i - (d.rd f i &&& v)) i, n)
  | .wo => (d, if d.legal f i w v then n else { n with reserved := true })
  | .rwl =>
    if d.configuring then put else (d, if v = d.rd f i then n else { n with ignored := true })
  | .rwa => (d, if v = d.rd f i then n else { n with ignored := true })

/-- Write the fields of a register, most significant first. -/
def Dev.writeFields (d : Dev) (i w : Nat) (n : WriteNote) : List Fld → Dev × WriteNote
  | [] => (d, n)
  | f :: fs =>
    let r := d.writeField f i w n
    r.1.writeFields i w r.2 fs

/-- The reports of a write: 0x0021, 0x0022, and RSVD_WRITE with 0x0020 (R11–R13). -/
def Dev.noteWrite (d : Dev) (b : Block) (copy a : Nat) (rsvd : Bool) (n : WriteNote) : Dev :=
  let d := if n.ignored then d.raise 0x0021 [(4, a)] else d
  let d := if n.reserved then d.raise 0x0022 [(4, a)] else d
  if rsvd then (d.wr b.rsvd 1 copy).raise 0x0020 [(4, a)] else d

/-- A write to a register or to reserved bits, by access codes alone (R11–R13). -/
def Dev.plainWrite (d : Dev) (core a w : Nat) : Dev :=
  match resolve core a with
  | .reg b copy r i =>
    let x := d.writeFields i w ⟨false, false⟩ r.flds
    x.1.noteWrite b copy a (reservedBits r.flds w) x.2
  | .hole b copy => d.noteWrite b copy a (w != 0) ⟨false, false⟩
  | .nothing => d

/-- The word of a register: its fields in place, WO fields and reserved bits as 0 (R11, R12). `live` gives the fields
that are shown from another part of the state. -/
def Dev.wordOf (d : Dev) (live : Fld → Nat → Option Nat) (i : Nat) : List Fld → Nat
  | [] => 0
  | f :: fs =>
    (if f.info.acc = .wo then 0
     else ((live f i).getD (d.rd f i)) % 2 ^ f.width * 2 ^ f.info.lo) + d.wordOf live i fs

/-! ## Device memory -/

/-- Size of the device memory space: 256 GiB. -/
def memSize : Nat := 2 ^ 38

/-- What a byte of device memory that nothing has written reads as: 0 (R58, R60: every region is zeroed at the build). -/
def memDefault : Byte := 0

/-- One byte of device memory. -/
def Dev.readByte (d : Dev) (a : Nat) : Byte := amGet memDefault a d.ram

/-- Write one byte of device memory. -/
def Dev.writeByte (d : Dev) (a : Nat) (b : Byte) : Dev := { d with ram := amSet memDefault a b d.ram }

/-- `n` bytes from `a`. -/
def Dev.readMem (d : Dev) (a n : Nat) : List Byte := amGetRange memDefault a n d.ram

/-- Write bytes from `a` upward. -/
def Dev.writeMem (d : Dev) (a : Nat) (bs : List Byte) : Dev := { d with ram := amSetRange memDefault a bs d.ram }

/-- Zero a range: its bytes leave the list. -/
def Dev.zeroMem (d : Dev) (a n : Nat) : Dev :=
  { d with ram := d.ram.filter (fun c => decide (c.1 < a ∨ a + n ≤ c.1)) }

/-- The canonical form of memory: addresses rising, no listed byte equal to what an unlisted address reads as. -/
def Memory.wf (m : List Host.Cell) : Bool := amWf memDefault m

/-! ## Agents -/

/-- The register agent number: cores 0–271, the steward 272, the manager 273 (R10). -/
def agNum : Agent → Nat
  | .core c => c.val
  | .steward => 272
  | .manager => 273

/-- How events and argument blocks name an agent: cores 0–271, 0x0201 the steward, 0x0202 the manager (R328). -/
def agCode : Agent → Nat
  | .core c => c.val
  | .steward => 0x0201
  | .manager => 0x0202

/-- The generation of an owner instance (R402). -/
def Dev.gen (d : Dev) (n : Nat) : Nat := d.rd .INS_STATUS_GENERATION n

/-! ## Modes and degraded reasons -/

/-- Change the mode; a change raises 0xE001 with the old and the new mode (R433). -/
def Dev.setMode (d : Dev) (m : Nat) : Dev :=
  let o := d.rd .AVL_STATUS_MODE
  if o = m then d else (d.wr .AVL_STATUS_MODE m).raise 0xE001 [(1, o), (1, m)]

/-- The mode that "Service or Degraded Service" means now (R435). -/
def Dev.serviceMode (d : Dev) : Nat := if d.rd .AVL_DEGRADED = 0 then 2 else 3

/-- Set a degraded reason: 0xE002 when the bit was clear, and Degraded Service from Service (R433, R435). -/
def Dev.degrade (d : Dev) (bit resource : Nat) : Dev :=
  let old := d.rd .AVL_DEGRADED
  let d := if bitOf bit old then d
    else (d.wr .AVL_DEGRADED (old + 2 ^ bit)).raise 0xE002 [(1, bit), (2, resource)]
  if d.rd .AVL_STATUS_MODE = 2 then d.setMode 3 else d

/-- Clear a degraded reason: 0xE003 when the bit was set, and Service when none is left (R433, R435). -/
def Dev.undegrade (d : Dev) (bit : Nat) : Dev :=
  let old := d.rd .AVL_DEGRADED
  let d := if bitOf bit old then (d.wr .AVL_DEGRADED (old - 2 ^ bit)).raise 0xE003 [(1, bit)] else d
  if d.rd .AVL_STATUS_MODE = 3 ∧ d.rd .AVL_DEGRADED = 0 then d.setMode 2 else d

/-- A guarantee yields at a point of the table Yield points (R395): INS_YIELD_COUNT at once, 0xC201 at the second's
end. -/
def Dev.yieldAt (d : Dev) (n point : Nat) : Dev := (d.cnt .INS_YIELD_COUNT n).countSec 0xC201 (n * 16 + point)

/-! ## Regions, protection and poison (R338–R340, R353) -/

/-- The region that holds the whole range (R340). -/
def Dev.regionAt (d : Dev) (a n : Nat) : Option Region :=
  d.mem.regions.find? (fun r => decide (r.base ≤ a ∧ a + n ≤ r.base + r.size))

/-- Does the protection stage let an owner reach the range (R340)? -/
def Dev.memAllowed (d : Dev) (owner a n : Nat) : Bool :=
  match d.regionAt a n with
  | some r => r.inst == owner || r.inst == 0
  | none => false

/-- The channels of a region's stacks in ascending number (R338). -/
def Region.chans (r : Region) : List Nat :=
  (List.range 128).filter (fun c => bitOf (c / 32) r.stackMask)

/-- The grain in bytes (R338). -/
def Region.grainBytes (r : Region) : Nat := 256 * 2 ^ r.grain

/-- A region's slice on each channel of its list (R338). -/
def Region.slice (r : Region) : Nat :=
  let n := r.chans.length
  let g := r.grainBytes
  if n = 0 then 0 else ceilDiv r.full (n * g) * g

/-- Where a region's slice starts on a channel: the slices of lower region numbers lie before it (R338). -/
def Dev.sliceBase (d : Dev) (r : Region) (c : Nat) : Nat :=
  ((d.mem.regions.filter (fun q => decide (q.num < r.num) && bitOf (c / 32) q.stackMask)).map Region.slice).sum

/-- Channel and channel offset of a device memory address (R338). -/
def Dev.chanOf (d : Dev) (a : Nat) : Option (Nat × Nat) :=
  match d.regionAt a 1 with
  | none => none
  | some r =>
    let n := r.chans.length
    let g := r.grainBytes
    let u := (a - r.base) / g
    match r.chans[u % n]? with
    | none => none
    | some c => some (c, d.sliceBase r c + u / n * g + (a - r.base) % g)

/-- Pseudo-channel, bank, row and column of a channel offset (R339). -/
def bankOf (c o : Nat) : Nat × Nat × Nat × Nat :=
  let p := o / 512 * 256 + o % 256
  (2 * c + o / 256 % 2, p / 1024 % 64, p / 65536 % 16384, p % 1024)

/-- The relief index of the block that a region holds at channel offset `o` of a channel: how many blocks go before it in
the order of relief (R359). -/
def reliefIndex (region block : Nat) : List (Nat × Nat) → Option Nat
  | [] => none
  | (r, n) :: rs => if r = region ∧ block < n then some block else (reliefIndex region block rs).map (· + n)

/-- Where a line lies: its channel, that channel's relief if it is retired, and the relief index of its block. -/
def Dev.linePlace (d : Dev) (line : Nat) : Option (Nat × Option (Relief × Option Nat)) :=
  match d.regionAt (line * 64) 1, d.chanOf (line * 64) with
  | some r, some (c, o) =>
    some (c, (d.mem.relief.find? (fun x => x.chan == c)).map (fun x => (x, reliefIndex r.num ((o - d.sliceBase r c) / 65536) x.order)))
  | _, _ => none

/-- Is a line out of reach (R360, R362): on a retired channel without relief, or not yet switched to it when the channel
cannot be read? -/
def Dev.lineDead (d : Dev) (line : Nat) : Bool :=
  match d.linePlace line with
  | some (_, some (x, some i)) => decide (x.covered ≤ i) || (!x.readable && decide (x.switched ≤ i))
  | some (_, some (_, none)) => true
  | _ => false

/-- The channel that a relief block lies on. -/
def Relief.target (x : Relief) (i : Nat) : Option Nat := x.targets[(x.first + i) % x.targets.length]?

/-- Did a retirement lose a line (R360)? -/
def Dev.lineLost (d : Dev) (line : Nat) (lost : List (Nat × Option Nat)) : Bool :=
  match d.linePlace line with
  | none => false
  | some (c, rel) => lost.any (fun l => l.1 == c && (match l.2 with
      | none => true
      | some t => (match rel with | some (x, some i) => x.target i == some t | _ => false)))

/-- Does a read of this 64-byte line return poison (R353, R360, R362)? -/
def Dev.linePoisoned (d : Dev) (line : Nat) : Bool :=
  d.mem.poison.contains line || (!d.mem.relief.isEmpty && (d.lineDead line ||
    (d.lineLost line d.mem.lost && !d.mem.healed.contains line)))

/-- The lines of a range. -/
def linesOf (a n : Nat) : List Nat :=
  if n = 0 then [] else (List.range ((a + n - 1) / 64 + 1 - a / 64)).map (fun k => a / 64 + k)

/-- Does any line of the range return poison? -/
def Dev.poisoned (d : Dev) (a n : Nat) : Bool :=
  if d.mem.poison.isEmpty && d.mem.relief.isEmpty then false else (linesOf a n).any d.linePoisoned

/-- Lines that a write covers whole lose their poison (R353); a partial write is merged with a line that cannot be read
and leaves it (notes/assumptions/173). -/
def Dev.healLines (d : Dev) (a n : Nat) : Dev :=
  let whole := (linesOf a n).filter (fun l => decide (a ≤ l * 64 ∧ l * 64 + 64 ≤ a + n) && !(!d.mem.relief.isEmpty && d.lineDead l))
  if d.mem.poison.isEmpty && d.mem.relief.isEmpty then d
  else { d with mem.poison := d.mem.poison.filter (fun l => !whole.contains l)
                mem.healed := if d.mem.lost.isEmpty then d.mem.healed else (d.mem.healed ++ whole).eraseDups }

/-- Write bytes, but none to lines that are out of reach. -/
def Dev.writeLive (d : Dev) (a : Nat) : List Byte → Dev
  | [] => d
  | b :: bs => (if d.lineDead (a / 64) then d else d.writeByte a b).writeLive (a + 1) bs

/-- Store bytes in device memory as the controller does: the bytes change, but for those of lines out of reach, and wholly
written lines heal. -/
def Dev.store (d : Dev) (a : Nat) (bs : List Byte) : Dev :=
  (if d.mem.relief.isEmpty then d.writeMem a bs else d.writeLive a bs).healLines a bs.length

/-- The effect of a command on the device; the queue of waiting commands is not touched. -/
def onDev (s : State) (f : Dev → Dev) : State := { s with dev := f s.dev }

end Sys2Proof.Machine
end

