-- ==== Sys2Proof/Machine/Eft.lean ====
section
/-! DEFINITION. Eft: task records, flags, delays, posts, dispatch, completion and program load (spec/10_eft.md), with the
start and the end of a work item on its core (R313, R328, R329). -/
namespace Sys2Proof.Machine

/-- A task record with nothing in it. -/
def taskInit : Task := ⟨[], none, 0, 0, none⟩

/-- A core at reset: registers and memories read 0. -/
def coreInit : PCore :=
  ⟨[], [], 0, 0, 0, 0, 0, 0, 0, [], [], none, [], none, false, false, none, 0, none, false, false, []⟩

/-- Task `t`'s state beside its registers. -/
def Dev.task (d : Dev) (t : Nat) : Task := amGet taskInit t d.eft.tasks
/-- Replace it. -/
def Dev.setTask (d : Dev) (t : Nat) (x : Task) : Dev := { d with eft.tasks := amSet taskInit t x d.eft.tasks }
/-- Core `c`. -/
def Dev.core (d : Dev) (c : Nat) : PCore := amGet coreInit c d.cor.cores
/-- Replace it. -/
def Dev.setCore (d : Dev) (c : Nat) (x : PCore) : Dev := { d with cor.cores := amSet coreInit c x d.cor.cores }

/-- The owner whose work item an agent runs: instance 0 for the steward and the manager; none for a core at rest. -/
def Dev.ownerOf (d : Dev) : Agent → Option Nat
  | .core c => (d.core c.val).wi.map (·.inst)
  | .steward => some 0
  | .manager => some 0

/-- STATE values of the table Task states: accepts flags and posts. -/
def Dev.taskAccepts (d : Dev) (t : Nat) : Bool := d.rd .EFT_TASK_CFG_STATE t == 1 || d.rd .EFT_TASK_CFG_STATE t == 2

/-- May the agent reach the task (R316)? -/
def Dev.taskReach (d : Dev) (ag : Agent) (t : Nat) : Bool :=
  d.rd .EFT_TASK_CFG_STATE t != 0 &&
  (match ag with
    | .core _ => d.ownerOf ag == some (d.rd .EFT_TASK_INFO_INSTANCE t)
    | _ => true)

/-- The event condition (Readiness, R318). -/
def Dev.eventCond (d : Dev) (t : Nat) : Bool :=
  let m := d.rd .EFT_TASK_MASK t
  let x := d.rd .EFT_TASK_FLAGS t &&& m
  if d.rd .EFT_TASK_CFG_MODE t = 0 then x != 0 else m != 0 && x == m

/-- Ready (R319). -/
def Dev.taskReady (d : Dev) (t : Nat) : Bool :=
  d.rd .EFT_TASK_CFG_STATE t == 2 &&
  (d.eventCond t || !(d.task t).posts.isEmpty) &&
  decide (d.rd .EFT_TASK_INFO_RUNNING t < d.rd .EFT_TASK_CFG_CONCURRENCY t)

/-- Note the moment at which a task becomes ready or stops being so (R327, READY_TIME of R328). -/
def Dev.refreshTask (d : Dev) (t : Nat) : Dev :=
  let x := d.task t
  if d.taskReady t then
    match x.readyOrd with
    | some _ => d
    | none =>
      { (d.setTask t { x with readyOrd := some d.eft.ord, readyAt := d.now }) with eft.ord := d.eft.ord + 1 }
  else if x.readyOrd = none then d else d.setTask t { x with readyOrd := none }

/-- Set a flag of a task that accepts flags. -/
def Dev.setFlag (d : Dev) (t f : Nat) : Dev :=
  if d.taskAccepts t then
    (d.wr .EFT_TASK_FLAGS (d.rd .EFT_TASK_FLAGS t ||| 2 ^ (f % 32)) t).refreshTask t
  else d

/-- Clear a flag. -/
def Dev.clearFlag (d : Dev) (t f : Nat) : Dev :=
  if d.taskAccepts t then
    let v := d.rd .EFT_TASK_FLAGS t
    (d.wr .EFT_TASK_FLAGS (v - (v &&& 2 ^ (f % 32))) t).refreshTask t
  else d

/-- A notification from an engine for an owner (table Event sources): dropped, with SIGNAL_REFUSED, when the owner does
not hold the task. -/
def Dev.notify (d : Dev) (owner t f : Nat) : Dev :=
  if d.rd .EFT_TASK_CFG_STATE t != 0 && d.rd .EFT_TASK_INFO_INSTANCE t == owner then d.setFlag t f
  else d.cnt .EFT_CNT_SIGNAL_REFUSED

/-- A signal or record access refused by R316. -/
def Dev.refuseSignal (d : Dev) (ag : Agent) (t : Nat) : Dev :=
  let n := (d.ownerOf ag).getD 0
  (d.cnt .EFT_CNT_SIGNAL_REFUSED).raiseSec n 0x9030 n [(2, (agCode ag)), (2, t)]

/-- EFT_RESULT of an agent (R326). -/
def Dev.eftResult (d : Dev) (ag : Agent) (code t : Nat) : Dev :=
  ((d.wr .EFT_RESULT_VALID 1 (agNum ag)).wr .EFT_RESULT_CODE code (agNum ag)).wr .EFT_RESULT_TASK t (agNum ag)

/-- A signal: `f` when the agent reaches the task, refused otherwise (R316). -/
def Dev.signal (d : Dev) (ag : Agent) (t : Nat) (f : Dev → Dev) : Dev :=
  if d.taskReach ag t then (f d).eftResult ag 0 t else (d.refuseSignal ag t).eftResult ag 1 t

/-! ## Posts (R325, R326) -/

/-- Does the task's program have a blob? -/
def Dev.programOf (d : Dev) (t : Nat) : Option Program := d.eft.programs.find? (fun p => p.tasks.contains t)

/-- Work items of an instance queued and running (R331). -/
def Dev.insWi (d : Dev) (n : Nat) : Nat :=
  ((d.eft.tasks.filter (fun p => d.rd .EFT_TASK_INFO_INSTANCE p.1 == n)).map
    (fun p => p.2.posts.length + d.rd .EFT_TASK_INFO_RUNNING p.1)).sum

/-- Window `k` of a descriptor. -/
def descWindow (bs : List Byte) (k : Nat) : Window :=
  let o := 0x80 + 16 * k
  ⟨leAt o 8 bs, leAt (o + 8) 4 bs, leAt (o + 12) 1 bs⟩

/-- The post that a 384-byte descriptor describes (R325). -/
def descPost (bs : List Byte) (poster gen : Nat) : Post :=
  let fl := leAt 2 1 bs
  { notify := bitOf 0 fl, rerunOk := bitOf 1 fl
    windows := (List.range (leAt 3 1 bs)).map (descWindow bs)
    budget := leAt 4 4 bs, compAddr := leAt 8 8 bs, compTask := leAt 0x10 2 bs, compFlag := leAt 0x12 1 bs
    arg := sliceB 0x18 104 bs, poster := poster, gen := gen, rerun := false, frame := none }

/-- Reserved fields and ranges of the table Work-item descriptor (code 2 of R326). -/
def descWellFormed (bs : List Byte) (blob : Bool) : Bool :=
  let w := leAt 3 1 bs
  decide (leAt 2 1 bs < 4) && decide (w ≤ (if blob then 15 else 16)) && leAt 8 8 bs % 64 == 0 &&
  decide (leAt 0x12 1 bs < 32) && allZero (sliceB 0x13 5 bs) &&
  (List.range 16).all (fun k =>
    let o := 0x80 + 16 * k
    if k < w then
      leAt o 8 bs % 64 == 0 && decide (leAt o 8 bs < memSize) && decide (leAt (o + 8) 4 bs < 2 ^ 30) &&
      decide (leAt (o + 12) 1 bs < 4) && allZero (sliceB (o + 13) 3 bs)
    else allZero (sliceB o 16 bs))

/-- Windows and COMP_ADDR within the memory of the task's owner (code 3 of R326). -/
def Dev.postInside (d : Dev) (owner : Nat) (p : Post) : Bool :=
  p.windows.all (fun w => w.len64 == 0 || d.memAllowed owner w.base (w.len64 * 64)) &&
  (p.compAddr == 0 || d.memAllowed owner p.compAddr 64)

/-- The table Post results, for a descriptor that could be read. -/
def Dev.postCode (d : Dev) (ag : Agent) (bs : List Byte) : Nat :=
  let t := leAt 0 2 bs
  let n := d.rd .EFT_TASK_INFO_INSTANCE t
  let p := descPost bs 0 0
  let blob := match d.programOf t with | some q => q.blobLen != 0 | none => false
  if !d.taskReach ag t then 1
  else if d.rd .EFT_TASK_CFG_STATE t = 3 then 6
  else if !descWellFormed bs blob then 2
  else if p.notify && !(d.rd .EFT_TASK_CFG_STATE p.compTask != 0 && d.rd .EFT_TASK_INFO_INSTANCE p.compTask == n) then 1
  else if !d.postInside n p then 3
  else if d.insWi n ≥ d.rd .EFT_INS_CFG_WI_QUOTA n then 4
  else if d.eft.pool ≥ 131072 then 5
  else 0

/-- Put an accepted post at the tail of its task and take a pool slot. -/
def Dev.enqueuePost (d : Dev) (t : Nat) (p : Post) : Dev :=
  let x := d.task t
  (({ (d.setTask t { x with posts := x.posts ++ [p] }) with eft.pool := d.eft.pool + 1 }).cnt .EFT_CNT_POSTS).refreshTask t

/-- A post is refused: counters, 0x9001 once per owner and second, EFT_RESULT (R326). -/
def Dev.refusePost (d : Dev) (ag : Agent) (n t code : Nat) : Dev :=
  ((d.cnt .EFT_CNT_POST_REFUSED).raiseSec n 0x9001 n [(1, n), (2, t), (2, code)]).eftResult ag code t

/-- A write of EFT_POST (R325, R326): `addr64` is the descriptor address shifted right by 6. -/
def Dev.post (d : Dev) (ag : Agent) (addr64 : Nat) : Dev :=
  let a := addr64 * 64
  match d.ownerOf ag with
  | none => d.refusePost ag 0 0 7
  | some n =>
    if !d.memAllowed n a 384 || d.poisoned a 384 then d.refusePost ag n 0 7
    else
      let bs := d.readMem a 384
      let t := leAt 0 2 bs
      let code := d.postCode ag bs
      if code = 0 then (d.enqueuePost t (descPost bs (agCode ag) (d.gen n))).eftResult ag 0 t
      else
        let d := if code = 1 then d.refuseSignal ag t else d
        d.refusePost ag n t code

/-! ## Completion (R329, R330) -/

/-- The 64-byte completion record. -/
def completionRecord (status ecause core task seq time epc : Nat) (value : List Byte) : List Byte :=
  leBytes 1 status ++ leBytes 1 ecause ++ leBytes 2 core ++ leBytes 2 task ++ zeros 2 ++ leBytes 8 seq ++
  leBytes 8 time ++ leBytes 4 epc ++ zeros 4 ++ sliceB 0 32 value

/-- Write a post's completion record and its notification, and free its pool slot (R329). -/
def Dev.completePost (d : Dev) (t : Nat) (p : Post) (status ecause core seq epc : Nat) (value : List Byte) : Dev :=
  let d := { d with eft.pool := d.eft.pool - 1 }
  let d := if p.compAddr ≠ 0 then
      d.store p.compAddr (completionRecord status ecause core t seq d.now epc value) else d
  if p.notify then d.setFlag p.compTask p.compFlag else d

/-- Discard queued posts, each with a CANCELLED completion (R321). -/
def Dev.cancelPosts (d : Dev) (t : Nat) : List Post → Dev
  | [] => d
  | p :: ps => (d.completePost t p 4 0 0xFFFF 0 0 []).cancelPosts t ps

/-- Remove a task's deadline. -/
def Dev.stopDelay (d : Dev) (t : Nat) : Dev :=
  (d.setTask t { d.task t with deadline := none }).wr .EFT_TASK_CFG_DELAY_ON 0 t

/-- CANCEL (R321). -/
def Dev.cancelTask (d : Dev) (t : Nat) : Dev :=
  let ps := (d.task t).posts
  let d := (d.wr .EFT_TASK_FLAGS 0 t).stopDelay t
  let d := d.setTask t { d.task t with posts := [] }
  (d.cancelPosts t ps).refreshTask t

/-- DELAY_START (R322): the deadline is boundary ⌊x / tick⌋ + DELAY + 1. -/
def Dev.startDelay (d : Dev) (t : Nat) : Dev :=
  let tick := d.rd .EFT_TICK
  let k := d.now / tick + d.rd .EFT_TASK_DELAY t + 1
  (d.setTask t { d.task t with deadline := some (k * tick) }).wr .EFT_TASK_CFG_DELAY_ON 1 t

/-- ENABLE and DISABLE (R321): dispatch goes on or stops; a task that is being deleted stays so. -/
def Dev.setEnabled (d : Dev) (t state : Nat) : Dev :=
  if d.taskAccepts t then (d.wr .EFT_TASK_CFG_STATE state t).refreshTask t else d

/-- One expiry (R322, R323): DFLAG is set; a periodic task's next deadline is DELAY boundaries on, at least one. -/
def Dev.expire (d : Dev) (t at_ : Nat) : Dev :=
  let tick := d.rd .EFT_TICK
  let f := d.rd .EFT_TASK_CFG_DFLAG t
  if d.rd .EFT_TASK_CFG_PERIODIC t = 1 then
    let d := if bitOf f (d.rd .EFT_TASK_FLAGS t) then d.cnt .EFT_CNT_TIMER_OVERRUN else d
    let next := at_ + max 1 (d.rd .EFT_TASK_DELAY t) * tick
    (d.setTask t { d.task t with deadline := some next }).setFlag t f
  else (d.stopDelay t).setFlag t f

/-- Expiries of one boundary, in task order. -/
def Dev.expireAll (d : Dev) (at_ : Nat) : List Nat → Dev
  | [] => d
  | t :: ts => (d.expire t at_).expireAll at_ ts

/-- The earliest deadline of any task. -/
def Dev.firstDeadline (d : Dev) : Option Nat :=
  (d.eft.tasks.filterMap (fun p => p.2.deadline)).foldl
    (fun m x => match m with | none => some x | some y => some (min x y)) none

/-- The earliest boundary that is due: every expiry of it is applied (R323). TICK_LATE counts it when the next boundary
has already come. -/
def Dev.delayExpiry (d : Dev) : Dev :=
  match d.firstDeadline with
  | none => d
  | some k =>
    if d.now < k then d
    else
      let due := (d.eft.tasks.filter (fun p => p.2.deadline == some k)).map (·.1)
      let d := if k + d.rd .EFT_TICK ≤ d.now then d.cnt .EFT_CNT_TICK_LATE else d
      d.expireAll k due

/-- A change of EFT_TICK_NS (R324): running deadlines keep their device time, rounded up to a boundary of the new tick. -/
def Dev.changeTick (d : Dev) (ns : Nat) : Dev :=
  let up : Nat × Task → Nat × Task := fun p =>
    (p.1, { p.2 with deadline := p.2.deadline.map (fun x => ceilDiv x ns * ns) })
  { d with eft.tasks := d.eft.tasks.map up }.wr .EFT_TICK ns

/-! ## Program text (R334, R336) -/

/-- Write bytes of a core's or a clutch's memory. -/
def putBytes (m : AMap Byte) (a : Nat) (bs : List Byte) : AMap Byte := amSetRange 0 a bs m

/-- Bytes of a core's or a clutch's memory. -/
def getBytes (m : AMap Byte) (a n : Nat) : List Byte := amGetRange 0 a n m

/-- Write one segment for core `c`: private text into its instruction memory, shared text and data into its clutch's. -/
def Dev.loadSeg (d : Dev) (c : Nat) (s : Segment) : Dev :=
  match s.kind with
  | 0 => let x := d.core c
         d.setCore c { x with imem := putBytes x.imem s.addr s.bytes }
  | 1 => { d with cor.clutchI := amMod [] (c / 8) (fun m => putBytes m s.addr s.bytes) d.cor.clutchI }
  | 2 => { d with cor.clutchD := amMod [] (c / 8) (fun m => putBytes m s.addr s.bytes) d.cor.clutchD }
  | _ => d

/-- Write the segments of one program for core `c`. -/
def Dev.loadSegs (d : Dev) (c : Nat) : List Segment → Dev
  | [] => d
  | s :: ss => (d.loadSeg c s).loadSegs c ss

/-- Write every program of the core's group to the core (R336). -/
def Dev.loadPrograms (d : Dev) (c : Nat) : List Program → Dev
  | [] => d
  | p :: ps =>
    let d := match (d.core c).group with
      | some g => if p.groups.contains g then d.loadSegs c p.segs else d
      | none => d
    d.loadPrograms c ps

/-- The cores in service of a group, lowest first. -/
def Dev.groupCores (d : Dev) (g : Nat) : List Nat :=
  (List.range 272).filter (fun c => let x := d.core c; x.group == some g && x.assigned && !x.retired)

/-- Idle (R327). -/
def PCore.idle (x : PCore) : Bool := x.assigned && !x.retired && !x.halted && !x.stopped && x.wi.isNone

/-! ## Dispatch (R313, R327, R328) -/

/-- The ready tasks of a group, with priority and the order in which they became ready. -/
def Dev.readyOf (d : Dev) (g : Nat) : List (Nat × Nat × Nat) :=
  d.eft.tasks.filterMap (fun p => match p.2.readyOrd with
    | some o => if d.rd .EFT_TASK_CFG_GROUP p.1 = g then some (d.rd .EFT_TASK_CFG_PRIORITY p.1, o, p.1) else none
    | none => none)

/-- The better of two ready tasks (R327): priority, then readiness, then number. -/
def betterTask (a b : Nat × Nat × Nat) : Nat × Nat × Nat :=
  if b.1 < a.1 ∨ (b.1 = a.1 ∧ (b.2.1 < a.2.1 ∨ (b.2.1 = a.2.1 ∧ b.2.2 < a.2.2))) then b else a

/-- The task a group's dispatch picks. -/
def Dev.pickTask (d : Dev) (g : Nat) : Option Nat :=
  match d.readyOf g with
  | [] => none
  | x :: xs => some (xs.foldl betterTask x).2.2

/-- The next group in round robin with an idle core and a ready task (R327). -/
def Dev.pickGroup (d : Dev) : Option (Nat × Nat × Nat) :=
  (List.range 64).findSome? (fun k =>
    let g := (d.eft.lastGroup + 1 + k) % 64
    match (d.groupCores g).find? (fun c => (d.core c).idle), d.pickTask g with
    | some c, some t => some (g, c, t)
    | _, _ => none)

/-- The argument block of R328, 256 bytes. -/
def argBlock (task kind owner fired seq readyAt now poster windows blob : Nat) (arg : List Byte) : List Byte :=
  leBytes 2 task ++ leBytes 1 kind ++ leBytes 1 owner ++ leBytes 4 fired ++ leBytes 8 seq ++ leBytes 8 readyAt ++
  leBytes 8 now ++ leBytes 2 poster ++ leBytes 1 windows ++ zeros 5 ++ leBytes 8 blob ++ sliceB 0 104 arg ++ zeros 104

/-- Put a window into the core's CORE_WIN registers (R287, R313). -/
def Dev.setWindow (d : Dev) (c w : Nat) (x : Window) : Dev :=
  let i := c * 16 + w
  ((((d.wr .CORE_WIN_BASE_LO (x.base / 64 % 2 ^ 26) i).wr .CORE_WIN_BASE_HI (x.base / 2 ^ 32) i).wr
    .CORE_WIN_LEN_W (x.perm / 2 % 2) i).wr .CORE_WIN_LEN_R (x.perm % 2) i).wr .CORE_WIN_LEN_LEN64 x.len64 i

/-- Windows 0 to 15 of a work item: those of the descriptor, window 15 on the blob, absent elsewhere. -/
def Dev.setWindows (d : Dev) (c : Nat) (ws : List Window) (blobBase blobLen : Nat) : Nat → Dev
  | 0 => d
  | k + 1 =>
    let d := d.setWindows c ws blobBase blobLen k
    let w : Window :=
      if k = 15 ∧ blobLen ≠ 0 then ⟨blobBase, ceilDiv blobLen 64, 1⟩ else ws.getD k ⟨0, 0, 0⟩
    d.setWindow c k w

/-- The registers a work item starts with (R313): user mode, interrupts enabled, everything not listed 0. -/
def PCore.startAt (x : PCore) (entry : Nat) (wi : WorkItem) (args : List Byte) : PCore :=
  { x with g := [(1, 0x20000)], v := [], p := 0, lr := Config.runtimeEndw, rc := 0, ev := 0, evm := 0, st := 2,
           pc := BitVec.ofNat 32 entry, dmem := putBytes x.dmem 0 args, wait := none, xfers := [], ending := none,
           wi := some wi, lastInst := wi.inst }

/-- Start a work item of task `t` on core `c` (R313, R328). A core that last ran another owner's work is zeroed first,
and its group's text is written again (R288, R336). -/
def Dev.startWork (d : Dev) (c t kind fired : Nat) (p : Option Post) : Dev :=
  let owner := d.rd .EFT_TASK_INFO_INSTANCE t
  let x := d.task t
  let d := if (d.core c).lastInst ≠ owner then
      (d.setCore c { d.core c with imem := [], dmem := [] }).loadPrograms c d.eft.programs else d
  let (bb, bl) := match d.programOf t with | some q => (q.blobBase, q.blobLen) | none => (0, 0)
  let ws := match p with | some q => q.windows | none => []
  let tb := d.rd .EFT_TASK_BUDGET t
  let budget := match p with
    | some q => if q.budget = 0 then tb else if tb = 0 then q.budget else min q.budget tb
    | none => tb
  let seq := x.seq + 1
  let wi : WorkItem := ⟨t, owner, fired, seq, p, d.gen owner⟩
  let args := argBlock t kind owner fired seq x.readyAt d.now
    (match p with | some q => q.poster | none => 0xFFFF) ws.length (if bl = 0 then 0 else bb)
    (match p with | some q => q.arg | none => [])
  let d := d.setTask t { x with seq := seq }
  let d := d.setCore c ((d.core c).startAt (d.rd .EFT_TASK_ENTRY t * 4) wi args)
  let d := d.setWindows c ws bb bl 16
  let d := ((d.wr .CORE_BUDGET budget c).wr .CORE_ID_INSTANCE owner c).wr .CORE_STATUS_IN_WORK 1 c
  (d.wr .EFT_TASK_INFO_RUNNING (d.rd .EFT_TASK_INFO_RUNNING t + 1) t).cnt .EFT_CNT_DISPATCHED

/-- One dispatch (R327): the event activation first, then posts in order; a task still ready goes to the tail. -/
def Dev.dispatch (d : Dev) : Dev :=
  if d.eft.stopped then d
  else match d.pickGroup with
  | none => d
  | some (g, c, t) =>
    let x := d.task t
    let d := { d with eft.lastGroup := g }
    let d :=
      if d.eventCond t then
        let fl := d.rd .EFT_TASK_FLAGS t
        let fired := fl &&& d.rd .EFT_TASK_MASK t
        (d.wr .EFT_TASK_FLAGS (fl - fired) t).startWork c t 0 fired none
      else match x.posts with
        | [] => d
        | p :: ps => (d.setTask t { x with posts := ps }).startWork c t 1 0 (some p)
    (d.setTask t { d.task t with readyOrd := none }).refreshTask t

/-! ## End of a work item (R329, R330) -/

/-- The core forgets its work item. -/
def Dev.clearCore (d : Dev) (c : Nat) : Dev :=
  ((d.setCore c { d.core c with wi := none, wait := none, ending := none }).wr .CORE_ID_INSTANCE 0 c).wr
    .CORE_STATUS_IN_WORK 0 c

/-- The work item on core `c` ends with a status of the table Completion statuses. CORE_RESET with RERUN_OK puts the
post back at the head of its task once (R330). -/
def Dev.endWork (d : Dev) (c status ecause epc : Nat) (value : List Byte) : Dev :=
  match (d.core c).wi with
  | none => d
  | some w =>
    let d := d.clearCore c
    let d := d.wr .EFT_TASK_INFO_RUNNING (d.rd .EFT_TASK_INFO_RUNNING w.task - 1) w.task
    let rerun : Bool := match w.post with | some p => status == 3 && p.rerunOk && !p.rerun | none => false
    let d := if status = 0 ∨ rerun then d else d.cnt .EFT_CNT_FAULT_COMPLETIONS
    let d := match w.post with
      | none => d
      | some p =>
        if rerun then
          d.setTask w.task { d.task w.task with posts := { p with rerun := true } :: (d.task w.task).posts }
        else d.completePost w.task p status ecause c w.seq epc value
    d.refreshTask w.task

/-- The work item on core `c` ends without a completion: an instance reset or a warm reset (R311, R332, R333). -/
def Dev.dropWork (d : Dev) (c : Nat) : Dev :=
  match (d.core c).wi with
  | none => d
  | some w =>
    let d := d.clearCore c
    let d := d.wr .EFT_TASK_INFO_RUNNING (d.rd .EFT_TASK_INFO_RUNNING w.task - 1) w.task
    let d := if w.post.isSome then { d with eft.pool := d.eft.pool - 1 } else d
    d.refreshTask w.task

/-! ## Loading and unloading (R335–R337) -/

/-- A check of a loader image: the offset at fault, or none. -/
def firstFault : List (Bool × Nat) → Option Nat
  | [] => none
  | (ok, o) :: cs => if ok then firstFault cs else some o

/-- Instruction-space and data-space ranges that a segment may lie in (R285, R286, R335). -/
def segFits (kind addr len : Nat) : Bool :=
  match kind with
  | 0 => decide (addr + len ≤ 0x8000)
  | 1 => decide (0x10000 ≤ addr ∧ addr + len ≤ 0x50000)
  | 2 => decide (0x100000 ≤ addr ∧ addr + len ≤ 0x300000)
  | _ => addr == 0

/-- The segment entry at index `k`. -/
def segAt (img : List Byte) (k : Nat) : Segment :=
  let o := 64 + 16 * k
  ⟨leAt o 1 img, leAt (o + 4) 4 img, leAt (o + 8) 4 img, sliceB (leAt (o + 12) 4 img) (leAt (o + 8) 4 img) img⟩

/-- Do all eight cores of a clutch belong to core groups of one owner (R288)? -/
def Dev.clutchExclusive (d : Dev) (k : Nat) : Bool :=
  let owner := fun c => match (d.core c).group with
    | some g => amGet 0 g d.eft.groups
    | none => 0
  owner (8 * k) != 0 && (List.range 8).all (fun j => owner (8 * k + j) == owner (8 * k))

/-- Owner of a core group; the table holds owner + 1, 0 for a group the image does not give. -/
def Dev.groupOwner (d : Dev) (g : Nat) : Option Nat :=
  match amGet 0 g d.eft.groups with | 0 => none | n + 1 => some n

/-- Do two segments occupy common space? -/
def segOverlap (a b : Segment) : Bool :=
  a.kind == b.kind && a.kind != 3 && decide (a.addr < b.addr + b.len ∧ b.addr < a.addr + a.len)

/-- The program and work-item region that serves an owner: its own, or the manager's. -/
def Dev.programRegion (d : Dev) (n : Nat) : Option Region :=
  let rs := d.mem.regions.filter (fun r => r.kind == 6)
  match rs.find? (fun r => r.inst == n) with
  | some r => some r
  | none => rs.find? (fun r => r.inst == 0)

/-- Base of the work-item pool: the program region of the lowest number (Posts and work-item descriptors). -/
def Dev.poolBase (d : Dev) : Nat :=
  match d.mem.regions.filter (fun r => r.kind == 6) with
  | [] => 0
  | r :: rs => (rs.foldl (fun a b => if b.num < a.num then b else a) r).base

/-- The first address after the pool and the blobs already placed in a region; blobs are placed upward. -/
def Dev.blobBase (d : Dev) (r : Region) : Nat :=
  let start := if r.base = d.poolBase then r.base + 131072 * 384 else r.base
  d.eft.programs.foldl (fun m p =>
    if p.blobLen ≠ 0 ∧ r.base ≤ p.blobBase ∧ p.blobBase < r.base + r.size then
      max m (p.blobBase + ceilDiv p.blobLen 64 * 64) else m) start

/-- The rules of R335 and R336 on an image for an owner: the offset of the first one broken. `crcOk` is the CRC of the
header's last word. -/
def Dev.checkLoader (d : Dev) (n : Nat) (img : List Byte) (crcOk : Bool) : Option Nat :=
  let segs := leAt 6 2 img
  let tasks := leAt 8 2 img
  let sl := (List.range segs).map (segAt img)
  let groups := (List.range tasks).map (fun k => leAt (64 + 16 * segs + 32 * k + 4) 1 img)
  let shared := sl.any (fun s => s.kind == 1 || s.kind == 2)
  let taskCheck := fun k =>
    let o := 64 + 16 * segs + 32 * k
    let e := leAt o 4 img
    [(e % 4 == 0 && sl.any (fun s => decide (s.kind < 2 ∧ s.addr ≤ e ∧ e < s.addr + s.len)), o),
     (d.groupOwner (leAt (o + 4) 1 img) == some n, o + 4),
     (decide ((if n = 0 then 0 else d.rd .EFT_INS_CFG_MAX_PRIO n) ≤ leAt (o + 5) 1 img ∧ leAt (o + 5) 1 img ≤ 15), o + 5),
     (decide (leAt (o + 6) 1 img < 16), o + 6), (decide (leAt (o + 7) 1 img < 32), o + 7),
     (decide (1 ≤ leAt (o + 8) 2 img ∧ leAt (o + 8) 2 img ≤ 256), o + 8), (leAt (o + 10) 2 img == 0, o + 10),
     (decide (leAt (o + 0x10) 4 img < 2 ^ 24) && (!bitOf 2 (leAt (o + 6) 1 img) || leAt (o + 0x10) 4 img != 0), o + 0x10),
     (allZero (sliceB (o + 0x18) 8 img), o + 0x18)]
  let segCheck := fun k =>
    let o := 64 + 16 * k
    let s := segAt img k
    [(decide (s.kind < 4), o), (allZero (sliceB (o + 1) 3 img), o + 1),
     (decide (s.len % 4 = 0) && segFits s.kind s.addr s.len, o + 4),
     (decide (leAt (o + 12) 4 img + s.len ≤ img.length), o + 12)]
  firstFault
    ([(leAt 0 4 img == 0x4E525645, 0), (leAt 4 1 img == 1, 4), (leAt 5 1 img == 0, 5),
      (decide (1 ≤ segs ∧ segs ≤ 16), 6), (decide (1 ≤ tasks ∧ tasks ≤ 4096), 8), (leAt 10 2 img == 0, 10),
      (decide (leAt 12 4 img ≤ 2 ^ 26) && leAt 12 4 img == img.length, 12),
      (leAt 16 8 img != 0 && !d.eft.programs.any (fun p => p.inst == n && p.id == leAt 16 8 img), 16),
      (leAt 0x38 4 img == 0, 0x38), (crcOk, 0x3C)] ++
     (List.range segs).flatMap segCheck ++ (List.range tasks).flatMap taskCheck ++
     [(decide ((sl.filter (fun s => s.kind == 3)).length ≤ 1), 6),
      (!shared || groups.all (fun g => (d.groupCores g).all (fun c => d.clutchExclusive (c / 8))), 6),
      (sl.all (fun s => d.eft.programs.all (fun p =>
        !p.groups.any (fun g => groups.contains g) || p.segs.all (fun q => !segOverlap s q))), 6),
      (decide ((d.eft.programs.filter (fun p => p.inst == n)).foldl (fun m p => m + p.tasks.length) 0 + tasks
        ≤ d.rd .INS_QUOTA_TASKS n), 8),
      (match sl.find? (fun s => s.kind == 3), d.programRegion n with
        | some s, some r => decide (d.blobBase r + s.len ≤ r.base + r.size)
        | some _, none => false
        | none, _ => true, 6)])

/-- The lowest FREE task numbers (R336). -/
def Dev.freeTasks (d : Dev) (n : Nat) : Nat → Nat → List Nat
  | 0, _ => []
  | fuel + 1, t =>
    if n = 0 then []
    else if d.rd .EFT_TASK_CFG_STATE t = 0 then t :: d.freeTasks (n - 1) fuel (t + 1)
    else d.freeTasks n fuel (t + 1)

/-- Create the record of one task from its entry (R335). -/
def Dev.createTask (d : Dev) (n : Nat) (img : List Byte) (t o : Nat) : Dev :=
  let m := leAt (o + 6) 1 img
  let d := (d.wr .EFT_TASK_ENTRY (leAt o 4 img / 4) t).wr .EFT_TASK_CFG_GROUP (leAt (o + 4) 1 img) t
  let d := (d.wr .EFT_TASK_CFG_PRIORITY (leAt (o + 5) 1 img) t).wr .EFT_TASK_CFG_MODE (m % 2) t
  let d := (d.wr .EFT_TASK_CFG_PERIODIC (m / 2 % 2) t).wr .EFT_TASK_CFG_DFLAG (leAt (o + 7) 1 img) t
  let d := (d.wr .EFT_TASK_CFG_CONCURRENCY (leAt (o + 8) 2 img) t).wr .EFT_TASK_MASK (leAt (o + 12) 4 img) t
  let d := (d.wr .EFT_TASK_DELAY (leAt (o + 16) 4 img) t).wr .EFT_TASK_BUDGET (leAt (o + 20) 4 img) t
  let d := (d.wr .EFT_TASK_INFO_INSTANCE n t).wr .EFT_TASK_FLAGS 0 t
  let d := d.setTask t taskInit
  let d := d.wr .EFT_TASK_CFG_STATE (if bitOf 3 m then 2 else 1) t
  if bitOf 2 m then d.startDelay t else d

/-- Create the records of a program's tasks, in entry order. -/
def Dev.createTasks (d : Dev) (n : Nat) (img : List Byte) (o : Nat) : List Nat → Dev
  | [] => d
  | t :: ts => (d.createTask n img t o).createTasks n img (o + 32) ts

/-- Write a program's text to every core of its groups. -/
def Dev.loadOnCores (d : Dev) (segs : List Segment) : List Nat → Dev
  | [] => d
  | c :: cs => (d.loadSegs c segs).loadOnCores segs cs

/-- PROGRAM_LOAD (R335, R336): the load of a staged image for an owner, or its refusal with 0x9011. The second result
is the outcome. -/
def Dev.loadProgram (d : Dev) (n : Nat) (img : List Byte) (crcOk : Bool) : Dev × Bool :=
  let id := leAt 16 8 img
  match d.checkLoader n img crcOk with
  | some o => (d.raiseI n 0x9011 [(1, n), (8, id), (1, Config.loadCause o), (4, o)], false)
  | none =>
    let segs := leAt 6 2 img
    let tasks := leAt 8 2 img
    let sl := (List.range segs).map (segAt img)
    let groups := ((List.range tasks).map (fun k => leAt (64 + 16 * segs + 32 * k + 4) 1 img)).eraseDups
    let ts := d.freeTasks tasks 65536 0
    if ts.length < tasks then (d.raiseI n 0x9011 [(1, n), (8, id), (1, Config.loadCause 8), (4, 8)], false)
    else
      let blob := (sl.find? (fun s => s.kind == 3)).map (fun s => s.bytes)
      let bb := match blob, d.programRegion n with | some _, some r => d.blobBase r | _, _ => 0
      let d := match blob with | some bs => d.store bb bs | none => d
      let auto := (List.range tasks).filterMap (fun k =>
        if bitOf 2 (leAt (64 + 16 * segs + 32 * k + 6) 1 img) then ts[k]? else none)
      let prog : Program := ⟨n, id, sliceB 0x18 32 img, ts, groups, sl.filter (fun s => s.kind != 3), bb,
        (blob.map List.length).getD 0, auto, false⟩
      let d := d.loadOnCores prog.segs (groups.flatMap d.groupCores)
      let d := { d with eft.programs := d.eft.programs ++ [prog] }
      let d := d.createTasks n img (64 + 16 * segs) ts
      (d.raiseI n 0x9010 [(1, n), (8, id), (2, ts.headD 0), (2, ts.getLastD 0)], true)

/-- Put a program's tasks in DELETING and discard their posts (R337, R321). -/
def Dev.deleteTasks (d : Dev) : List Nat → Dev
  | [] => d
  | t :: ts => ((d.cancelTask t).wr .EFT_TASK_CFG_STATE 3 t |>.refreshTask t).deleteTasks ts

/-- PROGRAM_UNLOAD (R337). -/
def Dev.unloadProgram (d : Dev) (n id : Nat) : Dev :=
  match d.eft.programs.find? (fun p => p.inst == n && p.id == id) with
  | none => d
  | some p =>
    { d.deleteTasks p.tasks with
      eft.programs := d.eft.programs.map (fun q => if q.inst = n ∧ q.id = id then { q with unloading := true } else q) }

/-- The registers of a task record return to FREE. -/
def Dev.freeTask (d : Dev) (t : Nat) : Dev :=
  let fs : List Fld := [.EFT_TASK_CFG_STATE, .EFT_TASK_CFG_PRIORITY, .EFT_TASK_CFG_GROUP, .EFT_TASK_CFG_MODE,
    .EFT_TASK_CFG_PERIODIC, .EFT_TASK_CFG_DELAY_ON, .EFT_TASK_CFG_DFLAG, .EFT_TASK_ENTRY, .EFT_TASK_MASK,
    .EFT_TASK_FLAGS, .EFT_TASK_DELAY, .EFT_TASK_BUDGET, .EFT_TASK_INFO_INSTANCE, .EFT_TASK_INFO_RUNNING]
  (fs.foldl (fun d f => d.wr f 0 t) (d.wr .EFT_TASK_CFG_CONCURRENCY 1 t)).setTask t taskInit

/-- Free tasks. -/
def Dev.freeAll (d : Dev) : List Nat → Dev
  | [] => d
  | t :: ts => (d.freeTask t).freeAll ts

/-- When no work item of an unloading program runs, its records and memory are freed, with 0x9012 (R337). -/
def Dev.unloadDone (d : Dev) (n id : Nat) : Dev :=
  match d.eft.programs.find? (fun p => p.inst == n && p.id == id && p.unloading) with
  | none => d
  | some p =>
    if p.tasks.all (fun t => d.rd .EFT_TASK_INFO_RUNNING t == 0) then
      let d := { d.freeAll p.tasks with eft.programs := d.eft.programs.filter (fun q => !(q.inst == n && q.id == id)) }
      d.raiseI n 0x9012 [(1, n), (8, id)]
    else d

end Sys2Proof.Machine
end

