-- ==== Sys2Proof/Machine/Check.lean ====
section
/-! DEFINITION. Check units: the CRC algorithms, the alive test and the check engines (spec/12_check.md). -/
namespace Sys2Proof.Machine

/-! ## Algorithms (R364) -/

/-- The algorithms of the table CRC algorithms, numbered as ALG. -/
inductive Crc
  | crc32c
  | crc64
  | crc16
deriving DecidableEq, Repr

/-- Width in bits. -/
def Crc.width : Crc → Nat
  | .crc32c => 32
  | .crc64 => 64
  | .crc16 => 16

/-- Initial value. -/
def Crc.init : Crc → Nat
  | .crc32c => 0xFFFFFFFF
  | .crc64 => 0xFFFFFFFFFFFFFFFF
  | .crc16 => 0

/-- Final XOR. -/
def Crc.final : Crc → Nat
  | .crc32c => 0xFFFFFFFF
  | .crc64 => 0xFFFFFFFFFFFFFFFF
  | .crc16 => 0

/-- ALG of a check context. -/
def Crc.ofAlg : Nat → Crc
  | 1 => .crc64
  | 2 => .crc16
  | _ => .crc32c

/-- One bit of a reflected register: the polynomial with its bits reversed. -/
def crcStepR (poly r : Nat) : Nat := if r % 2 = 1 then Nat.xor (r / 2) poly else r / 2

/-- One bit of the unreflected 16-bit register. -/
def crcStepL (r : Nat) : Nat := if 32768 ≤ r then Nat.xor (r * 2 % 65536) 0x8BB7 else r * 2

/-- Apply a step `n` times. -/
def iter {α : Type} (f : α → α) : Nat → α → α
  | 0, x => x
  | n + 1, x => iter f n (f x)

/-- One byte into the register. 0x82F63B78 is 0x1EDC6F41 reversed, 0x9A6C9329AC4BC9B5 is 0xAD93D23594C93659 reversed. -/
def Crc.byte (k : Crc) (r : Nat) (b : Byte) : Nat :=
  match k with
  | .crc32c => iter (crcStepR 0x82F63B78) 8 (Nat.xor r b.toNat)
  | .crc64 => iter (crcStepR 0x9A6C9329AC4BC9B5) 8 (Nat.xor r b.toNat)
  | .crc16 => iter crcStepL 8 (Nat.xor r (b.toNat * 256))

/-- The running value after more bytes. -/
def Crc.feed (k : Crc) (r : Nat) : List Byte → Nat
  | [] => r
  | b :: bs => k.feed (k.byte r b) bs

/-- The check value of a byte string. -/
def Crc.value (k : Crc) (bs : List Byte) : Nat := Nat.xor (k.feed k.init bs) k.final

/-- CRC-32C of a byte string. -/
def crc32c (bs : List Byte) : Nat := Crc.crc32c.value bs

/-! ## Alive test (R370, R371) -/

/-- Alive state of a stream that has seen nothing. -/
def aliveInit : Alive := ⟨false, 0, [], 0, 0⟩

/-- Alive state of stream `n`. -/
def Dev.aliveOf (d : Dev) (n : Nat) : Alive := amGet aliveInit n d.chk.alive
/-- Replace it. -/
def Dev.setAlive (d : Dev) (n : Nat) (x : Alive) : Dev := { d with chk.alive := amSet aliveInit n x d.chk.alive }

/-- A moves to `v`; values that fall out of the window are forgotten. -/
def Alive.advance (x : Alive) (w v : Nat) : Alive :=
  { x with started := true, a := v, seen := v :: x.seen.filter (fun y => decide (modDiff 16 v y < w)), runLen := 0 }

/-- The alive test of one packet; the Boolean says whether it is accepted. -/
def Dev.aliveTest (d : Dev) (n v : Nat) : Dev × Bool :=
  let x := d.aliveOf n
  let w := d.rd .CHK_ALIVE_CFG_ALIVE_WINDOW
  if !x.started then (d.setAlive n ⟨true, v, [v], 0, 0⟩, true)
  else
    let fwd := modDiff 16 v x.a
    if 1 ≤ fwd ∧ fwd ≤ 32767 then
      let d := if 2 ≤ fwd then d.cnt .CHK_ALIVE_CNT_GAP n (fwd - 1) else d
      (d.setAlive n (x.advance w v), true)
    else
      let back := modDiff 16 x.a v
      if back < w then
        if x.seen.contains v then
          let d := (d.cnt .CHK_ALIVE_CNT_REPEAT n).setAlive n { x with runLen := 0 }
          (d.raiseSec (d.rd .CAP_STREAM_CFG_INSTANCE n) 0xB002 n [(2, n), (2, v), (2, x.a)], false)
        else (d.setAlive n { x with seen := v :: x.seen, runLen := 0 }, true)
      else
        let run := if 0 < x.runLen ∧ v = (x.runLast + 1) % 65536 then x.runLen + 1 else 1
        if run ≥ d.rd .CHK_ALIVE_CFG_ALIVE_RESYNC then
          let d := (d.cnt .CHK_ALIVE_CNT_RESYNCS n).setAlive n ⟨true, v, [v], 0, 0⟩
          (d.raiseI (d.rd .CAP_STREAM_CFG_INSTANCE n) 0xB003 [(2, n), (2, x.a), (2, v)], true)
        else
          ((d.cnt .CHK_ALIVE_CNT_OLD n).setAlive n { x with runLen := run, runLast := v }, false)

/-! ## Check engines (R379–R383) -/

/-- May the agent reach context `i` (R379)? -/
def Dev.ctxReach (d : Dev) (ag : Agent) (i : Nat) : Bool :=
  match ag with
  | .core _ => d.ownerOf ag == some (d.rd .CHK_CTX_CFG_INSTANCE i)
  | _ => true

/-- An access that R379 refuses. -/
def Dev.ctxRefuse (d : Dev) (ag : Agent) (i : Nat) : Dev := d.raise 0xB030 [(2, i / 64), (2, i % 64), (2, agCode ag)]

/-- The algorithm of a context. -/
def Dev.ctxAlg (d : Dev) (i : Nat) : Crc := Crc.ofAlg (d.rd .CHK_CTX_CFG_ALG i)

/-- The running value of a context. -/
def Dev.ctxVal (d : Dev) (i : Nat) : Nat := d.rd64 .CHK_CTX_VAL_LO .CHK_CTX_VAL_HI i

/-- The finalised value of a context (R380). -/
def Dev.ctxRes (d : Dev) (i : Nat) : Nat := Nat.xor (d.ctxVal i) (d.ctxAlg i).final

/-- The notification that ends an operation (R381). -/
def Dev.ctxNotify (d : Dev) (i : Nat) (notify : Bool) (flag task : Nat) : Dev :=
  if notify then d.notify (d.rd .CHK_CTX_CFG_INSTANCE i) task flag else d

/-- A GO on a context: refused for a foreign agent, ignored while BUSY with BUSY_CNT counted, ignored on a retired
engine (R379, R381, R383). -/
def Dev.ctxGo (d : Dev) (ag : Agent) (i : Nat) (f : Dev → Dev) : Dev :=
  if !d.ctxReach ag i then d.ctxRefuse ag i
  else if d.rd .CHK_CTX_CFG_STATE i = 1 then d.cnt .CHK_CTX_BUSY_CNT i
  else if d.rd .CHK_CTX_CFG_STATE i = 3 then d
  else f d

/-- INIT (R380). -/
def Dev.ctxInit (d : Dev) (i : Nat) (notify : Bool) (flag task : Nat) : Dev :=
  ((d.wr64 .CHK_CTX_VAL_LO .CHK_CTX_VAL_HI (d.ctxAlg i).init i).wr .CHK_CTX_CFG_STATE 0 i).ctxNotify i notify flag task

/-- SET (R380): the running value becomes the value written in VAL. -/
def Dev.ctxSet (d : Dev) (i : Nat) (notify : Bool) (flag task : Nat) : Dev :=
  ((d.wr64 .CHK_CTX_VAL_LO .CHK_CTX_VAL_HI (amGet 0 i d.chk.operand) i).wr .CHK_CTX_CFG_STATE 0 i).ctxNotify i notify
    flag task

/-- FEED starts (R380, R381). -/
def Dev.ctxFeed (d : Dev) (i : Nat) (notify : Bool) (flag task : Nat) : Dev :=
  let own := d.rd .CHK_CTX_CFG_INSTANCE i
  let f : Feed := ⟨d.ctxVal i, d.rd64 .CHK_CTX_SRC_LO .CHK_CTX_SRC_HI i, d.rd .CHK_CTX_LEN i, notify, flag, task, own,
    d.gen own⟩
  { d with chk.feeds := amPut i f d.chk.feeds }.wr .CHK_CTX_CFG_STATE 1 i

/-- An operation's end in FAULT: the running value of its GO returns (R381). -/
def Dev.feedFault (d : Dev) (i : Nat) (f : Feed) : Dev :=
  ((d.wr64 .CHK_CTX_VAL_LO .CHK_CTX_VAL_HI f.saved i).wr .CHK_CTX_CFG_STATE 2 i).ctxNotify i f.notify f.flag f.task

/-- Contexts of an engine. -/
def ctxsOf (e : Nat) : List Nat := (List.range 64).map (fun c => e * 64 + c)

/-- Set a field at each index. -/
def Dev.wrAll (d : Dev) (f : Fld) (v : Nat) : List Nat → Dev
  | [] => d
  | i :: is => (d.wr f v i).wrAll f v is

/-- Retire a check engine (R383). -/
def Dev.retireCheck (d : Dev) (e : Nat) : Dev :=
  let left := d.rd .CHK_STATUS_ENGINES - 1
  let d := { d with chk.feeds := d.chk.feeds.filter (fun p => p.1 / 64 != e) }
  let d := (d.wrAll .CHK_CTX_CFG_STATE 3 (ctxsOf e)).wr .CHK_STATUS_ENGINES left
  (d.raise 0xB042 [(2, e), (4, left)]).degrade 4 e

/-- Times within a window of hours before now. -/
def Dev.recent (d : Dev) (hours : Nat) (ts : List Nat) : List Nat :=
  ts.filter (fun t => decide (d.now ≤ t + hours * 3600000000000))

/-- A lasting fault of a check engine (R383): three within 24 hours retire it. -/
def Dev.checkLasting (d : Dev) (e : Nat) : Dev :=
  let ts := d.recent 24 (amGet [] e d.chk.lastingAt) ++ [d.now]
  let d := { d with chk.lastingAt := amSet [] e ts d.chk.lastingAt }
  let d := d.raise 0xB041 [(2, e), (4, ts.length)]
  if ts.length ≥ 3 then d.retireCheck e else d

/-- FEED_DONE (R381, R383). A memory refusal or poisoned data, or a lasting fault, ends in FAULT. -/
def Dev.feedDone (d : Dev) (i : Nat) (fault : FaultClass) : Dev :=
  match amFind i d.chk.feeds with
  | none => d
  | some f =>
    let d := { d with chk.feeds := amDel i d.chk.feeds }
    let e := i / 64
    let d := if fault = .transient then d.raise 0xB040 [(2, e)] else d
    if fault = .lasting then (d.feedFault i f).checkLasting e
    else if !d.memAllowed f.inst f.src f.len || d.poisoned f.src f.len || d.gen f.inst != f.gen then d.feedFault i f
    else
      let v := (d.ctxAlg i).feed f.saved (d.readMem f.src f.len)
      ((d.wr64 .CHK_CTX_VAL_LO .CHK_CTX_VAL_HI v i).wr .CHK_CTX_CFG_STATE 0 i).ctxNotify i f.notify f.flag f.task

/-- Engine reset of a check engine (R384): every context is lost. Fields that survive E keep their values. -/
def Dev.checkReset (d : Dev) (e : Nat) : Dev :=
  let fs : List Fld := [.CHK_CTX_CFG_INSTANCE, .CHK_CTX_CFG_ALG, .CHK_CTX_CFG_MODE, .CHK_CTX_CFG_STATE, .CHK_CTX_SRC_LO,
    .CHK_CTX_SRC_HI, .CHK_CTX_LEN, .CHK_CTX_VAL_LO, .CHK_CTX_VAL_HI, .CHK_CTX_RES_LO, .CHK_CTX_RES_HI, .CHK_CTX_BUSY_CNT]
  let retired := d.rd .CHK_CTX_CFG_STATE (e * 64) == 3
  let d := { d with chk.feeds := d.chk.feeds.filter (fun p => p.1 / 64 != e)
                    chk.operand := d.chk.operand.filter (fun p => p.1 / 64 != e) }
  let d := fs.foldl (fun d f => d.wrAll f 0 (ctxsOf e)) d
  let d := d.dropPairs (fun f i => fs.contains f && i / 64 == e)
  if retired then d.wrAll .CHK_CTX_CFG_STATE 3 (ctxsOf e) else d

end Sys2Proof.Machine
end

