-- ==== Sys2Proof/Machine/Gecko.lean ====
section
/-! DEFINITION. Gecko: entries, search, step-through, updates and ordered insertion, faults and clearing
(spec/08_gecko.md). -/
namespace Sys2Proof.Machine

/-- An entry after the build: invalid, all zero (R276). -/
def gInit : GEntry := ⟨0, 0, 0, false, false, false, false⟩

/-- The entry at a global index. -/
def Dev.gent (d : Dev) (i : Nat) : GEntry := amGet gInit i d.gk.entries
/-- Replace it. -/
def Dev.setGent (d : Dev) (i : Nat) (e : GEntry) : Dev := { d with gk.entries := amSet gInit i e d.gk.entries }

/-- Parity over V, C and RESULT. -/
def parityOf (v c : W128) (r : W32) : Bool :=
  (List.range 128).foldl (fun b k => b != (v.getLsbD k != c.getLsbD k)) false !=
  (List.range 32).foldl (fun b k => b != r.getLsbD k) false

/-- An entry matches (R259): valid, not a shadow, not disabled, and equal wherever both masks compare. -/
def GEntry.hits (e : GEntry) (k s : W128) : Bool :=
  e.valid && !e.shadow && !e.disabled && ((k ^^^ e.v) &&& e.c &&& s) == 0

/-- First index of a partition. -/
def Dev.pFirst (d : Dev) (p : Nat) : Nat := d.rd .GKO_PART_BASE_FIRST p
/-- Entries of a partition. -/
def Dev.pCount (d : Dev) (p : Nat) : Nat := d.rd .GKO_PART_SIZE p
/-- Is the partition in the active image? -/
def Dev.pPresent (d : Dev) (p : Nat) : Bool := d.rd .GKO_PART_BASE_PRESENT p == 1

/-- Does a global index lie in what a search of partition `p` covers: its range, and while it moves the new range too
(R260, R275)? -/
def Dev.inPart (d : Dev) (p i : Nat) : Bool :=
  let n := d.pCount p
  let within := fun f => decide (f ≤ i ∧ i < f + n)
  within (d.pFirst p) || d.gk.moves.any (fun m => m.part == p && within m.newFirst)

/-- The matches of a search in ascending global index (R259, R260). -/
def Dev.matches_ (d : Dev) (p : Nat) (k s : W128) : List Nat :=
  (d.gk.entries.filter (fun x => d.inPart p x.1 && x.2.hits k s)).map (·.1)

/-- The partition that holds a global index. -/
def Dev.partAt (d : Dev) (i : Nat) : Option Nat :=
  (List.range 64).find? (fun p => d.pPresent p && decide (d.pFirst p ≤ i ∧ i < d.pFirst p + d.pCount p))

/-! ## Faults (R278, R279) -/

/-- A lasting parity fault at a global index: the entry is lost and its position remapped, or disabled when the bank has
no spare left. -/
def Dev.gkLose (d : Dev) (i : Nat) : Dev :=
  let bank := i / 65536
  let used := amGet 0 bank d.gk.sparesUsed
  match d.partAt i with
  | none => d
  | some p =>
    let pos := i - d.pFirst p
    let d := (d.setGent i { d.gent i with valid := false }).cnt .GKO_PART_LOST p
    if used < 128 then
      let d := { d with gk.sparesUsed := amSet 0 bank (used + 1) d.gk.sparesUsed }
      let d := if 128 - (used + 1) < d.rd .GKO_SPARES_FEWEST_SPARES then
          d.wr .GKO_SPARES_FEWEST_SPARES (128 - (used + 1)) else d
      d.raise 0x7041 [(1, p), (2, pos), (4, 128 - (used + 1))]
    else
      let d := (d.setGent i { d.gent i with disabled := true }).wr .GKO_SPARES_DISABLED (d.rd .GKO_SPARES_DISABLED + 1)
      (d.raise 0x7042 [(1, bank), (2, i)]).degrade 8 bank

/-- A parity error found at a global index, by its class. -/
def Dev.gkParity (d : Dev) (i : Nat) (f : FaultClass) : Dev :=
  match f with
  | .none => d
  | .transient =>
    match d.partAt i with
    | none => d
    | some p => (d.cnt .GKO_CNT_TRANSIENT).raise 0x7040 [(1, p), (2, i - d.pFirst p)]
  | .lasting => d.gkLose i

/-- The background pass over entries with the errors it found (R278). -/
def Dev.parityScan (d : Dev) : List (Nat × FaultClass) → Dev
  | [] => d
  | (i, f) :: fs => (d.gkParity i f).parityScan fs

/-! ## The context interface (R264) -/

/-- Which agent reaches a context: its own core, the steward; register messages use context 275. -/
def ctxMine (ag : Agent) (x : Nat) : Bool :=
  match ag with
  | .core c => c.val == x
  | .steward => true
  | .manager => x == 275

/-- A refused access to a context. -/
def Dev.gkRefuse (d : Dev) (ag : Agent) (x : Nat) : Dev :=
  (d.cnt .GKO_CNT_CONTEXT_REFUSED).raise 0x7020 [(2, x), (2, agCode ag)]

/-- The owner of the core of a context; contexts 272 and up may name any partition. -/
def Dev.ctxOwnerOk (d : Dev) (x p : Nat) : Bool :=
  272 ≤ x || (d.core x).wi.map (·.inst) == some (d.rd .GKO_PART_BASE_INSTANCE p)

/-- NO_PARTITION, NO_ACCESS or OK for a partition named by a context. -/
def Dev.partCode (d : Dev) (x p : Nat) : Nat :=
  if !d.pPresent p then 2 else if !d.ctxOwnerOk x p then 1 else 0

/-- Four words, lowest first, as one 128-bit value. -/
def Dev.wide (d : Dev) (f : Fld) (x : Nat) : W128 :=
  BitVec.ofNat 128 (d.rd f (x * 4) + 2 ^ 32 * d.rd f (x * 4 + 1) + 2 ^ 64 * d.rd f (x * 4 + 2) +
    2 ^ 96 * d.rd f (x * 4 + 3))

/-- Write a 128-bit value into four words. -/
def Dev.setWide (d : Dev) (f : Fld) (x : Nat) (v : W128) : Dev :=
  (((d.wr f (v.toNat % 2 ^ 32) (x * 4)).wr f (v.toNat / 2 ^ 32) (x * 4 + 1)).wr f (v.toNat / 2 ^ 64) (x * 4 + 2)).wr f
    (v.toNat / 2 ^ 96) (x * 4 + 3)

/-- SRCH_STATUS and SRCH_RESULT. -/
def Dev.srchStatus (d : Dev) (x : Nat) (hit multi handle : Bool) (code pos res : Nat) : Dev :=
  ((((((d.wr .SRCH_STATUS_DONE 1 x).wr .SRCH_STATUS_HIT (b2n hit) x).wr .SRCH_STATUS_MULTI (b2n multi) x).wr
    .SRCH_STATUS_HANDLE (b2n handle) x).wr .SRCH_STATUS_CODE code x).wr .SRCH_STATUS_POS pos x).wr .SRCH_RESULT res x

/-- UPD_STATUS. -/
def Dev.updStatus (d : Dev) (x code pos : Nat) (down valid dis : Bool) : Dev :=
  (((((d.wr .UPD_STATUS_DONE 1 x).wr .UPD_STATUS_CODE code x).wr .UPD_STATUS_DOWN (b2n down) x).wr
    .UPD_STATUS_VALID (b2n valid) x).wr .UPD_STATUS_DISABLED (b2n dis) x).wr .UPD_STATUS_POS pos x

/-! ## Updates (R268–R272) -/

/-- A position of a partition that is disabled. -/
def Dev.posDisabled (d : Dev) (p pos : Nat) : Bool := (d.gent (d.pFirst p + pos)).disabled

/-- An invalid, not disabled position. -/
def Dev.posFree (d : Dev) (p pos : Nat) : Bool :=
  let e := d.gent (d.pFirst p + pos)
  !e.valid && !e.disabled

/-- The position f of R271: nearest free at or above `p0`, else nearest below. -/
def Dev.freePos (d : Dev) (p p0 : Nat) : Option Nat :=
  match ((List.range (d.pCount p - p0)).map (fun k => p0 + k)).find? (d.posFree p) with
  | some f => some f
  | none => (List.range p0).reverse.find? (d.posFree p)

/-- One move of R272: the entry goes to position `b`, and `a` is invalid. -/
def Dev.moveEntry (d : Dev) (p a b : Nat) : Dev :=
  let f := d.pFirst p
  let e := d.gent (f + a)
  let d := d.setGent (f + b) { e with disabled := (d.gent (f + b)).disabled }
  (d.setGent (f + a) { e with valid := false }).cnt .GKO_CNT_ENTRIES_MOVED

/-- Moves along a chain of positions, each to the one before it in the list. -/
def Dev.moveChain (d : Dev) (p : Nat) : List Nat → Dev
  | b :: a :: rest => (d.moveEntry p a b).moveChain p (a :: rest)
  | _ => d

/-- Write V, C and RESULT at a position. -/
def Dev.writePos (d : Dev) (p pos : Nat) (v c : W128) (r : W32) (valid : Bool) : Dev :=
  let i := d.pFirst p + pos
  d.setGent i ⟨v, c, r, valid, false, parityOf v c r, (d.gent i).disabled⟩

/-- Does an INSERT have to move entries? -/
def Dev.insertMoves (d : Dev) (p pos : Nat) : Bool :=
  match d.freePos p pos with
  | some f => f != pos
  | none => false

/-- INSERT (R271). Disabled positions are passed over and keep their place. -/
def Dev.runInsert (d : Dev) (u : HeldUpdate) : Dev :=
  let p := u.part
  let n := d.pCount p
  if u.pos > n then d.updStatus u.ctx 3 u.pos false false false
  else if u.pos < n ∧ d.posDisabled p u.pos then d.updStatus u.ctx 6 u.pos false false true
  else
    match d.freePos p u.pos with
    | none => d.updStatus u.ctx 5 u.pos false false false
    | some f =>
      let span := fun lo hi => ((List.range (hi + 1 - lo)).map (fun k => lo + k)).filter (fun q => !d.posDisabled p q)
      if u.pos ≤ f then
        let d := (d.moveChain p (span u.pos f).reverse).writePos p u.pos u.v u.c u.res true
        (d.updStatus u.ctx 0 u.pos false false false).wr .UPD_FREE f u.ctx
      else
        let chain := span f (u.pos - 1)
        let t := chain.getLastD f
        let d := (d.moveChain p chain).writePos p t u.v u.c u.res true
        (d.updStatus u.ctx 0 t true false false).wr .UPD_FREE f u.ctx

/-- The steward's copy of the entries of USER 0 and USER 1 partitions (R276). -/
def Dev.gkSync (d : Dev) (x p : Nat) : Dev :=
  if 272 ≤ x ∧ d.rd .GKO_PART_BASE_USER p < 2 then
    { d with gk.copy := d.gk.entries.filter (fun q => match d.partAt q.1 with
        | some k => decide (d.rd .GKO_PART_BASE_USER k < 2) | none => false) }
  else d

/-- Carry out an update whose partition is reachable (R268). -/
def Dev.runUpdate (d : Dev) (u : HeldUpdate) : Dev :=
  let p := u.part
  let x := u.ctx
  if u.op = 3 then (d.runInsert u).gkSync x p
  else if u.pos ≥ d.pCount p then d.updStatus x 3 u.pos false false false
  else
    let i := d.pFirst p + u.pos
    let e := d.gent i
    match u.op with
    | 0 => ((d.setGent i { e with valid := false }).updStatus x 0 u.pos false false false).gkSync x p
    | 1 =>
      if e.disabled then d.updStatus x 6 u.pos false false true
      else if e.valid then d.updStatus x 4 u.pos false false false
      else ((d.writePos p u.pos u.v u.c u.res false).updStatus x 0 u.pos false false false).gkSync x p
    | 2 => ((d.setGent i { e with valid := true }).updStatus x 0 u.pos false false false).gkSync x p
    | 4 =>
      let d := ((d.setWide .CTX_VAL x e.v).setWide .CTX_CARE x e.c).wr .CTX_ERESULT e.res.toNat x
      d.updStatus x 0 u.pos false e.valid e.disabled
    | 5 =>
      if e.disabled then d.updStatus x 6 u.pos false false true
      else ((d.writePos p u.pos u.v u.c u.res true).updStatus x 0 u.pos false false false).gkSync x p
    | _ => d

/-- Is an open handle on the partition (R274)? -/
def Dev.handleOn (d : Dev) (p : Nat) : Bool := d.gk.handles.any (fun h => h.2.part == p && !h.2.expired)

/-- May the update run now (R270, R274, R275)? -/
def Dev.canRun (d : Dev) (u : HeldUpdate) : Bool :=
  !d.gk.moves.any (fun m => m.part == u.part) && !(u.op == 3 && d.handleOn u.part && d.insertMoves u.part u.pos)

/-- Run the waiting updates in the order of their GO writes; those of a partition stay behind one that still waits. -/
def Dev.resumeAll (d : Dev) (stuck : List Nat) : List HeldUpdate → Dev
  | [] => d
  | u :: us =>
    if !stuck.contains u.part && d.canRun u then
      { d.runUpdate u with gk.updates := (d.runUpdate u).gk.updates.filter (fun w => w != u) }.resumeAll stuck us
    else d.resumeAll (u.part :: stuck) us

/-- Let waiting updates go on after a handle closed or a partition move ended. -/
def Dev.gkResume (d : Dev) : Dev := d.resumeAll [] d.gk.updates

/-- A GO on UPD_CMD (R264, R265, R268, R270). -/
def Dev.update (d : Dev) (ag : Agent) (x op p pos : Nat) : Dev :=
  if !ctxMine ag x then d.gkRefuse ag x
  else if d.gk.updates.any (fun u => u.ctx == x) then d.cnt .GKO_CNT_BUSY_CNT
  else
    let code := d.partCode x p
    if code ≠ 0 then d.updStatus x code pos false false false
    else
      let u : HeldUpdate := ⟨x, op, p, pos, d.wide .CTX_VAL x, d.wide .CTX_CARE x, BitVec.ofNat 32 (d.rd .CTX_ERESULT x)⟩
      if d.canRun u && !d.gk.updates.any (fun w => w.part == p) then d.runUpdate u
      else { d with gk.updates := d.gk.updates ++ [u] }.wr .UPD_STATUS_DONE 0 x

/-! ## Search and step-through (R259, R260, R273, R274) -/

/-- Close the handle of a context. -/
def Dev.closeHandle (d : Dev) (x : Nat) : Dev := ({ d with gk.handles := amDel x d.gk.handles }).gkResume

/-- What a search or step returns, given the matches it may return: parity of the winner is checked first (R278), and a
lasting fault makes it run once more without that entry. -/
def Dev.winner (d : Dev) (ms : List Nat) (f : FaultClass) : Dev × List Nat :=
  match ms with
  | [] => (d, [])
  | i :: rest =>
    match f with
    | .lasting => (d.gkLose i, rest)
    | f => (d.gkParity i f, i :: rest)

/-- SEARCH on a context. -/
def Dev.search (d : Dev) (ag : Agent) (x p : Nat) (f : FaultClass) : Dev :=
  if !ctxMine ag x then d.gkRefuse ag x
  else
    let d := d.closeHandle x
    let code := d.partCode x p
    if code ≠ 0 then d.srchStatus x false false false code 0 0
    else
      let k := d.wide .CTX_KEY x
      let s := d.wide .CTX_SMASK x
      let d := d.cnt64 .GKO_SEARCHES_LO .GKO_SEARCHES_HI 0 1
      let (d, ms) := d.winner (d.matches_ p k s) f
      match ms with
      | [] => d.srchStatus x false false false 0 0 0
      | i :: rest =>
        let multi := !rest.isEmpty
        let pos := i - d.pFirst p
        let d := if multi then
            { d with gk.handles := amPut x ⟨p, k, s, pos, d.now, false⟩ d.gk.handles } else d
        d.srchStatus x true multi multi 0 pos (d.gent i).res.toNat

/-- Has the handle gone without a step for longer than STEP_TIMEOUT_US (R274)? -/
def Dev.handleDue (d : Dev) (h : Handle) : Bool :=
  decide (d.now > h.at_ + d.rd .GKO_CFG_STEP_TIMEOUT_US * 1000)

/-- A handle expires: 0x7011, and waiting moves go on (R274). -/
def Dev.expireHandle (d : Dev) (x : Nat) : Dev :=
  match amFind x d.gk.handles with
  | none => d
  | some h =>
    if h.expired || !d.handleDue h then d
    else
      let d := { d with gk.handles := amPut x { h with expired := true } d.gk.handles }
      (d.raise 0x7011 [(2, x), (1, h.part)]).gkResume

/-- NEXT on a context. -/
def Dev.searchNext (d : Dev) (ag : Agent) (x : Nat) : Dev :=
  if !ctxMine ag x then d.gkRefuse ag x
  else
    let d := d.expireHandle x
    match amFind x d.gk.handles with
    | none => d.srchStatus x false false false 7 0 0
    | some h =>
      if h.expired then (d.closeHandle x).srchStatus x false false false 8 0 0
      else if !d.pPresent h.part then (d.closeHandle x).srchStatus x false false false 2 0 0
      else
        let d := d.cnt64 .GKO_SEARCHES_LO .GKO_SEARCHES_HI 0 1
        let ms := (d.matches_ h.part h.key h.mask).filter (fun i => decide (d.pFirst h.part + h.last < i))
        match ms with
        | [] => (d.closeHandle x).srchStatus x false false false 0 0 0
        | i :: rest =>
          let pos := i - d.pFirst h.part
          let r := (d.gent i).res.toNat
          if rest.isEmpty then (d.closeHandle x).srchStatus x true false false 0 pos r
          else
            let d := { d with gk.handles := amPut x { h with last := pos, at_ := d.now } d.gk.handles }
            d.srchStatus x true true true 0 pos r

/-- END on a context. -/
def Dev.searchEnd (d : Dev) (ag : Agent) (x : Nat) : Dev :=
  if !ctxMine ag x then d.gkRefuse ag x
  else
    let d := d.expireHandle x
    match amFind x d.gk.handles with
    | none => d.srchStatus x false false false 7 0 0
    | some h => (d.closeHandle x).srchStatus x false false false (if h.expired then 7 else 0) 0 0

/-! ## Moves of partitions and clearing (R275–R277) -/

/-- A partition move ends: every entry stands at the same position of the new range (R275). -/
def Dev.partMoveDone (d : Dev) (p : Nat) : Dev :=
  match d.gk.moves.find? (fun m => m.part == p) with
  | none => d
  | some m =>
    let n := d.pCount p
    let inOld := fun i => decide (m.oldFirst ≤ i ∧ i < m.oldFirst + n)
    let moved : AMap GEntry := (d.gk.entries.filter (fun q => inOld q.1 && q.2.valid)).map
      (fun q => (q.1 - m.oldFirst + m.newFirst, q.2))
    let cleared : AMap GEntry := d.gk.entries.filterMap (fun q =>
      if inOld q.1 then (if q.2.disabled then some (q.1, { gInit with disabled := true }) else none) else some q)
    let es := moved.foldl (fun t q => amSet gInit q.1 { q.2 with disabled := (amGet gInit q.1 t).disabled } t) cleared
    let d := { d with gk.entries := es, gk.moves := d.gk.moves.filter (fun q => q.part != p) }
    let d := d.cnt .GKO_CNT_ENTRIES_MOVED 0 moved.length
    let d := (d.wr .GKO_PART_BASE_FIRST m.newFirst p).wr .GKO_PART_BASE_MOVING 0 p
    (d.raise 0x7060 [(1, p), (2, m.oldFirst), (2, m.newFirst)]).gkResume

/-- Every entry invalid: warm, cold and power-on reset, Standby (R276). Disabled positions stay disabled. `cause` is the
model's number of the words of event 0x7030. -/
def Dev.gkClear (d : Dev) (cause : Nat) : Dev :=
  let keep : Nat × GEntry → Option (Nat × GEntry) := fun q =>
    if q.2.disabled then some (q.1, { gInit with disabled := true }) else none
  let d := { d with gk.entries := d.gk.entries.filterMap keep
                    gk.handles := [], gk.updates := [], gk.moves := [] }
  d.raise 0x7030 [(1, Config.causeCode cause), (1, 0)]

/-- The steward rewrites its copy of USER 0 and USER 1 entries (R276). -/
def Dev.gkRestore (d : Dev) : Dev :=
  { d with gk.entries := d.gk.copy.foldl (fun t q =>
      amSet gInit q.1 { q.2 with disabled := (amGet gInit q.1 t).disabled } t) d.gk.entries }

/-- Instance reset of owner `n` (R277). `ctxs` are the contexts of its cores. -/
def Dev.gkInstanceReset (d : Dev) (n : Nat) (ctxs : List Nat) : Dev :=
  let d := { d with gk.handles := d.gk.handles.filter (fun h => !ctxs.contains h.1)
                    gk.updates := d.gk.updates.filter (fun u => !ctxs.contains u.ctx) }
  let mine := fun i => match d.partAt i with
    | some p => d.rd .GKO_PART_BASE_USER p == 3 && d.rd .GKO_PART_BASE_INSTANCE p == n
    | none => false
  let es := d.gk.entries.filterMap (fun q =>
    if mine q.1 then (if q.2.disabled then some (q.1, { gInit with disabled := true }) else none) else some q)
  (({ d with gk.entries := es }).raiseI n 0x7030 [(1, Config.causeCode 2), (1, n)]).gkResume

end Sys2Proof.Machine
end

