-- ==== Sys2Proof/Machine/Active.lean ====
section
/-! DEFINITION. What the active structure image says (R43–R56), the shares of the engines (R386–R390), the headgate's
Gecko searches (R261–R263), and the sluices (R490). -/
namespace Sys2Proof.Machine

/-- The records of a section of the active image; none where it is absent. -/
def Dev.secRecs (d : Dev) (type : Nat) : List (List Byte) :=
  match d.img.active with
  | none => []
  | some i => match i.secs.find? (fun s => s.type == type) with
    | some s => s.recs
    | none => []

/-- The LANES record of a port. -/
def Dev.lanes (d : Dev) (p : Nat) : Option (List Byte) := (d.secRecs 1).find? (fun r => leAt 0 1 r == p)

/-- FLAGS bit of a port's LANES record: 0 receive check, 1 transmit check, 2 NVMe/TCP, 3 KFSP. -/
def Dev.laneFlag (d : Dev) (p k : Nat) : Bool :=
  match d.lanes p with
  | some r => bitOf k (leAt 8 4 r)
  | none => false

/-- OWNER of a port. -/
def Dev.portOwner (d : Dev) (p : Nat) : Nat := match d.lanes p with | some r => leAt 4 1 r | none => 0

/-- MAX_FRAME of a port. -/
def Dev.maxFrame (d : Dev) (p : Nat) : Nat := match d.lanes p with | some r => leAt 6 2 r | none => 0

/-- Do ports carry traffic in this mode (table Operating modes), outside Standby and its exit? -/
def Dev.trafficMode (d : Dev) : Bool :=
  decide (d.rd .AVL_STATUS_MODE ∈ [2, 3, 4]) && !decide (d.rd .AVL_STATUS_POWER_STATE ∈ [1, 3])

/-- Is admission closed on every port: from the request that enters Standby or Maintenance (R436, R443)? -/
def Dev.closed (d : Dev) : Bool := d.mgt.entry.isSome || d.rd .AVL_STATUS_POWER_STATE != 0

/-- Is a port's link up, in a mode in which ports carry traffic? -/
def Dev.portLinked (d : Dev) (p : Nat) : Bool := d.trafficMode && d.rd .NET_PORT_STATUS_UP p == 1

/-- Does a port admit traffic now? -/
def Dev.portUp (d : Dev) (p : Nat) : Bool := d.portLinked p && !d.closed


/-- A frame sent on a port: counted. -/
def Dev.sent (d : Dev) (p wire : Nat) : Dev :=
  (d.cnt64 .NET_CNT_TX_FRAMES_LO .NET_CNT_TX_FRAMES_HI p 1).cnt64 .NET_CNT_TX_BYTES_LO .NET_CNT_TX_BYTES_HI p wire

/-- MIRROR of a port's LANES record: a copy of what the port receives goes out of that port, unless the flume that
mirrors it is down (R27). -/
def Dev.mirrorIn (d : Dev) (p wire : Nat) (bs : List Byte) : Dev :=
  match d.lanes p with
  | none => d
  | some r =>
    let m := leAt 5 1 r
    if m = 0xFF ∨ !d.portUp m then d
    else if d.sys.flumes.any (fun f => f.2.down && f.2.stages.contains (1, p) && f.2.stages.contains (2, m)) then d
    else (d.send (.frame m bs)).sent m wire

/-- RT_PORT_PANIC (R342): the level of a port's receive buffer, in per mille. -/
def Dev.panicLevel (d : Dev) (p pm : Nat) : Dev :=
  if d.rd .MEM_PORT_CFG_PANIC_EN p = 0 then d.wr .MEM_PORT_STAT_PANIC 0 p
  else if d.rd .MEM_PORT_CFG_PANIC_PM p ≤ pm then
    if d.rd .MEM_PORT_STAT_PANIC p = 1 then d
    else (((d.wr .MEM_PORT_STAT_PANIC 1 p).cnt .MEM_PORT_STAT_PANICS p)).raiseSec 0 0xA030 p [(2, p), (1, pm / 10)]
  else if pm ≤ d.rd .MEM_PORT_CFG_CALM_PM p then d.wr .MEM_PORT_STAT_PANIC 0 p
  else d

/-- A frame is counted as received. -/
def Dev.countRx (d : Dev) (p wire : Nat) : Dev :=
  (d.cnt64 .NET_CNT_RX_FRAMES_LO .NET_CNT_RX_FRAMES_HI p 1).cnt64 .NET_CNT_RX_BYTES_LO .NET_CNT_RX_BYTES_HI p wire

/-- A frame arrives on a port: dropped and counted as the table NET_CNT says, or counted, mirrored, and dropped where the
receive buffer cannot place it (R30). The Boolean says whether it goes on. -/
def Dev.receive (d : Dev) (x : Arrival) (bs : List Byte) : Dev × Bool :=
  let p := x.port
  if !d.portUp p then (d, false)
  else match x.fate with
    | .uncorrectable k => (d.cnt .NET_CNT_FEC_UNCORRECTED p k, false)
    | .badFcs => (d.cnt .NET_CNT_RX_BAD p, false)
    | .pause => ((d.countRx p x.wire).cnt .NET_CNT_PAUSE_RX p, false)
    | .good k =>
      let d := if k = 0 then d else d.cnt .NET_CNT_FEC_CORRECTED p k
      if d.maxFrame p < x.wire then (d.cnt .NET_CNT_RX_BAD p, false)
      else
        let d := ((d.countRx p x.wire).mirrorIn p x.wire bs).panicLevel p x.level
        if x.room then (d, true) else (d.cnt .CAP_PORT_DROP_RXBUF p, false)

/-! ## Flumes of the image (R20, R25, R27, R69) -/

/-- The flumes that a test selects, with their numbers. -/
def Dev.flumesWith (d : Dev) (f : Flume → Bool) : List (Nat × Flume) := d.sys.flumes.filter (fun p => f p.2)

/-- Is a flume with such stages down (R25), so that its traffic is lost? -/
def Dev.pathDown (d : Dev) (f : Flume → Bool) : Bool :=
  let fs := d.flumesWith f
  !fs.isEmpty && fs.all (fun p => p.2.down)

/-- Does a flume hold a stage? -/
def Flume.has (f : Flume) (block unit : Nat) : Bool := f.stages.contains (block, unit)

/-- The ingest flume of a stream: the one that names its sluice, else the port's without a stream sluice (R69). -/
def Dev.ingestDown (d : Dev) (p n : Nat) : Bool :=
  if (d.flumesWith (fun f => f.has 1 p && f.has 3 n)).isEmpty then
    d.pathDown (fun f => f.has 1 p && f.stages.any (fun s => s.1 == 4) && !f.stages.any (fun s => s.1 == 3 && s.2 < 4096))
  else d.pathDown (fun f => f.has 1 p && f.has 3 n)

/-- The same for the flumes of an instance, or those of instance 0 where it has none such. -/
def Dev.instPathDown (d : Dev) (inst : Nat) (f : Flume → Bool) : Bool :=
  if (d.flumesWith (fun x => x.inst == inst && f x)).isEmpty then d.pathDown (fun x => x.inst == 0 && f x)
  else d.pathDown (fun x => x.inst == inst && f x)

/-- Does a flume hold a stage of a block? -/
def Flume.through (f : Flume) (block : Nat) : Bool := f.stages.any (fun s => s.1 == block)

/-- A down flume does not carry a parcel (R27). -/
def Dev.refuseParcel (d : Dev) : Dev := d.cnt .SYS_FLUME_LOSS_REFUSED

/-! ## Shares (R386–R390) -/

/-- Is an instance enabled? -/
def Dev.insOn (d : Dev) (n : Nat) : Bool := d.rd .INS_STATUS_ENABLED n == 1

/-- An instance's share of a kind: 0 codec, 1 memory, 2 flash, 3 host admission (its weight, at least 1). -/
def Dev.shareOf (d : Dev) (kind n : Nat) : Nat :=
  match kind with
  | 0 => d.rd .INS_SHARE_CODEC_PM n
  | 1 => d.rd .INS_SHARE_MEMBW_PM n
  | 2 => d.rd .INS_SHARE_FLASHBW_PM n
  | _ => max 1 (d.rd .INS_SHARE_FLASHBW_PM n)

/-- Dies in service. -/
def Dev.diesUp (d : Dev) : Nat := ((List.range 32).map (fun c => d.rd .FLS_CH_STATUS_DIES c)).sum

/-- Capacity of an epoch in ns of engine or die time, or in command slots of a memory channel (R387, R389). The flash
capacity is what GC_FLOOR_PM leaves. -/
def Dev.epochCap (d : Dev) (kind : Nat) : Nat :=
  match kind with
  | 0 => d.rd .CDC_POOL_STATUS_ENGINES * 10000
  | 1 => 10000
  | 2 => d.diesUp * 10000 * (1000 - d.pol.gcFloor) / 1000
  | _ => 0

/-- What an instance used of its credit in this epoch. -/
def Dev.usedOf (d : Dev) (kind n : Nat) : Nat := amGet 0 (kind * 256 + n) d.shr.used

/-- Does an instance still have credit (R387)? -/
def Dev.hasCredit (d : Dev) (kind n : Nat) : Bool :=
  decide (d.usedOf kind n * 1000 < d.shareOf kind n * d.epochCap kind)

/-- The instance with the least `a / b`, the lowest number among equals. -/
def leastRatio (a b : Nat → Nat) : List Nat → Option Nat
  | [] => none
  | n :: ns => match leastRatio a b ns with
    | none => some n
    | some m => if a n * b m < a m * b n ∨ (a n * b m = a m * b n ∧ n < m) then some n else some m

/-- The arbiter's choice among instances that have work (R387). -/
def Dev.arbPick (d : Dev) (kind : Nat) (work : List Nat) : Option Nat :=
  let credit := work.filter (d.hasCredit kind)
  let extra := fun n => amGet 0 (kind * 256 + n) d.shr.extra
  if !credit.isEmpty then leastRatio (d.usedOf kind) (d.shareOf kind) credit
  else
    let some_ := work.filter (fun n => d.shareOf kind n != 0)
    if !some_.isEmpty then leastRatio extra (d.shareOf kind) some_
    else leastRatio extra (fun _ => 1) work

/-- Charge work to an instance (R388). -/
def Dev.charge (d : Dev) (kind n amount : Nat) : Dev :=
  let k := kind * 256 + n
  if d.hasCredit kind n then { d with shr.used := amMod 0 k (· + amount) d.shr.used }
  else { d with shr.extra := amMod 0 k (· + amount) d.shr.extra }

/-! ## The headgate's searches (R261–R263) -/

/-- The lowest-numbered partition of a user owned by an instance. -/
def Dev.hgPart (d : Dev) (user inst : Nat) : Option Nat :=
  (List.range 64).find? (fun p => d.pPresent p && d.rd .GKO_PART_BASE_USER p == user &&
    d.rd .GKO_PART_BASE_INSTANCE p == inst)

/-- The flow-classifier partition of a port's owner (R261). -/
def Dev.flowPart (d : Dev) (owner : Nat) : Option Nat :=
  match d.hgPart 0 owner with
  | some p => some p
  | none => d.hgPart 0 0

/-- The RESULT of the lowest match of a headgate key in a partition, with the partition and its position (R260, R262). -/
def Dev.hgSearch (d : Dev) (part : Option Nat) (key : Nat) : Option (Nat × Nat × Nat) :=
  match part with
  | none => none
  | some p => match d.matches_ p (BitVec.ofNat 128 key) (BitVec.allOnes 128) with
    | [] => none
    | i :: _ => some ((d.gent i).res.toNat, p, i - d.pFirst p)

/-- Searches served are counted (GKO_SEARCHES); without a partition none is made. -/
def Dev.countSearch (d : Dev) (part : Option Nat) (n : Nat) : Dev :=
  match part with
  | none => d
  | some _ => d.cnt64 .GKO_SEARCHES_LO .GKO_SEARCHES_HI 0 n

/-- A flow-classifier key (R262). -/
def flowKey (port l3 proto dport sport source : Nat) : Nat :=
  port * 2 ^ 121 + l3 * 2 ^ 119 + proto * 2 ^ 111 + dport * 2 ^ 95 + sport * 2 ^ 79 + source % 2 ^ 64

/-- The source bits of a flow key: the IPv4 address, the upper 64 bits of the IPv6 address, or the MAC. -/
def NetAddr_source (a : NetAddr) (l3 : Nat) : Nat :=
  match l3 with
  | 1 => a.ip % 2 ^ 32
  | 2 => a.ip / 2 ^ 64
  | 0 => a.mac % 2 ^ 48
  | _ => 0

/-- A headgate result that cannot be used: counted, with 0x7050 once per port and second (R263). -/
def Dev.resultBad (d : Dev) (p part pos : Nat) : Dev :=
  (d.cnt .GKO_CNT_RESULT_BAD).raiseSec 0 0x7050 p [(2, p), (1, part), (2, pos)]

/-- The outcome of classification by the flow classifier: the instance, or nothing when the packet is dropped; a MIRROR
result sends a copy (R262, R263). -/
inductive Verdict
  | toInstance (n : Nat)
  | toSteward
  | drop
deriving DecidableEq, Repr

/-- Classify a packet of a port (R262, R263). -/
def Dev.classify (d : Dev) (p key : Nat) (bytes : List Byte) : Dev × Verdict :=
  let owner := d.portOwner p
  let d := d.countSearch (d.flowPart owner) 1
  match d.hgSearch (d.flowPart owner) key with
  | none => (d, .toInstance owner)
  | some (r, part, pos) =>
    let act := bitsOf 23 21 r
    let mp := bitsOf 19 13 r
    if act > 2 ∨ (bitOf 20 r ∧ !d.portUp mp) then (d.resultBad p part pos, .drop)
    else
      let d := if bitOf 20 r then (d.send (.frame mp bytes)).sent mp bytes.length else d
      (d, match act with | 0 => .toInstance (bitsOf 31 24 r) | 1 => .drop | _ => .toSteward)

/-! ## Sluices (R79, R490) -/

/-- The SLUICES record of a sluice. -/
def Dev.sluiceRec (d : Dev) (n : Nat) : Option (List Byte) := (d.secRecs 7).find? (fun r => leAt 0 2 r == n)

/-- Rate in Mb/s and burst in bytes of a sluice that admits by tokens; none where it admits every packet (R490). -/
def Dev.sluiceRate (d : Dev) (n : Nat) : Option (Nat × Nat) :=
  match d.sluiceRec n with
  | some r =>
    if !bitOf 0 (leAt 2 2 r) then none
    else some (if n < 4096 then leAt 4 4 r else d.rd .INS_SLUICE (n - 4096), leAt 8 4 r * 1024)
  | none =>
    if n < 4096 then none
    else
      let rate := d.rd .INS_SLUICE (n - 4096)
      some (rate, max 16 (ceilDiv (rate * 125) 1024) * 1024)

/-- Fill a bucket (R490). -/
def Dev.fillSluice (d : Dev) (n : Nat) : Dev :=
  match d.sluiceRate n with
  | none => d
  | some (_, b) => { d with cap.tokens := amSet 0 n (b * 80) d.cap.tokens }

/-- Does a sluice admit a packet of `bytes`? The tokens are taken. -/
def Dev.letPass (d : Dev) (n bytes : Nat) : Dev × Bool :=
  match d.sluiceRate n with
  | none => (d, true)
  | some _ =>
    let t := amGet 0 n d.cap.tokens
    if bytes * 80 ≤ t then ({ d with cap.tokens := amSet 0 n (t - bytes * 80) d.cap.tokens }, true) else (d, false)

/-- One refill of a bucket over `k` boundaries: rate × 100 ns each, up to the burst. -/
def Dev.refillOne (d : Dev) (k n : Nat) : Dev :=
  match d.sluiceRate n with
  | none => d
  | some (r, b) => { d with cap.tokens := amMod 0 n (fun t => min (b * 80) (t + k * r)) d.cap.tokens }

/-- Refill a list of buckets. -/
def Dev.refillAll (d : Dev) (k : Nat) : List Nat → Dev
  | [] => d
  | n :: ns => (d.refillOne k n).refillAll k ns

/-- The sluices that exist: those of the section and one for each enabled instance. -/
def Dev.sluices (d : Dev) : List Nat :=
  ((d.secRecs 7).map (leAt 0 2) ++ ((List.range 256).filter d.insOn).map (· + 4096)).eraseDups

/-- TOKEN_REFILL (R490): every boundary of 100 ns that has come since the last refill gains its tokens. -/
def Dev.tokenRefill (d : Dev) : Dev :=
  let b := d.now / 100
  if b ≤ d.cap.lastRefill then d
  else { d.refillAll (b - d.cap.lastRefill) d.sluices with cap.lastRefill := b }

end Sys2Proof.Machine
end

