-- ==== Sys2Proof/Machine/HostBase.lean ====
section
/-! DEFINITION. Host commands as every block sees them: the fields of a submission queue entry, completing a command and
failing it (R253). -/
namespace Sys2Proof.Machine

/-- Command dword `k` of a 64-byte submission queue entry. -/
def cdw (k : Nat) (sqe : List Byte) : Nat := leAt (4 * k) 4 sqe
/-- Opcode. -/
def sqeOp (sqe : List Byte) : Nat := leAt 0 1 sqe
/-- Command identifier. -/
def sqeCid (sqe : List Byte) : Nat := leAt 2 2 sqe
/-- FUSE. -/
def sqeFuse (sqe : List Byte) : Nat := bitsOf 9 8 (cdw 0 sqe)
/-- Namespace identifier. -/
def sqeNsid (sqe : List Byte) : Nat := cdw 1 sqe
/-- Starting LBA: CDW11 and CDW10. -/
def sqeSlba (sqe : List Byte) : Nat := leAt 40 8 sqe
/-- Number of LBAs, from the 0's based NLB. -/
def sqeNlb (sqe : List Byte) : Nat := leAt 48 2 sqe + 1

/-- The command with a handle. -/
def Dev.cmd (d : Dev) (h : Nat) : Option HCmd := d.hq.cmds.find? (fun c => c.handle == h)

/-- Change a command. -/
def Dev.setCmd (d : Dev) (h : Nat) (f : HCmd → HCmd) : Dev :=
  { d with hq.cmds := d.hq.cmds.map (fun c => if c.handle = h then f c else c) }

/-- Take a command out. -/
def Dev.dropCmd (d : Dev) (h : Nat) : Dev := { d with hq.cmds := d.hq.cmds.filter (fun c => c.handle != h) }

/-- Complete a command: its completion is posted, unless its connection or controller is gone, and it leaves the
tracker. -/
def Dev.complete (d : Dev) (h sct sc : Nat) (dnr : Bool) (dw0 dw1 : Nat) : Dev :=
  match d.cmd h with
  | none => d
  | some c =>
    let d := d.dropCmd h
    if c.silent then d else d.send (.cqe c.queue (sqeCid c.sqe) sct sc dnr dw0 dw1)

/-- Success. -/
def Dev.succeed (d : Dev) (h dw0 dw1 : Nat) : Dev := d.complete h 0 0 false dw0 dw1

/-- A command fails: its counter, one event 0x6050 per namespace and second, its completion (R253). -/
def Dev.failCmd (d : Dev) (h sct sc : Nat) (dnr : Bool) (counter : Option Fld) : Dev :=
  match d.cmd h with
  | none => d
  | some c =>
    let d := match counter with | some f => d.cnt f c.inst | none => d
    let d := if (amFind (sqeNsid c.sqe + c.inst * 65536) d.hq.ns).isNone then d
      else d.raiseSec c.inst 0x6050 (sqeNsid c.sqe % 2 ^ 24) [(1, c.inst), (4, sqeNsid c.sqe), (8, sqeSlba c.sqe), (2, sc)]
    d.complete h sct sc dnr 0 0

/-- Invalid Field in Command (generic status 0x02). -/
def Dev.invalidField (d : Dev) (h : Nat) : Dev := d.failCmd h 0 0x02 true none

/-- A capture status of the command-specific range (status code type 7h). -/
def Dev.capStatus (d : Dev) (h sc : Nat) : Dev := d.failCmd h 7 sc true none

/-- A capture status that may be retried. -/
def Dev.capRetry (d : Dev) (h sc : Nat) : Dev := d.failCmd h 7 sc false none

end Sys2Proof.Machine
end

