-- ==== Sys2Proof/Machine/Pixels.lean ====
section
/-! DEFINITION. Pixel formats: the descriptor of the table Pixel-format descriptor, samples and lines (R120), the
thumbnail and the content signature (R90, R91). -/
namespace Sys2Proof.Machine

/-- LAYOUT: 0 mono, 1 mosaic, 2 three planes, 3 four planes. -/
def pixLayout (v : Nat) : Nat := bitsOf 31 28 v
/-- DEPTH: bits per sample. -/
def pixDepth (v : Nat) : Nat := bitsOf 25 21 v
/-- PACKING: 0 whole bytes, 1 least significant bit first, 2 most significant bit first. -/
def pixPacking (v : Nat) : Nat := bitsOf 20 19 v

/-- A descriptor without reserved values. -/
def pixOk (v : Nat) : Bool :=
  decide (pixLayout v ≤ 3) && (pixLayout v == 1 || bitsOf 27 26 v == 0) && decide (8 ≤ pixDepth v ∧ pixDepth v ≤ 16) &&
  decide (pixPacking v ≤ 2) && bitsOf 18 0 v == 0 && decide (v < 2 ^ 32)

/-- Planes of a frame (R126). -/
def pixPlanes (v : Nat) : Nat := match pixLayout v with | 2 => 3 | 3 => 4 | _ => 1

/-- Line bytes of `w` samples (R120). -/
def lineBytes (v w : Nat) : Nat :=
  if pixPacking v = 0 then (if pixDepth v = 8 then w else 2 * w) else ceilDiv (w * pixDepth v) 8

/-- The samples of a packed line, most significant bit first. -/
def takeMsb (depth v : Nat) : Nat → Nat → List Nat
  | 0, _ => []
  | n + 1, bits => (v / 2 ^ (bits - depth)) % 2 ^ depth :: takeMsb depth v n (bits - depth)

/-- The samples of a packed line, least significant bit first. -/
def takeLsb (depth : Nat) : Nat → Nat → List Nat
  | 0, _ => []
  | n + 1, v => v % 2 ^ depth :: takeLsb depth n (v / 2 ^ depth)

/-- The low DEPTH bits of each sample of a line (R90, R120). -/
def unpackLine (v w : Nat) (bs : List Byte) : List Nat :=
  let dp := pixDepth v
  match pixPacking v with
  | 0 => if dp = 8 then (bs.take w).map (·.toNat)
         else (List.range w).map (fun k => leAt (2 * k) 2 bs % 2 ^ dp)
  | 1 => takeLsb dp w (ofLe bs)
  | _ => takeMsb dp (ofBe bs) w (8 * bs.length)

/-- The bytes of a line of samples, unused bits zero. -/
def packLine (v w : Nat) (xs : List Nat) : List Byte :=
  let dp := pixDepth v
  match pixPacking v with
  | 0 => xs.flatMap (fun x => leBytes (if dp = 8 then 1 else 2) x)
  | 1 => leBytes (lineBytes v w) (xs.foldr (fun x acc => x + acc * 2 ^ dp) 0)
  | _ => beBytes (lineBytes v w) (xs.foldl (fun acc x => acc * 2 ^ dp + x) 0 * 2 ^ (8 * lineBytes v w - dp * w))

/-- The bytes of a list cut into pieces of `n`. -/
def chunks {α : Type} (n : Nat) : Nat → List α → List (List α)
  | 0, _ => []
  | fuel + 1, xs => xs.take n :: chunks n fuel (xs.drop n)

/-- The lines of a frame, plane by plane. -/
def frameLines (v w h : Nat) (bs : List Byte) : List (List Nat) :=
  (chunks (lineBytes v w) (pixPlanes v * h) bs).map (unpackLine v w)

/-- The sum of a `cw` × `ch` block at (row, col) of one plane's lines. -/
def blockSum (lines : List (List Nat)) (row col ch cw : Nat) : Nat :=
  (((lines.drop row).take ch).map (fun l => ((l.drop col).take cw).sum)).sum

/-- The content signature (R91): bit 47 − (8 × row + column) of each cell whose mean exceeds the mean of the cells. -/
def signature (v w h : Nat) (bs : List Byte) : Nat :=
  let planes := chunks h (pixPlanes v) (frameLines v w h bs)
  let cw := w / 8
  let ch := h / 6
  let cells := (List.range 48).map (fun k =>
    (planes.map (fun p => blockSum p (k / 8 * ch) (k % 8 * cw) ch cw)).sum)
  let total := cells.sum
  (cells.zipIdx.map (fun c => if total < c.1 * 48 then 2 ^ (47 - c.2) else 0)).sum

/-- The thumbnail at scale 1 / 2^k, 16-bit samples (R90). -/
def thumbnail (v w h k : Nat) (bs : List Byte) : List Byte :=
  let planes := chunks h (pixPlanes v) (frameLines v w h bs)
  let s := 2 ^ k
  planes.flatMap (fun p => (List.range (h / s)).flatMap (fun r => (List.range (w / s)).flatMap (fun c =>
    leBytes 2 ((2 * blockSum p (r * s) (c * s) s s + s * s) / (2 * (s * s)) * 2 ^ (16 - pixDepth v)))))

/-- Bytes of a thumbnail. -/
def thumbBytes (v w h k : Nat) : Nat := pixPlanes v * (h / 2 ^ k) * (w / 2 ^ k) * 2

end Sys2Proof.Machine
end

