-- ==== Sys2Proof/Machine/Capture.lean ====
section
/-! DEFINITION. Capture: rings, frames and their descriptors, freezing, windows, triggers and verdicts
(spec/03_capture.md, R84–R105). -/
namespace Sys2Proof.Machine

/-- Stream `n`, while it is bound or still holds frozen frames. -/
def Dev.stream (d : Dev) (n : Nat) : Option Stream := amFind n d.cap.streams
/-- Enter or replace it. -/
def Dev.setStream (d : Dev) (n : Nat) (x : Stream) : Dev := { d with cap.streams := amPut n x d.cap.streams }
/-- Change it. -/
def Dev.modStream (d : Dev) (n : Nat) (f : Stream → Stream) : Dev := { d with cap.streams := amAdj n f d.cap.streams }

/-- Owner of stream `n`. -/
def Dev.streamOwner (d : Dev) (n : Nat) : Nat := d.rd .CAP_STREAM_CFG_INSTANCE n
/-- STATE of stream `n`: 0 FREE, 1 BOUND, 2 ARMED-TRIGGERED, 3 ARMED-CONTINUOUS. -/
def Dev.streamState (d : Dev) (n : Nat) : Nat := d.rd .CAP_STREAM_CFG_STATE n

/-- Round up to 4 KiB. -/
def up4k (n : Nat) : Nat := ceilDiv n 4096 * 4096
/-- 2 MiB, the unit of ring space. -/
def ringUnit : Nat := 2 * 1024 * 1024

/-- Bytes of one slot: FRAME_BYTES rounded up to 4 KiB. -/
def Stream.slotBytes (x : Stream) : Nat := up4k x.bytes
/-- Bytes of a ring with `k` slots of `sb` bytes: descriptor array and slots. -/
def ringBytes (sb k : Nat) : Nat := up4k (64 * k) + k * sb
/-- 2 MiB units of such a ring. -/
def ringUnits (sb k : Nat) : Nat := ceilDiv (ringBytes sb k) ringUnit
/-- The greatest slot count whose ring fits in so many units. -/
def slotsFit (sb units : Nat) : Nat :=
  let lim := units * ringUnit
  let k := lim / (sb + 64)
  if ringBytes sb k ≤ lim then k else k - 1

/-- Address of a slot's descriptor. -/
def Stream.descAddr (x : Stream) (slot : Nat) : Nat := x.base + 64 * slot
/-- Address of a slot. -/
def Stream.slotAddr (x : Stream) (slot : Nat) : Nat := x.base + up4k (64 * x.slots) + slot * x.slotBytes

/-- Packets of a frame (R72). -/
def Stream.packets (x : Stream) : Nat := ceilDiv x.bytes x.unit
/-- Bytes that packet `k` carries (R72). -/
def Stream.packetLen (x : Stream) (k : Nat) : Nat := if k + 1 = x.packets then x.bytes - k * x.unit else x.unit

/-- The 64-byte frame descriptor (R88). -/
def frameDesc (n inst : Nat) (x : Stream) (f : Frame) : List Byte :=
  leBytes 2 n ++ leBytes 1 inst ++ leBytes 1 f.state ++ leBytes 4 f.num ++ leBytes 8 f.time ++ leBytes 8 f.rx ++
  leBytes 4 x.pixfmt ++ leBytes 4 x.bytes ++ leBytes 4 f.expected ++ leBytes 4 f.missing ++ leBytes 4 f.tag ++
  leBytes 4 (f.window.getD 0xFFFFFFFF) ++ leBytes 6 f.sig ++ leBytes 2 f.flags ++ leBytes 1 f.verdict ++
  leBytes 1 f.incReason ++ zeros 2 ++ leBytes 4 f.slot

/-- A frame of a stream. -/
def Stream.frame (x : Stream) (id : Nat) : Option Frame := x.frames.find? (fun f => f.id == id)

/-- Change a frame and write its descriptor. -/
def Dev.setFrame (d : Dev) (n id : Nat) (g : Frame → Frame) : Dev :=
  let d := d.modStream n (fun x => { x with frames := x.frames.map (fun f => if f.id = id then g f else f) })
  match d.stream n with
  | none => d
  | some x => match x.frame id with
    | none => d
    | some f => d.store (x.descAddr f.slot) (frameDesc n (d.streamOwner n) x f)

/-- Is a slot's frame neither frozen nor filling, so that the slot may be allocated (R87)? -/
def Frame.loose (f : Frame) : Bool := f.state == 2 || f.state == 5

/-- Frames that keep their slot whatever happens to the ring (R86). -/
def Stream.kept (x : Stream) : Nat := (x.frames.filter (fun f => !f.loose)).length

/-- The oldest of a list of frames. -/
def oldestFrame : List Frame → Option Frame
  | [] => none
  | f :: fs => match oldestFrame fs with
    | none => some f
    | some g => if g.age < f.age then some g else some f

/-! ## Ring space (R85, R86) -/

/-- The declared rate of a stream, in millibytes per second. -/
def Stream.flow (x : Stream) : Nat := x.bytes * x.rate

/-- The window condition of R85 for a ring of `slots`. -/
def Dev.windowFits (d : Dev) (g rate slots : Nat) : Bool :=
  decide ((d.rd .CAP_TG_PRE g + d.rd .CAP_TG_POST g) * rate ≤ slots * 900000000)

/-- Streams in a region, with their numbers. -/
def Dev.regionStreams (d : Dev) (r : Nat) : List (Nat × Stream) := d.cap.streams.filter (fun p => p.2.region == r)

/-- The sum of the declared rates of a region's bound streams. -/
def Dev.regionFlow (d : Dev) (r : Nat) : Nat :=
  (((d.regionStreams r).filter (fun p => p.2.bound)).map (fun p => p.2.flow)).sum

/-- Slots of a stream under autosizing (table Ring sizing). -/
def autoSlots (size flow total sb : Nat) : Nat := if total = 0 then 0 else slotsFit sb (size * flow / total / ringUnit)

/-- CAP_STREAM_SLOTS of a number; 0 means 16. -/
def Dev.slotsCfg (d : Dev) (n : Nat) : Nat := let s := d.rd .CAP_STREAM_SLOTS n; if s = 0 then 16 else s

/-- Does a ring of a new stream fit in a region (R85)? -/
def Dev.ringFits (d : Dev) (r : Region) (n : Nat) (x : Stream) : Bool :=
  let units := r.size / ringUnit
  if d.pol.ringAutosize = 1 then
    let total := d.regionFlow r.num + x.flow
    decide (16 ≤ autoSlots r.size x.flow total x.slotBytes) &&
    ((d.regionStreams r.num).filter (fun p => p.2.bound)).all (fun p =>
      let s := autoSlots r.size p.2.flow total p.2.slotBytes
      decide (16 ≤ s) && (d.streamState p.1 != 2 || d.windowFits (d.rd .CAP_STREAM_CFG_GROUP p.1) p.2.rate s))
  else
    let used := ((d.regionStreams r.num).map (fun p => ringUnits p.2.slotBytes p.2.slots)).sum
    decide (16 ≤ d.slotsCfg n ∧ ringUnits x.slotBytes (d.slotsCfg n) + used ≤ units)

/-- Regions in ascending number. -/
def sortRegions (rs : List Region) : List Region :=
  (List.range 64).filterMap (fun k => rs.find? (fun r => r.num == k))

/-- The ring region that a new stream gets (R85). -/
def Dev.ringRegion (d : Dev) (owner n : Nat) (x : Stream) : Option Region :=
  let rs := d.mem.regions.filter (fun r => r.kind == 0)
  let own := sortRegions (rs.filter (fun r => r.inst == owner))
  let man := if owner = 0 then [] else sortRegions (rs.filter (fun r => r.inst == 0))
  (own ++ man).find? (fun r => d.ringFits r n x)

/-- The slot count R85 and R86 aim at for a stream of a region of `size` bytes. -/
def Dev.targetOf (d : Dev) (size total n : Nat) (x : Stream) : Nat :=
  if !x.bound then x.kept
  else if d.pol.ringAutosize = 1 then autoSlots size x.flow total x.slotBytes
  else if x.target = 0 then d.slotsCfg n else x.target

/-- Slots of each ring now: one that shrinks keeps what frozen and filling frames hold; one that grows takes what is
free (R86). -/
def grantSlots : Nat → List (Nat × Stream × Nat) → List (Nat × Nat)
  | _, [] => []
  | free, (n, x, t) :: xs =>
    let want := max t x.kept
    if want ≤ x.slots then (n, want) :: grantSlots free xs
    else
      let own := ringUnits x.slotBytes x.slots
      let g := max x.slots (min want (slotsFit x.slotBytes (own + free)))
      (n, g) :: grantSlots (free - (ringUnits x.slotBytes g - own)) xs

/-- The frames of a ring of `k` slots: the oldest loose ones go until it fits (R86). -/
def shedFrames : Nat → Nat → List Frame → List Frame
  | 0, _, fs => fs
  | fuel + 1, k, fs =>
    if fs.length ≤ k then fs
    else match oldestFrame (fs.filter Frame.loose) with
      | none => fs
      | some f => shedFrames fuel k (fs.filter (fun g => g.id != f.id))

/-- Place the rings of a region one after another from its base, with their frames' bytes (notes/assumptions/60). -/
def Dev.layRings (d : Dev) (base : Nat) : List (Nat × Stream × Nat × List (Frame × List Byte)) → Dev
  | [] => d
  | (n, x, k, fs) :: xs =>
    let keep : List (Frame × List Byte) :=
      if k = x.slots then fs else fs.zipIdx.map (fun p => ({ p.1.1 with slot := p.2 }, p.1.2))
    let y : Stream := { x with base := base, slots := k, frames := keep.map (·.1) }
    let d := d.setStream n y
    let d := keep.foldl (fun d p =>
      (d.store (y.slotAddr p.1.slot) p.2).store (y.descAddr p.1.slot) (frameDesc n (d.streamOwner n) y p.1)) d
    d.layRings (base + ringUnits x.slotBytes k * ringUnit) xs

/-- Recompute the rings of a region (R85, R86): after an OPEN, an unbinding, a drain or a change of the region. -/
def Dev.settleRings (d : Dev) (r : Region) : Dev :=
  let xs := d.regionStreams r.num
  let total := d.regionFlow r.num
  let goals := xs.map (fun p => (p.1, p.2, d.targetOf r.size total p.1 p.2))
  let base := (goals.map (fun p =>
    ringUnits p.2.1.slotBytes (if max p.2.2 p.2.1.kept ≤ p.2.1.slots then max p.2.2 p.2.1.kept else p.2.1.slots))).sum
  let grants := grantSlots (r.size / ringUnit - base) goals
  let lay := goals.map (fun p =>
    let k := amGet 0 p.1 grants
    let fs := shedFrames p.2.1.frames.length k p.2.1.frames
    let y : Stream := { p.2.1 with target := if d.pol.ringAutosize = 1 ∨ p.2.1.target = 0 then p.2.2 else p.2.1.target }
    (p.1, y, k, fs.map (fun f => (f, d.readMem (p.2.1.slotAddr f.slot) p.2.1.bytes))))
  let same := xs.all (fun p => amGet 0 p.1 grants == p.2.slots && p.2.base != 0)
  if same then d else d.layRings r.base (lay.filter (fun p => p.2.1.bound || !p.2.2.2.isEmpty))

/-- Recompute the region a stream lies in. -/
def Dev.settleRegion (d : Dev) (num : Nat) : Dev :=
  match d.mem.regions.find? (fun r => r.num == num) with
  | some r => d.settleRings r
  | none => d

/-- RING_FULL_ANY: some stream refuses frames (R87). -/
def Dev.fullAny (d : Dev) : Dev := d.wr .CAP_STATUS_RING_FULL_ANY (b2n (d.cap.streams.any (fun p => p.2.full)))

/-- A slot became allocatable: a ring-full episode ends with 0x2141 (R87). -/
def Dev.endFull (d : Dev) (n : Nat) : Dev :=
  match d.stream n with
  | none => d
  | some x =>
    if x.full then
      let d := d.modStream n (fun x => { x with full := false, refused := 0 })
      (d.fullAny).raiseI (d.streamOwner n) 0x2141 [(2, n), (4, x.refused)]
    else d

/-- Free the numbers of streams that are unbound and hold no frozen frame any more (R86). -/
def Dev.forgetStream (d : Dev) (n : Nat) : Dev :=
  match d.stream n with
  | none => d
  | some x =>
    if !x.bound && x.kept == 0 then { d with cap.streams := amDel n d.cap.streams } else d

/-! ## Windows (R96–R103) -/

/-- The window with an identifier. -/
def Dev.window (d : Dev) (w : Nat) : Option TrigWindow := d.cap.windows.find? (fun x => x.id == w)
/-- Change it. -/
def Dev.setWin (d : Dev) (w : Nat) (f : TrigWindow → TrigWindow) : Dev :=
  { d with cap.windows := d.cap.windows.map (fun x => if x.id = w then f x else x) }

/-- Complete the Freeze Window commands that wait for a drain: DW1 holds the members and the frames excluded (R107). -/
def Dev.wakeFreezers (d : Dev) (w members excluded : Nat) : List Nat → Dev
  | [] => d
  | h :: hs => (d.succeed h w (members % 2 ^ 16 + 2 ^ 16 * (excluded % 2 ^ 16))).wakeFreezers w members excluded hs

/-- When every frame of a closed window is committed or excluded, 0x2134 is raised (R103). -/
def Dev.checkDrained (d : Dev) (w : Nat) : Dev :=
  match d.window w with
  | none => d
  | some x =>
    if x.closed && x.left == 0 && !x.reported then
      let inst := match x.group with
        | some g => d.rd .CAP_TG_CFG_INSTANCE g
        | none => d.streamOwner (x.members.headD 0)
      let d := d.raiseI inst 0x2134 [(4, w), (4, x.excluded)]
      let d := d.wakeFreezers w x.members.length x.excluded x.waiting
      { d with cap.windows := d.cap.windows.filter (fun y => y.id != w) }
    else d

/-- Is some window of a group open (CAP_TG_STATUS.OPEN)? -/
def Dev.groupOpen (d : Dev) (g : Nat) : Bool := d.cap.windows.any (fun x => x.group == some g && !x.closed)

/-- A window whose members' parts have all ended closes with 0x2133 (R98). A standing window closes without it
(notes/assumptions/66). -/
def Dev.checkClosed (d : Dev) (w : Nat) : Dev :=
  match d.window w with
  | none => d
  | some x =>
    if !x.closed && x.open_.isEmpty then
      let d := d.setWin w (fun x => { x with closed := true })
      let d := match x.group with
        | some g => (d.wr .CAP_TG_STATUS_OPEN (b2n (d.groupOpen g)) g).raiseI (d.rd .CAP_TG_CFG_INSTANCE g) 0x2133
            [(4, w), (4, x.frozen)]
        | none => d
      d.checkDrained w
    else d.checkDrained w

/-- A member's part of a window ends. -/
def Dev.endPart (d : Dev) (w n : Nat) : Dev :=
  (d.setWin w (fun x => { x with open_ := x.open_.filter (· != n) })).checkClosed w

/-- End the parts that a condition selects, for every window of stream `n`. -/
def Dev.endParts (d : Dev) (n : Nat) (f : TrigWindow → Bool) : List Nat → Dev
  | [] => d
  | w :: ws =>
    let d := match d.window w with
      | some x => if x.open_.contains n && f x then d.endPart w n else d
      | none => d
    d.endParts n f ws

/-- Enter frozen frames whose verdict is known into the drain queue while it has room (R94, R102). -/
def Dev.enqueueDrain (d : Dev) (n id : Nat) : Dev :=
  match d.stream n with
  | none => d
  | some x => match x.frame id with
    | none => d
    | some f =>
      if f.state = 3 && !f.pendingVerdict && !f.queued && !f.dropped && !bitOf 6 f.flags &&
          decide (d.cap.queue.length < 1048576) then
        let d := d.modStream n (fun x =>
          { x with frames := x.frames.map (fun g => if g.id = id then { g with queued := true } else g) })
        let d := { d with cap.queue := d.cap.queue ++ [(n, id)] }
        d.wr .CAP_DRAIN_DEPTH d.cap.queue.length
      else d

/-- An entry of the drain queue freed: a frozen frame that waited enters (R102). -/
def Dev.refillDrain (d : Dev) : Dev :=
  match d.cap.streams.findSome? (fun p => (p.2.frames.find? (fun f =>
      f.state == 3 && !f.pendingVerdict && !f.queued && !f.dropped && !bitOf 6 f.flags)).map (fun f => (p.1, f.id))) with
  | some (n, id) => d.enqueueDrain n id
  | none => d

/-- Freeze a committed frame into a window (R96, R101). A dropped frame is excluded instead (R92). -/
def Dev.freeze (d : Dev) (w n : Nat) (f : Frame) : Dev :=
  if f.state ≠ 2 ∨ f.window.isSome then d
  else if f.dropped ∨ bitOf 6 f.flags then
    d.setWin w (fun x => { x with excluded := x.excluded + 1 })
  else
    let d := d.setWin w (fun x => { x with frozen := x.frozen + 1, left := x.left + 1 })
    let d := d.setFrame n f.id (fun f => { f with state := 3, window := some w })
    d.enqueueDrain n f.id

/-- Freeze every frame of a list that lies in [a, b]. -/
def Dev.freezeAll (d : Dev) (w n a b : Nat) : List Frame → Dev
  | [] => d
  | f :: fs => (if a ≤ f.time ∧ f.time ≤ b then d.freeze w n f else d).freezeAll w n a b fs

/-- A frozen frame leaves its window without being drained: MEM_LOST, a drop verdict, an instance reset. -/
def Dev.excludeFrame (d : Dev) (n : Nat) (f : Frame) (state : Nat) : Dev :=
  let d := { d with cap.queue := d.cap.queue.filter (fun p => p != (n, f.id)) }
  let d := d.wr .CAP_DRAIN_DEPTH d.cap.queue.length
  let d := d.setFrame n f.id (fun f => { f with state := state, queued := false, age := 0 })
  let d := match f.window with
    | some w => (d.setWin w (fun x => { x with left := x.left - 1, excluded := x.excluded + 1 })).checkDrained w
    | none => d
  (d.endFull n).refillDrain

/-! ## Triggers (R95–R99) -/

/-- The event's source code of a trigger: 0 pin, 1 verdict, 2 CAM_TRIGGER, 3 Freeze Window, 4 CAP_SW_TRIG. -/
def trigCode (source : Nat) : Nat := Config.causeCode (0x2131 * 256 + source)

/-- What became of a trigger: its window with the member count, or refused for 0 a disabled group, 1 no armed member,
2 its time. -/
inductive TrigResult
  | accepted (w members : Nat)
  | refused (why : Nat)
deriving DecidableEq, Repr

/-- A refused trigger (R95). -/
def Dev.refuseTrigger (d : Dev) (g source t : Nat) : Dev :=
  (d.cnt .CAP_TG_STATUS_IGNORED g).raiseI (d.rd .CAP_TG_CFG_INSTANCE g) 0x2131 [(1, g), (2, trigCode source), (8, t)]

/-- The streams armed into a group (Trigger groups and windows). -/
def Dev.membersOf (d : Dev) (g : Nat) : List Nat :=
  (d.cap.streams.filter (fun p => p.2.bound && d.streamState p.1 == 2 && d.rd .CAP_STREAM_CFG_GROUP p.1 == g &&
    d.streamOwner p.1 == d.rd .CAP_TG_CFG_INSTANCE g)).map (·.1)

/-- Frames of [from, t] that a member's ring no longer holds, from its frame rate (R97). -/
def Stream.missingFrames (x : Stream) (fromT t : Nat) : Nat :=
  match x.firstTime with
  | none => 0
  | some ft =>
    let lo := max fromT ft
    let have_ := x.frames.filter (fun f => 2 ≤ f.state)
    let oldest := have_.foldl (fun m f => min m f.time) t
    (oldest - lo) * x.rate / 10 ^ 12

/-- WINDOW_SHORT of each member (R97). -/
def Dev.countShort (d : Dev) (w fromT t : Nat) : List Nat → Dev
  | [] => d
  | n :: ns =>
    let k := match d.stream n with | some x => x.missingFrames fromT t | none => 0
    let d := if k = 0 then d
      else (d.cnt .CAP_STREAM_CNT_WINDOW_SHORT n k).raiseI (d.streamOwner n) 0x2132 [(4, w), (2, n), (4, k)]
    d.countShort w fromT t ns

/-- Freeze what the members have committed already. -/
def Dev.freezeMembers (d : Dev) (w a b : Nat) : List Nat → Dev
  | [] => d
  | n :: ns =>
    let d := match d.stream n with | some x => d.freezeAll w n a b x.frames | none => d
    d.freezeMembers w a b ns

/-- Trigger outputs in MODE 1 of a group start their pulse (table TRIGGERS). -/
def Dev.pulseOutputs (d : Dev) (f : List Byte → Bool) : List (List Byte) → Dev
  | [] => d
  | r :: rs =>
    let k := leAt 0 1 r - 8
    let d := if 8 ≤ leAt 0 1 r && f r then
        { d with cap.pulses := amSet 0 k (d.now + leAt 4 4 r) d.cap.pulses }.send (.pin 0 k true) else d
    d.pulseOutputs f rs

/-- Take the next window identifier (R101). -/
def Dev.takeWindowId (d : Dev) : Nat × Dev :=
  let w := d.rd .CAP_WINDOW_NEXT
  (w, d.wr .CAP_WINDOW_NEXT (if w = 0xFFFFFFFE then 0 else w + 1))

/-- Submit a trigger at `t` to group `g` (R95–R99). -/
def Dev.submitTrigger (d : Dev) (g source t : Nat) : Dev × TrigResult :=
  let last := amGet 0 g d.cap.lastT
  let hold := d.rd .CAP_TG_CFG_HOLDOFF_US g * 1000
  let ms := d.membersOf g
  if d.rd .CAP_TG_CFG_ENABLE g = 0 then (d.refuseTrigger g source t, .refused 0)
  else if ms.isEmpty then (d.refuseTrigger g source t, .refused 1)
  else if d.now + 10000000000 < t ∨ (0 < last ∧ t < last - 1 + hold) then (d.refuseTrigger g source t, .refused 2)
  else
    let pre := d.rd .CAP_TG_PRE g * 1000
    let post := d.rd .CAP_TG_POST g * 1000
    let d := { d with cap.lastT := amSet 0 g (t + 1) d.cap.lastT }
    let d := d.pulseOutputs (fun r => leAt 1 1 r == 1 && leAt 2 1 r == g) (d.secRecs 8)
    let inst := d.rd .CAP_TG_CFG_INSTANCE g
    match d.cap.windows.find? (fun x => x.group == some g && !x.closed &&
        (x.t == t || (d.rd .CAP_TG_CFG_MERGE g == 1 && decide (t ≤ x.stop + pre)))) with
    | some x =>
      let stop := max x.stop (t + post)
      let start := min x.start (t - pre)
      let d := d.setWin x.id (fun y => { y with
          t := t, start := start, stop := stop
          members := (y.members ++ ms).eraseDups, open_ := (y.open_ ++ ms).eraseDups })
      let d := d.raiseI inst 0x2130 [(1, g), (4, x.id), (8, t), (1, 1)]
      let d := d.countShort x.id (t - pre) t ms
      (d.freezeMembers x.id (t - pre) (t + post) ms, .accepted x.id ms.length)
    | none =>
      let (w, d) := d.takeWindowId
      let win : TrigWindow := ⟨w, some g, t, t - pre, t + post, ms, ms, false, 0, 0, 0, false, []⟩
      let d := { d with cap.windows := d.cap.windows ++ [win] }
      let d := (d.cnt .CAP_TG_STATUS_WINDOWS g).wr .CAP_TG_STATUS_OPEN 1 g
      let d := d.raiseI inst 0x2130 [(1, g), (4, w), (8, t), (1, 0)]
      let d := d.countShort w (t - pre) t ms
      (d.freezeMembers w (t - pre) (t + post) ms, .accepted w ms.length)

/-! ## Verdicts (R92–R94) -/

/-- The default verdict applies: keep, or drop. -/
def Dev.knowVerdict (d : Dev) (n id v : Nat) (f : Frame → Frame) : Dev :=
  let d := d.setFrame n id (fun x => f { x with verdict := v, pendingVerdict := false })
  match (d.stream n).bind (fun x => x.frame id) with
  | none => d
  | some x =>
    if v = 1 then
      let d := d.modStream n (fun s =>
        { s with frames := s.frames.map (fun g => if g.id = id then { g with dropped := true, age := 0 } else g) })
      if x.state = 3 then d.excludeFrame n x 2 else d.endFull n
    else d.enqueueDrain n id

/-- The stream's default verdict: 0 keep, 1 drop. -/
def Dev.defaultVerdict (d : Dev) (n : Nat) : Nat := d.rd .CAP_STREAM_CFG_DEFAULT_VERDICT n

/-- The default verdict of a late frame (R94): VERDICT_LATE set and counted, 0x2150 once per stream and second. -/
def Dev.lateVerdict (d : Dev) (n id num : Nat) : Dev :=
  let d := d.cnt .CAP_STREAM_CNT_VERDICT_LATE n
  let d := d.raiseSec (d.streamOwner n) 0x2150 n [(2, n), (4, num)]
  d.knowVerdict n id (d.defaultVerdict n) (fun f => { f with flags := f.flags ||| 32 })

/-- A filter's verdict record returns (R92–R94, table Verdict effects). -/
def Dev.verdict (d : Dev) (n id : Nat) (rec : List Byte) : Dev :=
  match (d.stream n).bind (fun x => x.frame id) with
  | none => d
  | some f =>
    if !f.pendingVerdict then d
    else if f.commitAt + d.rd .CAP_STREAM_FILTER_BUDGET_US n * 1000 < d.now then d
    else
      let act := leAt 0 1 rec
      let fl := leAt 1 1 rec
      let tag := leAt 2 4 rec
      if 3 < act ∨ 1 < fl ∨ !allZero (sliceB 12 4 rec) then
        let d := (d.cnt .CAP_STREAM_CNT_VERDICT_INVALID n).raiseI (d.streamOwner n) 0x2151 [(2, n), (4, f.num), (2, act)]
        d.knowVerdict n id (d.defaultVerdict n) (fun f => f)
      else
        let g : Frame → Frame := fun f =>
          let f : Frame := if fl = 1 then { f with sig := leAt 6 6 rec } else f
          match act with
          | 2 => { f with tag := tag }
          | 3 => { f with tag := tag, flags := f.flags ||| 16 }
          | _ => f
        let d := d.knowVerdict n id act g
        if act = 2 then (d.submitTrigger (d.rd .CAP_STREAM_CFG_GROUP n) 1 f.time).1 else d

/-- VERDICT_BUDGET_EXPIRY (R94). -/
def Dev.verdictExpiry (d : Dev) (n num : Nat) : Dev :=
  match d.stream n with
  | none => d
  | some x => match x.frames.find? (fun f => f.num == num && f.pendingVerdict) with
    | none => d
    | some f =>
      if d.now < f.commitAt + d.rd .CAP_STREAM_FILTER_BUDGET_US n * 1000 then d else d.lateVerdict n f.id f.num

/-- The work item that a committed frame of a filtered stream posts (R92): the descriptor and THUMB as its argument, and a
window on the frame or on its thumbnail. The capture engine is poster 0x0200 (R328). -/
def filterPost (gen : Nat) (desc : List Byte) (thumb : Nat) (w : Window) (n id : Nat) : Post :=
  { notify := false, rerunOk := false, windows := [w], budget := 0, compAddr := 0, compTask := 0, compFlag := 0
    arg := desc ++ leBytes 2 thumb ++ zeros 38, poster := 0x0200, gen := gen, rerun := false, frame := some (n, id) }

/-- Post a frame to its filter (R92). No post is made where the flow's flume is down (R27) or Eft refuses it; the
default verdict then applies at the budget instant. -/
def Dev.postFilter (d : Dev) (n id : Nat) : Dev :=
  match d.stream n with
  | none => d
  | some x => match x.frame id with
    | none => d
    | some f =>
      let d := d.setFrame n id (fun f => { f with pendingVerdict := true })
      let inst := d.streamOwner n
      let t := d.rd .CAP_STREAM_FILTER_TASK n
      let k := d.rd .CAP_STREAM_CFG_THUMB n
      let slot := x.slotAddr f.slot
      let (d, w) : Dev × Window :=
        if k = 0 then (d, ⟨slot, ceilDiv x.bytes 64, 1⟩)
        else
          let a := x.thumbBase + x.thumbNext % 8 * x.thumbLen
          let th := thumbnail x.pixfmt x.width x.height k (d.readMem slot x.bytes)
          ((d.store a th).modStream n (fun x => { x with thumbNext := x.thumbNext + 1 }), ⟨a, ceilDiv th.length 64, 1⟩)
      let st := d.rd .EFT_TASK_CFG_STATE t
      let code : Nat :=
        if st = 0 ∨ d.rd .EFT_TASK_INFO_INSTANCE t ≠ inst then 1
        else if st = 3 then 6
        else if d.rd .EFT_INS_CFG_WI_QUOTA inst ≤ d.insWi inst then 4
        else if 131072 ≤ d.eft.pool then 5 else 0
      if d.instPathDown inst (fun fl => fl.has 4 0 && fl.through 12) then d.refuseParcel
      else if code = 0 then
        d.enqueuePost t (filterPost (d.gen inst) (frameDesc n inst x { f with pendingVerdict := true }) k w n id)
      else (d.cnt .EFT_CNT_POST_REFUSED).raiseSec inst 0x9001 inst [(1, inst), (2, t), (2, code)]

/-! ## Commit (R83, R87, R96) -/

/-- Zero the ranges of the packets that did not come (R83). -/
def Dev.zeroMissing (d : Dev) (x : Stream) (f : Frame) : List Nat → Dev
  | [] => d
  | k :: ks =>
    let d := if f.placed.contains k then d
      else d.store (x.slotAddr f.slot + k * x.unit) (zeros (x.packetLen k))
    d.zeroMissing x f ks

/-- Freeze a newly committed frame into each open window that covers it and names its stream (R96). -/
def Dev.freezeCommitted (d : Dev) (n id time : Nat) : List TrigWindow → Dev
  | [] => d
  | w :: ws =>
    let covers := w.open_.contains n && (w.group.isNone || decide (w.start ≤ time ∧ time ≤ w.stop))
    let d := if covers then
        match (d.stream n).bind (fun x => x.frame id) with
        | some f => d.freeze w.id n f
        | none => d
      else d
    d.freezeCommitted n id time ws

/-- Commit a frame in progress, complete or incomplete for a reason (R83, R96, R98; verdict and filter by R92, R94).
`post` is false for a warm reset, which posts nothing. -/
def Dev.commitFrame (d : Dev) (n id reason : Nat) (post : Bool) : Dev :=
  match d.stream n with
  | none => d
  | some x => match x.frame id with
    | none => d
    | some f =>
      if f.state ≠ 1 then d
      else
        let inst := d.streamOwner n
        let miss := f.expected - f.placed.length
        let d := d.zeroMissing x f (List.range f.expected)
        let sig := signature x.pixfmt x.width x.height (d.readMem (x.slotAddr f.slot) x.bytes)
        let d := d.setFrame n id (fun f => { f with
          state := 2, missing := miss, sig := sig, commitAt := d.now, repair := none
          incReason := if miss = 0 then 0 else reason, flags := if miss = 0 then f.flags ||| 1 else f.flags })
        let d := d.modStream n (fun x => { x with
          done := f.num :: x.done.filter (fun k => k != f.num)
          firstTime := some (x.firstTime.getD f.time) })
        let d := d.cnt .CAP_STREAM_CNT_FRAMES_COMMITTED n
        let d := if miss = 0 then d
          else (d.cnt .CAP_STREAM_CNT_FRAMES_INCOMPLETE n).raiseSec inst 0x2120 n [(2, n), (4, f.num), (2, reason)]
        let filtered := 2 ≤ d.streamState n ∧ d.rd .CAP_STREAM_CFG_FILTER_EN n = 1
        let d := if filtered then
            (if post then d.postFilter n id else d.setFrame n id (fun f => { f with pendingVerdict := true })) else d
        let d := d.freezeCommitted n id f.time d.cap.windows
        let d := d.endParts n (fun w => w.group.isSome && decide (w.stop < f.time)) (d.cap.windows.map (·.id))
        let d := d.endFull n
        if bitOf 3 f.flags ∧ d.streamState n = 2 then
          (d.submitTrigger (d.rd .CAP_STREAM_CFG_GROUP n) 2 f.time).1
        else d

/-- Commit every frame in progress of a stream. -/
def Dev.commitAll (d : Dev) (n reason : Nat) (post : Bool) : Dev :=
  match d.stream n with
  | none => d
  | some x => (x.frames.filter (fun f => f.state == 1)).foldl (fun d f => d.commitFrame n f.id reason post) d

/-- WINDOW_CLOSE_GUARD (R98): parts end once the guard after the window's end has passed. -/
def Dev.closeGuard (d : Dev) (w : Nat) : Dev :=
  match d.window w with
  | none => d
  | some x =>
    if x.group.isSome && decide (x.stop + d.rd .CAP_TIMING_CLOSE_GUARD_MS * 1000000 < d.now) then
      (d.setWin w (fun x => { x with open_ := [] })).checkClosed w
    else d

/-! ## Drained frames, catalog and index (R103, R105) -/

/-- The 64-byte catalog record. -/
def catalogRecord (n inst : Nat) (x : Stream) (f : Frame) (blocks lba nsid stored : Nat) : List Byte :=
  let fl := bitsOf 2 0 f.flags + b2n (bitOf 4 f.flags) * 8 + b2n (x.standing.isSome && f.window == x.standing) * 16
  let b := leBytes 8 f.time ++ leBytes 4 f.num ++ leBytes 2 n ++ leBytes 1 inst ++ leBytes 1 fl ++
    leBytes 4 (f.window.getD 0xFFFFFFFF) ++ leBytes 4 f.tag ++ leBytes 6 f.sig ++ leBytes 2 blocks ++ leBytes 8 lba ++
    leBytes 4 nsid ++ leBytes 4 stored ++ leBytes 4 x.bytes ++ leBytes 4 x.pixfmt ++ leBytes 2 x.width ++
    leBytes 2 x.height
  b ++ leBytes 4 (crc32c b)

/-- The frame-index key of a catalog record (R105). -/
def indexKey (r : List Byte) : Nat :=
  leAt 0x0C 2 r % 4096 * 2 ^ 116 + leAt 0 8 r / 2 ^ 20 % 2 ^ 36 * 2 ^ 80 + leAt 0x14 4 r * 2 ^ 48 + leAt 0x18 6 r

/-- The time prefix of an index entry. -/
def indexTime (e : GEntry) : Nat := bitsOf 115 80 e.v.toNat

/-- The valid entries of a partition. -/
def Dev.partEntries (d : Dev) (p : Nat) : List (Nat × GEntry) :=
  d.gk.entries.filter (fun e => decide (d.pFirst p ≤ e.1 ∧ e.1 < d.pFirst p + d.pCount p) && e.2.valid && !e.2.shadow)

/-- The lowest index of a partition that holds no valid entry and is usable. -/
def Dev.freeIndex (d : Dev) (p : Nat) : Option Nat :=
  ((List.range (d.partEntries p).length.succ).map (· + d.pFirst p)).find? (fun i =>
    decide (i < d.pFirst p + d.pCount p) && !(d.gent i).valid && !(d.gent i).disabled)

/-- Write an index entry; a full partition loses its oldest time prefix first (R105). -/
def Dev.indexAdd (d : Dev) (inst pos : Nat) (r : List Byte) : Dev :=
  match d.hgPart 2 inst with
  | none => d
  | some p =>
    let i := match d.freeIndex p with
      | some i => some i
      | none =>
        ((d.partEntries p).foldl (fun m e => match m with
          | none => some e
          | some x => if indexTime e.2 < indexTime x.2 then some e else some x) none).map (·.1)
    match i with
    | none => d
    | some i =>
      let v := BitVec.ofNat 128 (indexKey r)
      let c := BitVec.allOnes 128
      let res := BitVec.ofNat 32 pos
      d.setGent i ⟨v, c, res, true, false, parityOf v c res, false⟩

/-- Append a record to an instance's catalog log and index it (R103, R203). -/
def Dev.catalogAdd (d : Dev) (inst : Nat) (r : List Byte) : Dev :=
  let log := amGet [] inst d.cap.catalog
  let d := { d with cap.catalog := amSet [] inst (log ++ [r]) d.cap.catalog }
  d.indexAdd inst log.length r

/-- A drained frame's commit record is written: its slot is freed and its window counts it (R31, R103). -/
def Dev.frameDrained (d : Dev) (n id : Nat) : Dev :=
  match (d.stream n).bind (fun x => x.frame id) with
  | none => d
  | some f =>
    let d := d.setFrame n id (fun f => { f with state := 5, queued := false })
    let d := match f.window with
      | some w => (d.setWin w (fun x => { x with left := x.left - 1 })).checkDrained w
      | none => d
    let d := d.endFull n
    match d.stream n with
    | some x => if x.slots > x.target then (d.settleRegion x.region).forgetStream n else d.forgetStream n
    | none => d

/-- A drain pauses with a cause (R104): 0 codec or flash fault, 1 capacity, 2 namespace full, 3 free space, 4 route,
5 writes stopped. -/
def Dev.pauseDrain (d : Dev) (n cause : Nat) : Dev :=
  match d.stream n with
  | none => d
  | some x =>
    if x.paused.isSome then d
    else (d.modStream n (fun x => { x with paused := some cause })).raiseI (d.streamOwner n) 0x2160
      [(2, n), (1, Config.causeCode (0x2160 * 256 + cause))]

/-- Pause every stream that a test selects. -/
def Dev.pauseWhere (d : Dev) (f : Nat → Stream → Bool) (cause : Nat) : Dev :=
  (d.cap.streams.filter (fun p => f p.1 p.2)).foldl (fun d p => d.pauseDrain p.1 cause) d

/-- Frames with a byte in a lost range (R89): MEM_LOST; frozen ones leave their window undrained, and the yield is
recorded (point 3). -/
def Dev.loseFrame (d : Dev) (n : Nat) (f : Frame) : Dev :=
  let d := d.setFrame n f.id (fun f => { f with flags := f.flags ||| 64 })
  if f.state = 3 then (d.excludeFrame n f 2).yieldAt (d.streamOwner n) 3 else d

/-- Lose every frame whose slot meets a test on its address range. -/
def Dev.loseFrames (d : Dev) (hit : Nat → Nat → Bool) : Dev :=
  d.cap.streams.foldl (fun d p => p.2.frames.foldl (fun d f =>
    if hit (p.2.slotAddr f.slot) p.2.bytes then d.loseFrame p.1 f else d) d) d

end Sys2Proof.Machine
end

