-- ==== Sys2Proof/Machine/Blocks.lean ====
section
/-! DEFINITION. The compressed block format, to the bit: header and trailer, the adaptive Rice code, RAS, GEN and STORE,
tiling (spec/04_codec.md, R112–R128). -/
namespace Sys2Proof.Machine

/-! ## Bits (R115) -/

/-- The `n` low bits of a value, most significant first. -/
def bitsMsb : Nat → Nat → List Bool
  | 0, _ => []
  | n + 1, v => bitOf n v :: bitsMsb n v

/-- The bits of bytes, bit 7 first. -/
def bytesBits (bs : List Byte) : List Bool := bs.flatMap (fun b => bitsMsb 8 b.toNat)

/-- The value of bits, most significant first. -/
def bitsVal (bs : List Bool) : Nat := bs.foldl (fun v b => 2 * v + b2n b) 0

/-- Bits as bytes, the last filled with zeros. -/
def packBits (bits : List Bool) : List Byte :=
  (chunks 8 (ceilDiv bits.length 8) bits).map (fun c => BitVec.ofNat 8 (bitsVal c * 2 ^ (8 - c.length)))

/-! ## Rice code (R119) -/

/-- KMAX and VBITS. -/
structure RiceCfg where
  kmax : Nat
  vbits : Nat
deriving DecidableEq, Repr

/-- The contexts: A and N of each. -/
abbrev RiceSt := List (Nat × Nat)

/-- k of a context. -/
def riceK (a n kmax : Nat) : Nat → Nat → Nat
  | 0, k => k
  | fuel + 1, k => if n * 2 ^ k < a ∧ k < kmax then riceK a n kmax fuel (k + 1) else k

/-- The contexts after a value was coded. -/
def riceUpdate (s : RiceSt) (x m : Nat) : RiceSt :=
  let (a, n) := s.getD x (0, 1)
  let a := a + m
  let n := n + 1
  s.set x (if n = 64 then ((a + 1) / 2, 32) else (a, n))

/-- Code a value. -/
def riceEncode (c : RiceCfg) (s : RiceSt) (x m : Nat) : List Bool × RiceSt :=
  let (a, n) := s.getD x (0, 1)
  let k := riceK a n c.kmax c.kmax 0
  let q := m / 2 ^ k
  let bits := if q < 24 then List.replicate q true ++ false :: bitsMsb k m
    else List.replicate 24 true ++ bitsMsb c.vbits m
  (bits, riceUpdate s x m)

/-- One-bits up to a zero-bit or to 24: their number and the rest. -/
def takeOnes : Nat → Nat → List Bool → Option (Nat × List Bool)
  | 0, q, bs => some (q, bs)
  | _, _, [] => none
  | fuel + 1, q, b :: bs => if b then takeOnes fuel (q + 1) bs else some (q, bs)

/-- `n` raw bits. -/
def readBits (n : Nat) (bs : List Bool) : Option (Nat × List Bool) :=
  if bs.length < n then none else some (bitsVal (bs.take n), bs.drop n)

/-- Decode a value: none when the payload is exhausted. -/
def riceDecode (c : RiceCfg) (s : RiceSt) (x : Nat) (bs : List Bool) : Option (Nat × RiceSt × List Bool) :=
  let (a, n) := s.getD x (0, 1)
  let k := riceK a n c.kmax c.kmax 0
  match takeOnes 24 0 bs with
  | none => none
  | some (q, rest) =>
    match (if q < 24 then readBits k rest else readBits c.vbits rest) with
    | none => none
    | some (v, rest) =>
      let m := if q < 24 then q * 2 ^ k + v else v
      some (m, riceUpdate s x m, rest)

/-- bitlength(0) = 0. -/
def bitlength (g : Nat) : Nat := if g = 0 then 0 else g.log2 + 1

/-- A signed residual as an unsigned value, within `2^w`. -/
def zigzag (w x pred : Nat) : Nat :=
  let e := (x + 2 ^ w - pred % 2 ^ w) % 2 ^ w
  if e < 2 ^ (w - 1) then 2 * e else 2 * (2 ^ w - e) - 1

/-- The sample of an unsigned residual. -/
def unzig (w m pred : Nat) : Nat :=
  if m % 2 = 0 then (pred + m / 2) % 2 ^ w else (pred + 2 ^ w - (m + 1) / 2 % 2 ^ w) % 2 ^ w

/-! ## RAS (R120–R123) -/

/-- Prediction and gradient of a sample (pseudocode RAS sample): `left` holds the samples before it in the line, nearest
first; `up` the line r − s of the strip, if any. -/
def rasPredict (depth s c : Nat) (left : List Nat) (up : Option (List Nat)) : Nat × Nat :=
  match up, decide (s ≤ c) with
  | none, false => (2 ^ (depth - 1), 0)
  | none, true => (left.getD (s - 1) 0, 0)
  | some u, false => (u.getD c 0, 0)
  | some u, true =>
    let a := left.getD (s - 1) 0
    let b := u.getD c 0
    let e := u.getD (c - s) 0
    let p := if max a b ≤ e then min a b else if e ≤ min a b then max a b else a + b - e
    (p, (max a e - min a e) + (max b e - min b e))

/-- The context of a sample. -/
def rasCtx (s r c g : Nat) : Nat := 16 * (if s = 2 then 2 * (r % 2) + c % 2 else 0) + min 15 (bitlength g)

/-- Rice parameters and fresh contexts of a strip. -/
def rasCfg (depth : Nat) : RiceCfg := ⟨depth, depth⟩
/-- A0 and N of 64 contexts. -/
def rasInit (depth : Nat) : RiceSt := List.replicate 64 (max 2 (2 ^ (depth - 6)), 1)

/-- Code one line of a strip; `col` is the strip's first column. -/
def rasEncLine (depth s r col : Nat) (up : Option (List Nat)) : RiceSt → Nat → List Nat → List Nat → List Bool × RiceSt
  | st, _, _, [] => ([], st)
  | st, c, left, x :: xs =>
    let (p, g) := rasPredict depth s c left up
    let (b, st) := riceEncode (rasCfg depth) st (rasCtx s r (col + c) g) (zigzag depth x p)
    let (bs, st) := rasEncLine depth s r col up st (c + 1) (x :: left) xs
    (b ++ bs, st)

/-- Code the lines of a strip; `before` holds the earlier lines, nearest first. -/
def rasEncLines (depth s col : Nat) : RiceSt → Nat → List (List Nat) → List (List Nat) → List Bool
  | _, _, _, [] => []
  | st, r, before, l :: ls =>
    let up := if r < s then none else before[s - 1]?
    let (b, st) := rasEncLine depth s r col up st 0 [] l
    b ++ rasEncLines depth s col st (r + 1) (l :: before) ls

/-- Decode one line of `n` samples. -/
def rasDecLine (depth s r col : Nat) (up : Option (List Nat)) :
    Nat → RiceSt → Nat → List Nat → List Bool → Option (List Nat × RiceSt × List Bool)
  | 0, st, _, left, bs => some (left.reverse, st, bs)
  | n + 1, st, c, left, bs =>
    let (p, g) := rasPredict depth s c left up
    match riceDecode (rasCfg depth) st (rasCtx s r (col + c) g) bs with
    | none => none
    | some (m, st, bs) => rasDecLine depth s r col up n st (c + 1) (unzig depth m p :: left) bs

/-- Decode the lines of a strip: also the bits left after each line. -/
def rasDecLines (depth s col n : Nat) :
    Nat → RiceSt → Nat → List (List Nat) → List Bool → Option (List (List Nat) × List Bool)
  | 0, _, _, before, bs => some (before.reverse, bs)
  | k + 1, st, r, before, bs =>
    let up := if r < s then none else before[s - 1]?
    match rasDecLine depth s r col up n st 0 [] bs with
    | none => none
    | some (l, st, bs) => rasDecLines depth s col n k st (r + 1) (l :: before) bs

/-- SW of R121. -/
def stripWidth (s w : Nat) : Nat := s * ceilDiv (ceilDiv w 8) s

/-- Columns of strip `j`: first and count. -/
def stripCols (s w j : Nat) : Nat × Nat :=
  let sw := stripWidth s w
  (j * sw, min w ((j + 1) * sw) - j * sw)

/-- Sample step of a layout. -/
def pixStep (v : Nat) : Nat := if pixLayout v = 1 then 2 else 1

/-- A RAS payload (R121). -/
def rasEncode (v w : Nat) (lines : List (List Nat)) : List Byte :=
  let s := pixStep v
  let strips := (List.range 8).map (fun j =>
    let (c, n) := stripCols s w j
    if n = 0 then []
    else packBits (rasEncLines (pixDepth v) s c (rasInit (pixDepth v)) 0 [] (lines.map (fun l => (l.drop c).take n))))
  (strips.take 7).flatMap (fun b => leBytes 3 b.length) ++ strips.flatten

/-- The eight strips of a payload. -/
def rasStrips (pl : List Byte) : Option (List (List Byte)) :=
  let lens := (List.range 7).map (fun j => leAt (3 * j) 3 pl)
  let sum := lens.sum
  if pl.length < 21 + sum then none
  else
    let rec cut : List Nat → List Byte → List (List Byte)
      | [], b => [b]
      | n :: ns, b => b.take n :: cut ns (b.drop n)
    some (cut lens (pl.drop 21))

/-- Decode a strip; its padding is zero and shorter than a byte. -/
def rasStrip (v w lines j : Nat) (b : List Byte) : Option (List (List Nat)) :=
  let s := pixStep v
  let (c, n) := stripCols s w j
  if n = 0 then (if b.isEmpty then some (List.replicate lines []) else none)
  else match rasDecLines (pixDepth v) s c n lines (rasInit (pixDepth v)) 0 [] (bytesBits b) with
    | none => none
    | some (ls, rest) => if rest.length < 8 && rest.all (!·) then some ls else none

/-- Join the strips of each line. -/
def joinStrips (lines : Nat) (strips : List (List (List Nat))) : List (List Nat) :=
  (List.range lines).map (fun r => strips.flatMap (fun s => s.getD r []))

/-- Decode a RAS payload into bytes. -/
def rasDecode (v w lines : Nat) (pl : List Byte) : Option (List Byte) :=
  match rasStrips pl with
  | none => none
  | some bs =>
    let ds := (bs.zipIdx.map (fun p => rasStrip v w lines p.2 p.1))
    if ds.any (·.isNone) then none
    else some ((joinStrips lines (ds.map (·.getD []))).flatMap (packLine v w))

/-! ## GEN (R124) -/

/-- Rice parameters of GEN. -/
def genCfg : RiceCfg := ⟨16, 17⟩
/-- Contexts LR 0, LIT0–LIT7 1–8, ML 9, OC 10. -/
def genInit : RiceSt := List.replicate 11 (4, 1)

/-- What a GEN decoder holds between tokens. `out` is reversed. -/
structure GenSt where
  st : RiceSt
  out : List Byte
  n : Nat
  prev : Nat
  lctx : Nat
deriving DecidableEq, Repr

/-- A point between tokens: bits left and bytes produced. -/
abbrev GenMark := Nat × Nat

/-- Decode `k` literals. -/
def genLits (ulen : Nat) : Nat → GenSt → List Bool → List GenMark → Option (GenSt × List Bool × List GenMark)
  | 0, g, bs, ms => some (g, bs, ms)
  | k + 1, g, bs, ms =>
    match riceDecode genCfg g.st (1 + g.lctx) bs with
    | none => none
    | some (dv, st, bs) =>
      let b := unzig 8 dv g.prev
      if 256 ≤ dv ∨ ulen ≤ g.n then none
      else genLits ulen k ⟨st, BitVec.ofNat 8 b :: g.out, g.n + 1, b, min 7 (bitlength dv)⟩ bs ((bs.length, g.n + 1) :: ms)

/-- Copy `ml` bytes from `off` back. -/
def genCopy (off : Nat) : Nat → List Byte → List Byte
  | 0, out => out
  | k + 1, out => genCopy off k (out.getD (off - 1) 0 :: out)

/-- Rounds of literal run and match until ULEN bytes are produced. -/
def genLoop (ulen : Nat) : Nat → GenSt → List Bool → List GenMark → Option (GenSt × List Bool × List GenMark)
  | 0, _, _, _ => none
  | fuel + 1, g, bs, ms =>
    match riceDecode genCfg g.st 0 bs with
    | none => none
    | some (lr, st, bs) =>
      if ulen < g.n + lr then none
      else match genLits ulen lr { g with st := st } bs ((bs.length, g.n) :: ms) with
      | none => none
      | some (g, bs, ms) =>
        if g.n = ulen then some (g, bs, ms)
        else match riceDecode genCfg g.st 9 bs with
        | none => none
        | some (mv, st, bs) => match riceDecode genCfg st 10 bs with
          | none => none
          | some (oc, st, bs) =>
            if 16 < oc then none
            else match (if oc = 0 then some (0, bs) else readBits (oc - 1) bs) with
            | none => none
            | some (r, bs) =>
              let off := (if oc = 0 then 0 else 2 ^ (oc - 1) + r) + 1
              let ml := mv + 4
              if g.n < off ∨ ulen < g.n + ml then none
              else
                let out := genCopy off ml g.out
                let g : GenSt := ⟨st, out, g.n + ml, (out.headD 0).toNat, 0⟩
                if g.n = ulen then some (g, bs, (bs.length, g.n) :: ms)
                else genLoop ulen fuel g bs ((bs.length, g.n) :: ms)

/-- Decode a GEN payload: the bytes, and the points between tokens, latest first. -/
def genDecode (ulen : Nat) (pl : List Byte) : Option (List Byte × List GenMark) :=
  match genLoop ulen (ulen + 1) ⟨genInit, [], 0, 0, 0⟩ (bytesBits pl) [] with
  | none => none
  | some (g, rest, ms) => if rest.length < 8 && rest.all (!·) then some (g.out.reverse, ms) else none

/-- Code `k` literals of the data from position `n`. -/
def genEncLits (data : List Byte) : Nat → Nat → RiceSt → Nat → Nat → List Bool × RiceSt × Nat
  | 0, _, st, prev, _ => ([], st, prev)
  | k + 1, n, st, prev, lctx =>
    let x := (data.getD n 0).toNat
    let dv := zigzag 8 x prev
    let (b, st) := riceEncode genCfg st (1 + lctx) dv
    let (bs, st, p) := genEncLits data k (n + 1) st x (min 7 (bitlength dv))
    (b ++ bs, st, p)

/-- Code a parse. -/
def genEncLoop (data : List Byte) : List (Nat × Option (Nat × Nat)) → Nat → RiceSt → Nat → List Bool
  | [], _, _, _ => []
  | (lr, m) :: ps, n, st, prev =>
    let (b0, st) := riceEncode genCfg st 0 lr
    let (b1, st, _) := genEncLits data lr n st prev 0
    match m with
    | none => b0 ++ b1
    | some (ml, off) =>
      let (b2, st) := riceEncode genCfg st 9 (ml - 4)
      let v := off - 1
      let oc := bitlength v
      let (b3, st) := riceEncode genCfg st 10 oc
      let n := n + lr + ml
      b0 ++ b1 ++ b2 ++ b3 ++ bitsMsb (oc - 1) v ++ genEncLoop data ps n st (data.getD (n - 1) 0).toNat

/-- A GEN payload: the device's choice of matches where it reproduces the bytes, else one literal run. -/
def genEncode (data : List Byte) : List Byte :=
  let code := fun ps => packBits (genEncLoop data ps 0 genInit 0)
  let own := code (Config.genParse data)
  if (genDecode data.length own).map (·.1) = some data then own else code [(data.length, none)]

/-! ## Blocks (R112–R118) -/

/-- Header bytes with HCHK (R113). -/
def blockHeader (format mode flags clen pixfmt width lines : Nat) : List Byte :=
  let a := [0xB7] ++ leBytes 1 format ++ leBytes 1 mode ++ leBytes 1 flags ++ leBytes 3 clen
  let b := leBytes 4 pixfmt ++ leBytes 2 width ++ leBytes 2 lines
  a ++ leBytes 1 (crc32c (a ++ b)) ++ b

/-- Trailer bytes (R114). -/
def blockTrailer (data : List Byte) (index : Nat) : List Byte :=
  leBytes 4 data.length ++ leBytes 4 (crc32c data) ++ leBytes 4 index ++ zeros 4

/-- A piece of a job's source before coding (R126, R127): bytes, WIDTH and LINES of a raster piece, TAIL. -/
structure Piece where
  data : List Byte
  width : Nat
  lines : Nat
  tail : Bool
deriving DecidableEq, Repr

/-- Are the unused bits of a piece zero (R123)? -/
def unusedZero (v : Nat) (p : Piece) : Bool :=
  (chunks (lineBytes v p.width) p.lines p.data).all (fun l => packLine v p.width (unpackLine v p.width l) == l)

/-- An encoded block: its bytes, whether it fell back, and into which mode (R116, R123, R128). -/
structure Encoded where
  bytes : List Byte
  fallback : Bool
  toGen : Bool
  toStore : Bool
deriving DecidableEq, Repr

/-- Encode one block. `mode` is the job's; `forced` writes STORE after a lasting self-check fault (R128). -/
def encodeBlock (mode pixfmt index : Nat) (last forced : Bool) (p : Piece) : Encoded :=
  let gen := mode = 2 ∧ !p.tail ∧ !unusedZero pixfmt p
  let m := if mode = 2 ∧ (p.tail ∨ gen) then 1 else mode
  let payload := match m with
    | 2 => rasEncode pixfmt p.width (((chunks (lineBytes pixfmt p.width) p.lines p.data)).map (unpackLine pixfmt p.width))
    | 1 => genEncode p.data
    | _ => p.data
  let store := m ≠ 0 ∧ (forced ∨ p.data.length ≤ payload.length)
  let pl := if store then p.data else payload
  let md := if store then 0 else m
  let fb : Bool := md != mode
  let fl := b2n last + 2 * b2n fb + 4 * b2n p.tail
  let hdr := if md = 2 then blockHeader 2 2 fl pl.length pixfmt p.width p.lines else blockHeader 1 md fl pl.length 0 0 0
  ⟨hdr ++ pl ++ blockTrailer p.data index, fb, gen, store⟩

/-- A decoded block: its bytes, the bytes of source it took, and for GEN the points between tokens. -/
structure Decoded where
  data : List Byte
  taken : Nat
  marks : List GenMark
deriving DecidableEq, Repr

/-- Job statuses of the table Job statuses. -/
def stDone : Nat := 0
/-- CDC_OUTPUT_FULL. -/
def stOutputFull : Nat := 1
/-- CDC_PAUSED. -/
def stPaused : Nat := 2
/-- CDC_BLOCK_CHECK. -/
def stBlockCheck : Nat := 3
/-- CDC_BLOCK_BAD. -/
def stBlockBad : Nat := 4
/-- CDC_FORMAT_UNSUPPORTED. -/
def stFormat : Nat := 5
/-- CDC_DESC_BAD. -/
def stDescBad : Nat := 6
/-- CDC_CONTEXT_BAD. -/
def stContextBad : Nat := 7
/-- CDC_SRC_FAULT. -/
def stSrcFault : Nat := 8
/-- CDC_ENGINE_FAULT. -/
def stEngineFault : Nat := 9

/-- Decode the block at the head of the source, by the table Block validity (R118, R134). -/
def decodeBlock (src : List Byte) : Except Nat Decoded :=
  let format := leAt 1 1 src
  let mode := leAt 2 1 src
  let clen := leAt 4 3 src
  let pixfmt := leAt 8 4 src
  let width := leAt 12 2 src
  let lines := leAt 14 2 src
  let tr := src.drop (16 + clen)
  let ulen := leAt 0 4 tr
  let pl := (src.drop 16).take clen
  if 2 < format then .error stFormat
  else if src.length < 32 ∨ leAt 0 1 src ≠ 0xB7 ∨ format = 0 ∨
      leAt 7 1 src ≠ crc32c (src.take 7 ++ sliceB 8 8 src) % 256 ∨ 2 < mode ∨ 7 < leAt 3 1 src ∨
      (mode = 2 ∧ format = 1) ∨ 65536 < clen ∨ src.length < clen + 32 ∨ leAt 12 4 tr ≠ 0 ∨
      (mode ≠ 2 ∧ (pixfmt ≠ 0 ∨ width ≠ 0 ∨ lines ≠ 0)) ∨ ulen = 0 ∨ 65536 < ulen then .error stBlockBad
  else if mode = 2 ∧ (!pixOk pixfmt ∨ width = 0 ∨ lines = 0 ∨ ulen ≠ lines * lineBytes pixfmt width) then .error stBlockBad
  else
    let out := match mode with
      | 2 => (rasDecode pixfmt width lines pl).map (fun b => (b, []))
      | 1 => genDecode ulen pl
      | _ => if clen = ulen then some (pl, []) else none
    match out with
    | none => .error stBlockBad
    | some (b, ms) =>
      if crc32c b ≠ leAt 4 4 tr then .error stBlockCheck else .ok ⟨b, clen + 32, ms⟩

/-! ## Tiling (R126, R127) -/

/-- Bands of `n` lines of one plane, each line `w` samples: the last takes what remains. -/
def bands (v w n : Nat) : Nat → List (List Byte) → List Piece
  | 0, _ => []
  | fuel + 1, ls => if ls.isEmpty then [] else
      ⟨(ls.take n).flatten, w, (ls.take n).length, false⟩ :: bands v w n fuel (ls.drop n)

/-- Segments of at most `segw` columns of a group of lines. -/
def segments (v w segw : Nat) (ls : List (List Byte)) : Nat → Nat → List Piece
  | 0, _ => []
  | fuel + 1, c =>
    if w ≤ c then []
    else
      let n := min segw (w - c)
      ⟨ls.flatMap (fun l => (l.drop (lineBytes v c)).take (lineBytes v n)), n, ls.length, false⟩ ::
        segments v w segw ls fuel (c + n)

/-- SEGW: the largest multiple of 64 samples that fits (R126). -/
def segWidth (v u : Nat) : Nat → Nat
  | 0 => 64
  | k + 1 => if u * lineBytes v (64 * (k + 1)) ≤ 65536 then 64 * (k + 1) else segWidth v u k

/-- Tail pieces of up to `n` bytes. -/
def tails (n : Nat) (tail : Bool) : Nat → List Byte → List Piece
  | 0, _ => []
  | fuel + 1, b => if b.isEmpty then [] else ⟨b.take n, 0, 0, tail⟩ :: tails n tail fuel (b.drop n)

/-- The pieces of a RASTER job's source (R126). -/
def tileRaster (v w h : Nat) (src : List Byte) : List Piece :=
  let b := lineBytes v w
  let u := if pixLayout v = 1 then 2 else 1
  let raster := pixPlanes v * h * b
  let planes := chunks (h * b) (pixPlanes v) (src.take raster)
  let body := planes.flatMap (fun p =>
    let ls := chunks b h p
    if u * b ≤ 65536 then bands v w (u * (65536 / (u * b))) h ls
    else (chunks u (ceilDiv h u) ls).flatMap (fun g => segments v w (segWidth v u 1024) g w 0))
  body ++ tails 65536 true (ceilDiv src.length 65536) (src.drop raster)

/-- The pieces of a job without RASTER (R127). -/
def tilePlain (blockKib : Nat) (src : List Byte) : List Piece :=
  let n := blockKib * 4096
  tails n false (ceilDiv src.length n) src

end Sys2Proof.Machine
end

