-- ==== Sys2Proof/Machine/Codec.lean ====
section
/-! DEFINITION. The codec pool: queues, dispatch, running a job, completion, retry, pause and resume
(spec/04_codec.md, R110–R146). -/
namespace Sys2Proof.Machine

/-! ## Queues (R130, R131, R133) -/

/-- Base of the codec-staging region with the lowest number. -/
def Dev.stagingBase (d : Dev) (kind : Nat) : Nat :=
  match d.mem.regions.filter (fun r => r.kind == kind) with
  | [] => 0
  | r :: rs => (rs.foldl (fun a b => if b.num < a.num then b else a) r).base

/-- Address of a descriptor slot (R130). -/
def Dev.sqAddr (d : Dev) (q slot : Nat) : Nat := d.stagingBase 4 + q * 0x18000 + 64 * slot
/-- Address of a completion record (R130). -/
def Dev.cqAddr (d : Dev) (q slot : Nat) : Nat := d.stagingBase 4 + q * 0x18000 + 0x10000 + 32 * slot

/-- DEPTH of a queue. -/
def Dev.qDepth (d : Dev) (q : Nat) : Nat := d.rd .CDC_Q_CFG_DEPTH q

/-- Descriptors a queue holds. -/
def Dev.qHeld (d : Dev) (q : Nat) : Nat :=
  (d.rd .CDC_Q_SQ_TAIL q + d.qDepth q - d.rd .CDC_Q_SQ_HEAD_HEAD q) % d.qDepth q

/-- Completion records not yet consumed, with those reserved for running jobs (R133). -/
def Dev.cqHeld (d : Dev) (q : Nat) : Nat :=
  (d.rd .CDC_Q_CQ_CQ_TAIL q + d.qDepth q - d.rd .CDC_Q_CQ_CQ_HEAD q) % d.qDepth q +
  (d.cdc.engines.filter (fun p => p.2.job.queue == q)).length

/-- The instance of a queue: of a program queue by CDC_Q_CFG, of an internal one by the descriptor at its head. -/
def Dev.qInstance (d : Dev) (q : Nat) : Nat :=
  if 16 ≤ q then d.rd .CDC_Q_CFG_INSTANCE q
  else (d.readByte (d.sqAddr q (d.rd .CDC_Q_SQ_HEAD_HEAD q) + 0x33)).toNat

/-- CDC_Q_SQ_TAIL_WRITE (R131). `who` may submit to program queues of its instance; internal queues take the tail
writes of their submitters, which post through `postJob`. -/
def Dev.tailWrite (d : Dev) (q t : Nat) : Dev :=
  if d.rd .CDC_Q_CFG_ENABLE q = 0 then d
  else if d.qDepth q ≤ t then d.raise 0x0022 [(4, 0x03008104 + 16 * q)]
  else if d.rd .INS_STATUS_RESET_BUSY (d.rd .CDC_Q_CFG_INSTANCE q) = 1 then d
  else
    let old := d.rd .CDC_Q_SQ_TAIL q
    if d.qDepth q - 1 < d.qHeld q + (t + d.qDepth q - old) % d.qDepth q then
      let d := d.cnt .CDC_Q_SQ_HEAD_FULL_CNT q
      if d.cdc.fullEpisode.contains q then d
      else { d with cdc.fullEpisode := q :: d.cdc.fullEpisode }.raiseI (d.rd .CDC_Q_CFG_INSTANCE q) 0x3008 [(2, q)]
    else { d with cdc.fullEpisode := d.cdc.fullEpisode.filter (· != q) }.wr .CDC_Q_SQ_TAIL t q

/-- CQ_HEAD_WRITE (R133). -/
def Dev.cqHeadWrite (d : Dev) (q h : Nat) : Dev :=
  if d.qDepth q ≤ h then d.raise 0x0022 [(4, 0x0300810C + 16 * q)] else d.wr .CDC_Q_CQ_CQ_HEAD h q

/-- An internal submitter posts a job; false when the queue is full, and the submitter waits (R131). -/
def Dev.postJob (d : Dev) (j : Job) : Dev × Bool :=
  let q := j.queue
  if d.qDepth q - 1 ≤ d.qHeld q then (d, false)
  else
    let t := d.rd .CDC_Q_SQ_TAIL q
    let d := d.store (d.sqAddr q t) j.desc
    ({ d with cdc.jobs := amPut (q * 1024 + t) j d.cdc.jobs }.wr .CDC_Q_SQ_TAIL ((t + 1) % d.qDepth q) q, true)

/-- A descriptor's 64 bytes (R129). -/
def jobDesc (op mode flags blockKib pixfmt width height firstIndex src srcLen ctx dst dstLen tag inst : Nat) : List Byte :=
  leBytes 1 op ++ leBytes 1 mode ++ leBytes 1 flags ++ leBytes 1 blockKib ++ leBytes 4 pixfmt ++ leBytes 2 width ++
  leBytes 2 height ++ leBytes 4 firstIndex ++ leBytes 8 src ++ leBytes 4 srcLen ++ leBytes 2 ctx ++ zeros 2 ++
  leBytes 8 dst ++ leBytes 4 dstLen ++ leBytes 4 tag ++ zeros 3 ++ leBytes 1 inst ++ zeros 12

/-! ## Descriptor rules (R129) -/

/-- OP, MODE, flags of a descriptor. -/
def dOp (b : List Byte) : Nat := leAt 0 1 b
/-- MODE. -/
def dMode (b : List Byte) : Nat := leAt 1 1 b
/-- FLAGS[0] RASTER. -/
def dRaster (b : List Byte) : Bool := bitOf 0 (leAt 2 1 b)
/-- FLAGS[1] RESUMABLE. -/
def dResumable (b : List Byte) : Bool := bitOf 1 (leAt 2 1 b)
/-- FLAGS[2] RESUME. -/
def dResume (b : List Byte) : Bool := bitOf 2 (leAt 2 1 b)
/-- SRC and SRC_LEN. -/
def dSrc (b : List Byte) : Nat := leAt 0x10 8 b
/-- SRC_LEN. -/
def dSrcLen (b : List Byte) : Nat := leAt 0x18 4 b
/-- DST. -/
def dDst (b : List Byte) : Nat := leAt 0x20 8 b
/-- DST_LEN. -/
def dDstLen (b : List Byte) : Nat := leAt 0x28 4 b
/-- TAG. -/
def dTag (b : List Byte) : Nat := leAt 0x2C 4 b

/-- The offset of the first field that breaks the table Job descriptor, if any. -/
def descFault (q : Nat) (b : List Byte) : Option Nat :=
  let op := dOp b
  let fl := leAt 2 1 b
  let pix := leAt 4 4 b
  let w := leAt 8 2 b
  let h := leAt 0xA 2 b
  let ras := dRaster b
  firstFault
    [(decide (op < 3), 0), (decide (dMode b < 3) && (op == 0 || dMode b == 0), 1),
     (decide (fl < 16) && (!ras || op == 0) && (dMode b != 2 || ras) && (!dResumable b || decide (4 ≤ q ∧ q < 16)), 2),
     (if op = 0 ∧ !ras then decide (1 ≤ leAt 3 1 b ∧ leAt 3 1 b ≤ 16) else leAt 3 1 b == 0, 3),
     (if ras then pixOk pix else pix == 0, 4), (if ras then decide (16 ≤ w) else w == 0, 8),
     (if ras then decide (16 ≤ h) else h == 0, 0xA),
     (decide (1 ≤ dSrcLen b) && (!ras || dResume b || decide (pixPlanes pix * h * lineBytes pix w ≤ dSrcLen b)), 0x18),
     (if dResume b then decide (leAt 0x1C 2 b < 256) else leAt 0x1C 2 b == 0, 0x1C), (leAt 0x1E 2 b == 0, 0x1E),
     (op != 2 || dDst b == 0, 0x20), (op != 2 || dDstLen b == 0, 0x28), (decide (leAt 0x32 1 b < 32), 0x32),
     (decide (q < 16) || leAt 0x33 1 b == 0, 0x33), (allZero (sliceB 0x34 12 b), 0x34)]

/-! ## Running a job (R112–R127, R134, R139–R142) -/

/-- What a job produced. `dst` holds bytes to write with their offset; `ctx` the context of a pause. -/
structure JobResult where
  status : Nat
  blocks : Nat
  failed : Option Nat
  inUsed : Nat
  out : List Byte
  encoded : List Encoded
  outBlocks : List (List Byte)
  ctx : Option CodecCtx
deriving DecidableEq, Repr

/-- A job that ends at once. -/
def jobEnds (status : Nat) (failed : Option Nat) : JobResult := ⟨status, 0, failed, 0, [], [], [], none⟩

/-- Encode pieces one after another while they fit (R139). The result holds what was written and the pieces left. -/
def encodePieces (mode pixfmt room : Nat) (forced : List Nat) : Nat → List Piece → List Encoded × List Piece
  | _, [] => ([], [])
  | k, p :: ps =>
    let e := encodeBlock mode pixfmt k ps.isEmpty (forced.contains k) p
    if room < e.bytes.length then ([], p :: ps)
    else
      let (es, rest) := encodePieces mode pixfmt (room - e.bytes.length) forced (k + 1) ps
      (e :: es, rest)

/-- A compress job on its source (R126–R128, R139–R142). A resumed job takes its tiling from the whole frame and skips
the `done` pieces, of `before` bytes, that earlier runs encoded. -/
def compressJob (desc : List Byte) (rest : List Byte) (before done : Nat) (resumable : Bool) (forced : List Nat) (inst : Nat) :
    JobResult :=
  let mode := dMode desc
  let pix := leAt 4 4 desc
  let first := leAt 0xC 4 desc
  let src := zeros before ++ rest
  let all := if dRaster desc then tileRaster pix (leAt 8 2 desc) (leAt 0xA 2 desc) src else tilePlain (leAt 3 1 desc) src
  let pieces := all.drop done
  let (es, rest) := encodePieces mode pix (dDstLen desc) forced first pieces
  let used := ((pieces.take es.length).map (fun p => p.data.length)).sum
  let out := es.flatMap (·.bytes)
  if rest.isEmpty then ⟨stDone, es.length, none, used, out, es, es.map (·.bytes), none⟩
  else if resumable then
    ⟨stPaused, es.length, none, used, out, es, es.map (·.bytes),
      some ⟨inst, 0, mode, dRaster desc, pix, leAt 8 2 desc, leAt 0xA 2 desc, dSrc desc + used, dSrcLen desc - used,
        first + es.length, done + es.length, [], before + used⟩⟩
  else ⟨stOutputFull, es.length, none, used, out, es, es.map (·.bytes), none⟩

/-- Where a block's decompression stops when only `room` bytes fit (R140): bytes produced. STORE the last byte; GEN the
last whole token; RAS the last line. -/
def stopPoint (src : List Byte) (x : Decoded) (room : Nat) : Nat :=
  match leAt 2 1 src with
  | 0 => room
  | 1 => (x.marks.filter (fun m => decide (m.2 ≤ room))).foldl (fun a m => max a m.2) 0
  | _ =>
    let b := lineBytes (leAt 8 4 src) (leAt 12 2 src)
    if b = 0 then 0 else room / b * b

/-- Source bytes wholly consumed at a stop inside a block (R141). -/
def stopConsumed (src : List Byte) (x : Decoded) (n : Nat) : Nat :=
  match leAt 2 1 src with
  | 0 => 16 + n
  | 1 => match x.marks.find? (fun m => decide (m.2 ≤ n)) with
    | some m => 16 + (8 * leAt 4 3 src - m.1) / 8
    | none => 16
  | _ => 16

/-- Decode blocks one after another (R134, R139–R141). `skip` bytes of the first block were produced before a pause. -/
def decodeBlocks (op room : Nat) : Nat → Nat → Nat → List Byte → JobResult × Option (Nat × Nat)
  | 0, _, k, _ => (⟨stBlockBad, k, some k, 0, [], [], [], none⟩, none)
  | fuel + 1, skip, k, src =>
    if src.isEmpty then (⟨stDone, 0, none, 0, [], [], [], none⟩, none)
    else match decodeBlock src with
    | .error s => (⟨s, 0, some k, 0, [], [], [], none⟩, none)
    | .ok x =>
      let new := x.data.drop skip
      if op = 2 ∨ new.length ≤ room then
        let (r, p) := decodeBlocks op (room - new.length) fuel 0 (k + 1) (src.drop x.taken)
        ({ r with
          blocks := r.blocks + 1, inUsed := r.inUsed + x.taken, out := (if op = 2 then [] else new) ++ r.out
          outBlocks := (if op = 2 then [] else [new]) ++ r.outBlocks }, p.map (fun q => (q.1 + x.taken, q.2)))
      else
        let n := max skip (stopPoint src x (skip + room))
        (⟨stOutputFull, 0, none, stopConsumed src x n, (x.data.take n).drop skip, [], [(x.data.take n).drop skip], none⟩,
          some (0, n))

/-- A decompress or verify job on its source; `head` holds the bytes of a block begun before a pause. -/
def decompressJob (desc : List Byte) (head src : List Byte) (skip : Nat) (resumable : Bool) (inst : Nat) : JobResult :=
  let op := dOp desc
  let whole := head ++ src
  let (r, stop) := decodeBlocks op (dDstLen desc) (whole.length + 1) skip 0 whole
  let r : JobResult := { r with inUsed := r.inUsed - head.length }
  match stop with
  | some (at_, n) =>
    if resumable then
      let h := (whole.drop at_).take (r.inUsed + head.length - at_)
      { r with
        status := stPaused
        ctx := some ⟨inst, op, 0, false, 0, 0, 0, dSrc desc + r.inUsed, dSrcLen desc - r.inUsed, 0, 0, h, n⟩ }
    else r
  | none => r

/-- May a resume job continue this context (R142)? -/
def CodecCtx.fits (c : CodecCtx) (inst : Nat) (b : List Byte) : Bool :=
  c.inst == inst && c.op == dOp b && c.mode == dMode b && c.raster == dRaster b && c.pixfmt == leAt 4 4 b &&
  c.width == leAt 8 2 b && c.height == leAt 0xA 2 b && c.src == dSrc b && c.srcLen == dSrcLen b &&
  (c.op != 0 || c.firstIndex == leAt 0xC 4 b)

/-- Run a job's function on device memory (R129, R134, R139–R142). -/
def Dev.runJob (d : Dev) (r : Running) (forced : List Nat) : JobResult :=
  let b := r.job.desc
  let i := r.job.inst
  let internal := r.job.src.isSome
  let bad := !internal && (!d.memAllowed i (dSrc b) (dSrcLen b) || d.poisoned (dSrc b) (dSrcLen b) ||
    (dOp b != 2 && dDstLen b != 0 && !(r.job.queue < 16) && !d.memAllowed i (dDst b) (dDstLen b)))
  if bad then jobEnds stSrcFault none
  else
    let src := match r.job.src with | some s => s | none => d.readMem (dSrc b) (dSrcLen b)
    let slot := leAt 0x1C 2 b
    match dResume b, amFind slot d.cdc.ctxs with
    | true, none => jobEnds stContextBad none
    | true, some c =>
      if !c.fits i b then jobEnds stContextBad none
      else if dOp b = 0 then
        compressJob b src c.skip c.unitsDone r.resumable forced i
      else decompressJob b c.head src c.skip r.resumable i
    | false, _ =>
      if dOp b = 0 then compressJob b src 0 0 r.resumable forced i else decompressJob b [] src 0 r.resumable i

/-! ## Dispatch (R110, R129, R132, R133) -/

/-- The 32-byte completion record. -/
def jobRecord (status engine queue flags tag blocks failed inUsed out ctx : Nat) : List Byte :=
  leBytes 1 status ++ leBytes 1 engine ++ leBytes 1 queue ++ leBytes 1 flags ++ leBytes 4 tag ++ leBytes 4 blocks ++
  leBytes 4 failed ++ leBytes 4 inUsed ++ leBytes 4 out ++ leBytes 2 ctx ++ zeros 6

/-- Write a job's completion record, raise 0x3001 where it failed and notify (table Completion record). A fenced job's
record, event and notification are dropped (R144). -/
def Dev.recordJob (d : Dev) (j : Job) (engine flags : Nat) (r : JobResult) (ctx : Option Nat) : Dev :=
  let q := j.queue
  if d.gen j.inst ≠ j.gen then d
  else
    let t := d.rd .CDC_Q_CQ_CQ_TAIL q
    let failed := r.failed.getD 0xFFFFFFFF
    let d := d.store (d.cqAddr q t) (jobRecord r.status engine q flags (dTag j.desc) r.blocks failed r.inUsed r.out.length
      (ctx.getD 0xFFFF))
    let d := d.wr .CDC_Q_CQ_CQ_TAIL ((t + 1) % d.qDepth q) q
    let d := if r.status = stDone ∨ r.status = stPaused then d
      else d.raiseI j.inst 0x3001 [(2, q), (4, dTag j.desc), (1, r.status), (4, failed)]
    if bitOf 3 (leAt 2 1 j.desc) then d.notify j.inst (leAt 0x30 2 j.desc) (leAt 0x32 1 j.desc) else d

/-- Engines that may have jobs at the throttle level in force (R477). -/
def Dev.codecLimit (d : Dev) : Nat := match d.rd .THM_STATUS_LEVEL with | 3 => 16 | 2 => 24 | _ => 32

/-- The lowest-numbered engine that is idle and in service, within the codec limit. -/
def Dev.idleEngine (d : Dev) (except : Option Nat) : Option Nat :=
  if d.codecLimit ≤ d.cdc.engines.length ∧ except.isNone then none
  else (List.range 32).find? (fun e => d.rd .CDC_ENG_STATUS_RETIRED e == 0 && some e != except && (amFind e d.cdc.engines).isNone)

/-- Queues with a job that may start: waiting descriptor and a free completion record. -/
def Dev.readyQueues (d : Dev) : List Nat :=
  (List.range 64).filter (fun q => d.qHeld q != 0 && decide (d.cqHeld q < d.qDepth q - 1))

/-- The queue that gives the next job (R132): instance by share, LT before BK, ascending number. -/
def Dev.pickQueue (d : Dev) : Option Nat :=
  let qs := d.readyQueues
  match d.arbPick 0 ((qs.map d.qInstance).eraseDups) with
  | none => none
  | some n =>
    let mine := qs.filter (fun q => d.qInstance q == n)
    match mine.find? (fun q => d.rd .CDC_Q_CFG_CLASS q == 0) with
    | some q => some q
    | none => mine.head?

/-- Engine time of a job in ns, from its uncompressed bytes (table Engine rates). -/
def jobTime (b : List Byte) : Nat :=
  if dOp b ≠ 0 then dSrcLen b / 12 else match dMode b with | 0 => dSrcLen b / 24 | 1 => dSrcLen b / 8 | _ => dSrcLen b / 12

/-- An engine's registers show its job. -/
def Dev.showJob (d : Dev) (e : Nat) (j : Job) : Dev :=
  ((((d.wr .CDC_ENG_STATUS_QUEUE j.queue e).wr .CDC_ENG_STATUS_INSTANCE j.inst e).wr .CDC_ENG_STATUS_OP (dOp j.desc) e).wr
    .CDC_ENG_STATUS_MODE (dMode j.desc) e).wr .CDC_ENG_STATUS_BUSY 1 e

/-- Is a job that starts now resumable (R140)? -/
def Dev.resumableNow (d : Dev) (j : Job) : Bool := dResumable j.desc || decide (d.rd .AVL_STATUS_MODE ∈ [0, 5, 7])

/-- JOB_DISPATCH (R110): the pool reads the descriptor at the head of the chosen queue and starts it on the
lowest-numbered idle engine, or rejects it (R129). A rejected job of an internal queue is returned to its submitter. -/
def Dev.dispatchJob (d : Dev) : Dev × Option (Job × JobResult) :=
  match d.idleEngine none, d.pickQueue with
  | some e, some q =>
    let h := d.rd .CDC_Q_SQ_HEAD_HEAD q
    let i := d.qInstance q
    let b := d.readMem (d.sqAddr q h) 64
    let j : Job := match amFind (q * 1024 + h) d.cdc.jobs with
      | some j => j
      | none => ⟨q, b, i, d.gen i, .program, none⟩
    let d := { d with cdc.jobs := amDel (q * 1024 + h) d.cdc.jobs }.wr .CDC_Q_SQ_HEAD_HEAD ((h + 1) % d.qDepth q) q
    match descFault q j.desc with
    | some o =>
      let d := d.raiseI i 0x3007 [(2, q), (4, dTag j.desc), (2, o)]
      let r := jobEnds stDescBad none
      (d.recordJob j e 0 r none, some (j, r))
    | none =>
      let d := (d.showJob e j).charge 0 i (jobTime j.desc)
      ({ d with cdc.engines := amPut e ⟨j, d.resumableNow j, false⟩ d.cdc.engines }, none)
  | _, _ => (d, none)

/-! ## Completion (R128, R134, R137–R145) -/

/-- An engine is idle again. -/
def Dev.freeEngine (d : Dev) (e : Nat) : Dev :=
  let d := { d with cdc.engines := amDel e d.cdc.engines }
  ((((d.wr .CDC_ENG_STATUS_QUEUE 0 e).wr .CDC_ENG_STATUS_INSTANCE 0 e).wr .CDC_ENG_STATUS_OP 0 e).wr
    .CDC_ENG_STATUS_MODE 0 e).wr .CDC_ENG_STATUS_BUSY 0 e

/-- Retire an engine (R138). -/
def Dev.retireEngine (d : Dev) (e : Nat) : Dev :=
  let left := d.rd .CDC_POOL_STATUS_ENGINES - 1
  let d := (d.wr .CDC_ENG_STATUS_RETIRED 1 e).wr .CDC_POOL_STATUS_ENGINES left
  (d.raise 0x3006 [(2, e), (4, left)]).degrade 3 e

/-- A lasting fault of an engine (R137, R138). -/
def Dev.engineLasting (d : Dev) (e : Nat) : Dev :=
  let ts := d.recent (d.rd .CDC_POOL_CFG_FAULT_WINDOW_H) (amGet [] e d.cdc.lastingAt) ++ [d.now]
  let d := { d with cdc.lastingAt := amSet [] e ts d.cdc.lastingAt }
  let d := (d.cnt .CDC_ENG_FAULTS_LASTING e).wr .CDC_ENG_STATUS_SUSPECT 1 e
  if d.rd .CDC_POOL_CFG_RETIRE_THRESHOLD ≤ ts.length ∧ d.rd .CDC_ENG_STATUS_RETIRED e = 0 then d.retireEngine e else d

/-- Self-check mismatches of a job (R128). -/
def Dev.selfChecks (d : Dev) (e : Nat) : List SelfCheck → Dev
  | [] => d
  | c :: cs =>
    let d := (d.cnt .CDC_ENG_SELFCHK e).raise 0x3003 [(2, e), (4, c.block), (1, b2n c.lasting)]
    (if c.lasting then d.engineLasting e else d).selfChecks e cs

/-- The result of an attempt: that of the job, unless the engine failed. -/
def attempt (r : JobResult) : Option JobFault → JobResult
  | none => r
  | some f => { r with status := f.status, failed := some f.block, ctx := none }

/-- Statuses that are retried (R137). -/
def retried (s : Nat) : Bool := s == stBlockCheck || s == stBlockBad || s == stSrcFault || s == stEngineFault

/-- The byte counters of an engine (CDC_ENG_IN, CDC_ENG_OUT), its jobs and its fallbacks. -/
def Dev.countJob (d : Dev) (e : Nat) (b : List Byte) (r : JobResult) : Dev :=
  let (u, c) := if dOp b = 0 then (r.inUsed, r.out.length) else (r.out.length, r.inUsed)
  let d := (d.cnt64 .CDC_ENG_IN_LO .CDC_ENG_IN_HI e u).cnt64 .CDC_ENG_OUT_LO .CDC_ENG_OUT_HI e c
  let d := d.cnt .CDC_ENG_JOBS e
  let d := d.cnt .CDC_ENG_FALLBACK_TO_GEN e (r.encoded.filter (·.toGen)).length
  d.cnt .CDC_ENG_FALLBACK_TO_STORE e (r.encoded.filter (·.toStore)).length

/-- Bytes of undefined content at a destination (R134, R139). -/
def Dev.scramble (d : Dev) (a n : Nat) : Dev :=
  let (bs, d) := d.drawBytes n
  d.store a bs

/-- Write a job's output at DST. A full output loses the SYNC byte of every block header written (R139) and leaves the
region undefined; a failed decompression leaves it undefined from the failing block on (R134). A fenced job writes
nothing (R144). -/
def Dev.writeOutput (d : Dev) (j : Job) (r : JobResult) : Dev :=
  let b := j.desc
  if d.gen j.inst ≠ j.gen ∨ dOp b = 2 ∨ j.purpose ≠ .program then d
  else
    let d := d.store (dDst b) (r.out.take (dDstLen b))
    if r.status = stDone ∨ r.status = stPaused ∨ r.status = stContextBad then d
    else if r.status = stOutputFull then
      let d := d.scramble (dDst b) (dDstLen b)
      if dOp b = 0 then
        (r.outBlocks.foldl (fun (p : Dev × Nat) (o : List Byte) => (p.1.store p.2 [0], p.2 + o.length)) (d, dDst b)).1
      else d
    else if d.memAllowed j.inst (dDst b) (dDstLen b) then d.scramble (dDst b + r.out.length) (dDstLen b - r.out.length)
    else d

/-- A free context slot (R143). -/
def Dev.freeCtx (d : Dev) : Option Nat := (List.range 256).find? (fun k => (amFind k d.cdc.ctxs).isNone)

/-- CTX_FREE of the pool register follows the slots (R143). -/
def Dev.setCtxs (d : Dev) (m : AMap CodecCtx) : Dev :=
  { d with cdc.ctxs := m }.wr .CDC_POOL_STATUS_CTX_FREE (256 - m.length)

/-- JOB_COMPLETE (R134, R137, R139–R143): engine `e` ends its job. `first` and `second` are engine failures of the
attempt and of its retry; `checks` the self-check mismatches. The result goes to the job's submitter. -/
def Dev.completeJob (d : Dev) (e : Nat) (first second : Option JobFault) (checks : List SelfCheck) :
    Dev × Option (Job × JobResult) :=
  match amFind e d.cdc.engines with
  | none => (d, none)
  | some run =>
    let j := run.job
    let d := d.selfChecks e checks
    let forced := (checks.filter (·.lasting)).map (·.block)
    let base := d.runJob run forced
    let r1 := attempt base first
    let (d, r, eng, flag) : Dev × JobResult × Nat × Nat :=
      if retried r1.status then
        let e2 := match d.idleEngine (some e) with | some k => k | none => e
        let r2 := attempt base second
        if r2.status = stDone then
          ((d.cnt .CDC_ENG_FAULTS_TRANSIENT e).raise 0x3004 [(2, e), (1, r1.status)], r2, e2, 1)
        else if r2.status = r1.status ∧ r2.failed = r1.failed then (d, r2, e2, 1)
        else
          let d := d.engineLasting e
          (d.raise 0x3005 [(2, e), (1, r1.status), (4, (amGet [] e d.cdc.lastingAt).length)],
            { r2 with status := stEngineFault }, e2, 1)
      else (d, r1, e, b2n run.rerun)
    let d := d.freeEngine e
    let d := d.countJob eng j.desc r
    let slot := leAt 0x1C 2 j.desc
    let fenced := d.gen j.inst ≠ j.gen
    let (d, r, ctx) : Dev × JobResult × Option Nat := match r.ctx with
      | none => (d, r, none)
      | some c =>
        if fenced then (d, r, none)
        else match (if dResume j.desc then some slot else d.freeCtx) with
          | some k =>
            ((d.setCtxs (amPut k c d.cdc.ctxs)).raiseI j.inst 0x3009 [(1, k), (2, j.queue), (4, dTag j.desc)], r, some k)
          | none => (d.raiseI j.inst 0x300A [(2, j.queue), (4, dTag j.desc)], { r with status := stOutputFull, ctx := none },
              none)
    let d := if dResume j.desc ∧ r.status = stDone then d.setCtxs (amDel slot d.cdc.ctxs) else d
    let d := if r.status = stContextBad then d.raiseI j.inst 0x300B [(1, slot), (2, j.queue), (4, dTag j.desc)] else d
    let d := d.writeOutput j r
    let fl := flag + 2 * b2n (r.encoded.any (·.fallback)) + 4 * b2n ctx.isSome
    (d.recordJob j eng fl r ctx, some (j, r))

/-- ENG_RESET (R145): the engine's job runs once more from its start on another idle engine; no fault is counted. Fields
without E among their survivors return to reset. -/
def Dev.engReset (d : Dev) (e : Nat) : Dev :=
  let run := amFind e d.cdc.engines
  let d := (d.freeEngine e).wr .CDC_ENG_STATUS_RSVD_WRITE 0 e
  match run with
  | none => d
  | some r =>
    let e2 := match d.idleEngine (some e) with | some k => k | none => e
    ({ d with cdc.engines := amPut e2 { r with rerun := true } d.cdc.engines }).showJob e2 r.job

/-- CTX_FREE (R143). -/
def Dev.ctxFree (d : Dev) (slot : Nat) : Dev := d.setCtxs (amDel slot d.cdc.ctxs)

/-- Remove an instance's unstarted jobs and free its contexts (R144). -/
def Dev.codecInstanceReset (d : Dev) (n : Nat) : Dev :=
  let d := (List.range 64).foldl (fun (d : Dev) q =>
    if d.qInstance q = n ∧ d.qHeld q ≠ 0 then
      if 16 ≤ q then d.wr .CDC_Q_SQ_HEAD_HEAD (d.rd .CDC_Q_SQ_TAIL q) q
      else
        let h := d.rd .CDC_Q_SQ_HEAD_HEAD q
        let slots := (List.range (d.qHeld q)).map (fun k => (h + k) % d.qDepth q)
        let keep := slots.filterMap (fun s => (amFind (q * 1024 + s) d.cdc.jobs).bind (fun j => if j.inst = n then none else some j))
        let d := { d with cdc.jobs := d.cdc.jobs.filter (fun p => p.1 / 1024 != q) }
        let d := d.wr .CDC_Q_SQ_TAIL h q
        keep.foldl (fun (d : Dev) j => (d.postJob j).1) d
    else d) d
  d.setCtxs (d.cdc.ctxs.filter (fun p => p.2.inst != n))

/-- A warm reset ends every job and empties every queue; context slots survive (R145). -/
def Dev.codecWarm (d : Dev) : Dev :=
  { d with cdc.jobs := [], cdc.engines := [], cdc.fullEpisode := [] }

end Sys2Proof.Machine
end

