-- ==== Sys2Proof/Machine/Flash.lean ====
section
/-! DEFINITION. The flash back end: dies, superblocks, stripes, codewords and their code, reading, read levels, training,
retirement and carriers (spec/05_flash.md, R147–R188). What a die, a decoder or a training found comes with the command. -/
namespace Sys2Proof.Machine

/-! ## Codewords (R150, R151, R155, R158) -/

/-- Column blocks that row block `i` holds, with their shifts (R151). -/
def ldpcShift (i j : Nat) : Option Nat :=
  if (j + 7 * 7 - i) % 7 ∈ [0, 1, 3] then some ((29 * i * (j + 1) + 3 * j) % 256) else none

/-- λ of row block `i`: position `r` of the sum is position (r + s) mod 256 of each column block, so each is rotated left. -/
def ldpcRow (i : Nat) (x : List W256) : W256 :=
  (x.zipIdx).foldl (fun acc c => match ldpcShift i c.2 with | some s => acc ^^^ c.1.rotateLeft s | none => acc) 0

/-- The seven parity blocks by back-substitution (pseudocode LDPC encoding). -/
def ldpcBlocks (x : List W256) : Nat → Nat → W256 → List W256
  | 0, _, _ => []
  | n + 1, i, prev => let p := ldpcRow i x ^^^ prev; p :: ldpcBlocks x n (i + 1) p

/-- The 224 parity bytes of a 4,128-byte information part. -/
def ldpcParity (info : List Byte) : List Byte :=
  let x := (chunks 32 129 info).map (fun c => BitVec.ofNat 256 (ofBe (sliceB 0 32 c)))
  (ldpcBlocks x 7 0 0).flatMap (fun p => beBytes 32 p.toNat)

/-- The codeword header with its HCRC (R150). -/
def cwHeader (kind ver key flags pos skip cw seq tweak tag : Nat) : List Byte :=
  let b := leBytes 1 kind ++ leBytes 1 ver ++ leBytes 1 key ++ leBytes 1 flags ++ leBytes 1 pos ++ leBytes 1 skip ++
    leBytes 1 cw ++ zeros 1 ++ leBytes 8 seq ++ leBytes 8 tweak ++ leBytes 4 tag
  b ++ leBytes 4 (crc32c b)

/-- Bytewise sum of information parts (P of R155). -/
def xorBytes (a b : List Byte) : List Byte := List.zipWith (· ^^^ ·) a b

/-- One byte times g = 2 in GF(2⁸) with x⁸ + x⁴ + x³ + x² + 1 (R155). -/
def gfTwice (b : Byte) : Byte := if b.getLsbD 7 then (b <<< 1) ^^^ 0x1D else b <<< 1

/-- P over the data units' information parts. -/
def parityP (n : Nat) (units : List (List Byte)) : List Byte := units.foldl xorBytes (zeros n)

/-- Q: the sum of g^k · D_k, by Horner's rule from the last unit. -/
def parityQ (n : Nat) (units : List (List Byte)) : List Byte :=
  units.foldr (fun u acc => xorBytes u (acc.map gfTwice)) (zeros n)

/-! ## Dies, channels, carriers -/

/-- A die that nothing has been found of. -/
def dieInit : Die :=
  ⟨⟨[], 0, 0, 0, 0, 0, 0, 0⟩, false, false, none, [], [], [], [], [], [], [], [], [], [], false⟩

/-- Die `k` of channel `c`. -/
def Dev.die (d : Dev) (c k : Nat) : Die := amGet dieInit (c * 32 + k) d.fls.dies
/-- Replace it. -/
def Dev.setDie (d : Dev) (c k : Nat) (x : Die) : Dev := { d with fls.dies := amSet dieInit (c * 32 + k) x d.fls.dies }

/-- A carrier never seen. -/
def carrierInit : Carrier := ⟨none, false, 0, 0, 0, 0, false⟩
/-- Carrier `k` beside its register. -/
def Dev.carrier (d : Dev) (k : Nat) : Carrier := amGet carrierInit k d.fls.carriers
/-- Replace it. -/
def Dev.setCarrier (d : Dev) (k : Nat) (x : Carrier) : Dev := { d with fls.carriers := amSet carrierInit k x d.fls.carriers }

/-- STATE of carrier `k`: 0 ABSENT, 1 POWERING, 2 TRAINING, 3 HELD, 4 REBUILDING, 5 ONLINE, 6 QUIESCING, 7 OFF, 8 FAILED. -/
def Dev.carState (d : Dev) (k : Nat) : Nat := d.rd .FLS_CARRIER_STATE k
/-- Carriers ONLINE. -/
def Dev.online (d : Dev) : List Nat := (List.range 16).filter (fun k => d.carState k == 5)

/-- Is a channel in service? -/
def Dev.chanUp (d : Dev) (c : Nat) : Bool := d.rd .FLS_CH_STATUS_RETIRED c == 0
/-- Is a die in service (R153)? -/
def Dev.dieUp (d : Dev) (c k : Nat) : Bool := d.chanUp c && !(d.die c k).retired && (d.die c k).info.pageBytes != 0

/-- Channel half, die and block of a superblock number (R190). -/
def sbHalf (sb : Nat) : Nat := sb / 32 % 2
/-- Die. -/
def sbDie (sb : Nat) : Nat := sb % 32
/-- Block. -/
def sbBlock (sb : Nat) : Nat := sb / 64

/-- Is a block of a die usable in a superblock: not retired, or remapped to a spare (R153, R176)? -/
def Die.usable (x : Die) (b : Nat) : Bool := decide (b < x.info.blocks) && (!x.retiredBlocks.contains b || x.remap.any (fun r => r.1 == b))

/-- The members a superblock would have if it opened now (R153). -/
def Dev.sbMembers (d : Dev) (sb : Nat) : List Nat :=
  d.online.filter (fun k => let c := 2 * k + sbHalf sb; d.dieUp c (sbDie sb) && (d.die c (sbDie sb)).usable (sbBlock sb))

/-- A superblock no record tells of. -/
def sbInit : Superblock := ⟨0, [], 0, 0, 0, 0, false⟩
/-- A superblock's record. -/
def Dev.sb (d : Dev) (n : Nat) : Superblock := amGet sbInit n d.fls.sbs
/-- Replace it. -/
def Dev.setSb (d : Dev) (n : Nat) (x : Superblock) : Dev := { d with fls.sbs := amSet sbInit n x d.fls.sbs }

/-- The die that gives a superblock its geometry: that of its lowest member. -/
def Dev.sbGeom (d : Dev) (sb : Nat) (members : List Nat) : DieInfo := (d.die (2 * members.headD 0 + sbHalf sb) (sbDie sb)).info
/-- U: codewords of a unit (R154). -/
def unitCws (g : DieInfo) : Nat := g.planes * g.pageBytes / 4352
/-- Blocks of every die: the superblocks there are, 64 for each block number. -/
def Dev.sbTotal (d : Dev) : Nat := (d.fls.dies.foldl (fun m p => max m p.2.info.blocks) 0) * 64

/-- The superblock with the fewest erases among those free with at least 14 members (R153, R220). -/
def Dev.pickSb (d : Dev) : Option Nat :=
  let ok := fun n => decide (n < d.sbTotal) && decide (14 ≤ (d.sbMembers n).length)
  let listed := d.fls.sbs.filter (fun p => p.2.state == 0 && ok p.1)
  let fresh := (List.range (d.fls.sbs.length + 65)).find? (fun n => !d.fls.sbs.any (fun p => p.1 == n) && ok n)
  match fresh with
  | some n => some n
  | none => (listed.foldl (fun (m : Option (Nat × Superblock)) p => match m with
      | none => some p
      | some q => if p.2.erases < q.2.erases then some p else some q) none).map (·.1)

/-- Free superblocks, the hold-up reserve excluded (DUR_FREE_SB). -/
def Dev.freeSbs (d : Dev) : Nat := d.sbTotal - (d.fls.sbs.filter (fun p => p.2.state != 0)).length

/-- Show the free count. -/
def Dev.showFree (d : Dev) : Dev := d.wr .DUR_FREE_SB d.freeSbs

/-! ## Stripes (R154–R157) -/

/-- A stripe by its model number. -/
def Dev.stripe (d : Dev) (id : Nat) : Option Stripe := d.fls.stripes.find? (fun s => s.id == id)
/-- Change it. -/
def Dev.setStripe (d : Dev) (id : Nat) (f : Stripe → Stripe) : Dev :=
  { d with fls.stripes := d.fls.stripes.map (fun s => if s.id = id then f s else s) }
/-- The stripe at page set `w` of a superblock. -/
def Dev.stripeAt (d : Dev) (sb w : Nat) : Option Stripe := d.fls.stripes.find? (fun s => s.sb == sb && s.w == w && !s.dump)

/-- P's and Q's members of a stripe (R154). -/
def Stripe.parity (s : Stripe) : Nat × Nat :=
  let m := s.members.length
  (s.members.getD (s.w % m) 0, s.members.getD ((s.w + 1) % m) 0)

/-- The members that carry data units, in order. -/
def Stripe.dataMembers (s : Stripe) : List Nat := s.members.filter (fun k => k != s.parity.1 && k != s.parity.2)

/-- Codewords of the stripe summary for so many entries (R195). -/
def summaryCws (n : Nat) : Nat := ceilDiv n 128

/-- Bytes of a stripe's data space that blocks may use when it holds `n` of them. -/
def stripeRoom (members u n : Nat) : Nat := (members - 2) * u * 4096 - 4096 * summaryCws n

/-- The 32-byte summary entry: the map entry and the CSEQ (R189, R195). -/
def summaryEntry (b : StripeBlock) : List Byte :=
  leBytes 8 b.entry.loff ++ leBytes 3 b.entry.ulen ++ leBytes 3 b.entry.slen ++ leBytes 1 (b2n b.entry.overlay) ++ zeros 1 ++
  leBytes 8 (b.entry.sb * 2 ^ 40 + b.entry.w * 2 ^ 28 + b.entry.off) ++ leBytes 8 b.cseq

/-- The data space of a stripe: its blocks, zeros where no block lies (R190), the summary at its end. -/
def Stripe.space (s : Stripe) (u : Nat) : List Byte :=
  let size := (s.members.length - 2) * u * 4096
  let body := s.blocks.foldl (fun acc b => putAt b.entry.off b.bytes acc) (zeros (size - 4096 * summaryCws s.blocks.length))
  sliceB 0 (size - 4096 * summaryCws s.blocks.length) body ++
    sliceB 0 (4096 * summaryCws s.blocks.length) (s.blocks.flatMap summaryEntry)

/-- The information part of codeword `cw` of data unit `k` as it is programmed (R150, R158): header and payload,
encrypted where a key slot is named; summary codewords are KIND 4 and clear. -/
def Dev.infoPart (d : Dev) (s : Stripe) (u k cw : Nat) : List Byte :=
  let i := k * u + cw
  let payload := sliceB (i * 4096) 4096 (s.space u)
  let skip := (List.range 16).find? (fun c => !s.members.contains c)
  let sv := decide (s.members.length = 15)
  let isMeta := decide ((s.members.length - 2) * u - summaryCws s.blocks.length ≤ i)
  let (key, tw) := amGet (0, 0) i s.tweaks
  let pos := s.dataMembers.getD k 0
  let hdr := cwHeader (if isMeta then 4 else 1) 4 (if isMeta then 0 else key) (b2n (!isMeta) + 2 * b2n sv) pos
    (if sv then skip.getD 0 else 0) cw s.seq (if isMeta then 0 else tw) d.fls.deviceTag
  hdr ++ (if isMeta then payload else Config.xts (amGet [] key d.mgt.slots) tw payload)

/-- A whole data codeword: information part and LDPC parity. -/
def Dev.codeword (d : Dev) (s : Stripe) (u k cw : Nat) : List Byte :=
  let i := d.infoPart s u k cw
  i ++ ldpcParity i

/-- The parity codewords of a stripe at `cw` (R155). -/
def Dev.parityCodewords (d : Dev) (s : Stripe) (u cw : Nat) : List Byte × List Byte :=
  let ds := (List.range (s.members.length - 2)).map (fun k => d.infoPart s u k cw)
  let p := parityP 4128 ds
  let q := parityQ 4128 ds
  (p ++ ldpcParity p, q ++ ldpcParity q)

/-- A member's unit that cannot be read now: its carrier away, its die or channel retired or training, or its program
failed (R154, R176, R177, R183). -/
def Dev.unitAway (d : Dev) (s : Stripe) (k : Nat) : Bool :=
  let c := 2 * k + sbHalf s.sb
  !(d.carState k == 5 || d.carState k == 6) || !d.dieUp c (sbDie s.sb) || d.rd .FLS_CH_STATUS_TRAINING c == 1 ||
  s.failed.contains k

/-- Units of a stripe that cannot be read. -/
def Dev.unitsAway (d : Dev) (s : Stripe) : Nat := (s.members.filter (d.unitAway s)).length

/-! ## Superblocks (R153, R157, R194, R220) -/

/-- The superblock that takes new stripes. -/
def Dev.openSb (d : Dev) : Option Nat := (d.fls.sbs.find? (fun p => p.2.state == 1)).map (·.1)

/-- The next CSEQ, taken (R199). -/
def Dev.takeCseq (d : Dev) : Nat × Dev := (d.dur.cseqNext, { d with dur.cseqNext := d.dur.cseqNext + 1 })

/-- A durable change of the steward, whose record may be written at once (R199, table CSEQ assignment). -/
def Dev.stewardTxn (d : Dev) (k : TxnKind) : Dev :=
  let (n, d) := d.takeCseq
  { d with dur.txns := d.dur.txns ++ [⟨n, 0, 0, k, [], [], 0, 1⟩] }

/-- A superblock is closed at its last programmed page set (R157). -/
def Dev.closeSb (d : Dev) (n : Nat) : Dev :=
  let x := d.sb n
  if x.state = 1 then (d.setSb n { x with state := 2, closedAt := d.now }).stewardTxn (.superblock n 2) else d

/-- Close the open superblocks that a test on their members selects. -/
def Dev.closeWhere (d : Dev) (f : Nat → Superblock → Bool) : Dev :=
  (d.fls.sbs.filter (fun p => p.2.state == 1 && f p.1 p.2)).foldl (fun (d : Dev) p => d.closeSb p.1) d

/-- Open a superblock (R153, R194): it takes PAGES_PER_BLOCK sequence numbers. None opens below 14 carriers (R185), or
while free space is low (R219). -/
def Dev.openNew (d : Dev) (gc : Bool) : Option (Nat × Dev) :=
  if d.dur.lowSpace && !gc then none
  else match d.pickSb with
  | none => none
  | some n =>
    let ms := d.sbMembers n
    let g := d.sbGeom n ms
    let x : Superblock := { d.sb n with state := 1, members := ms, baseSeq := d.fls.seqNext, next := 0 }
    some (n, ({ d.setSb n x with fls.seqNext := d.fls.seqNext + g.pagesPerBlock }.stewardTxn (.superblock n 1)).showFree)

/-- A new stripe at the next page set of the open superblock, opening one where none has room. -/
def Dev.newStripe (d : Dev) (gc : Bool) : Option (Nat × Dev) :=
  let room := d.openSb.bind (fun n => let x := d.sb n
    if x.next < (d.sbGeom n x.members).pagesPerBlock then some n else none)
  let opened := match room with
    | some n => some (n, d)
    | none => (match d.openSb with | some n => d.closeSb n | none => d).openNew gc
  match opened with
  | none => none
  | some (n, d) =>
    let x := d.sb n
    let id := d.fls.nextStripe
    let s : Stripe := ⟨id, x.baseSeq + x.next, n, x.next, x.members, [], 0, [], false, false, false, none, [], []⟩
    some (id, { d.setSb n { x with next := x.next + 1 } with
      fls.stripes := d.fls.stripes ++ [s], fls.nextStripe := id + 1 })

/-- The stripe being filled in staging. -/
def Dev.filling (d : Dev) : Option Stripe := d.fls.stripes.find? (fun s => !s.issued && !s.dump)

/-- A stripe is issued: its units go to the dies (R156). -/
def Dev.issueStripe (d : Dev) (id : Nat) : Dev := d.setStripe id (fun s => { s with issued := true })

/-- Give the codewords that bytes [a, b) of a stripe touch a key slot and TWEAK values (R158, R159). -/
def Dev.giveTweaks (d : Dev) (id key : Nat) : Nat → Nat → Dev
  | 0, _ => d
  | n + 1, i =>
    match d.stripe id with
    | none => d
    | some s =>
      if s.tweaks.any (fun p => p.1 == i) then d.giveTweaks id key n (i + 1)
      else
        let t := amGet 0 key d.dur.tweak
        let d := { d with dur.tweak := amSet 0 key (t + 1) d.dur.tweak }
        (d.setStripe id (fun s => { s with tweaks := amPut i (key, t) s.tweaks })).giveTweaks id key n (i + 1)

/-- Place a staged block in a stripe when it fits there: a block never spans two stripes, and a codeword holds one key's
data (R150, R190). A copy keeps its codewords whole (R159). -/
def Dev.placeIn (d : Dev) (id : Nat) (x : Staged) : Option Dev :=
  match d.stripe id with
  | none => none
  | some s =>
    let u := unitCws (d.sbGeom s.sb s.members)
    let b := x.block
    let lastCw := (s.used - 1) / 4096
    let last := amGet (b.key, 0) lastCw s.tweaks
    let off :=
      match x.keep with
      | [] => if s.used % 4096 ≠ 0 ∧ last.1 ≠ b.key then ceilDiv s.used 4096 * 4096 else s.used
      | t :: _ => if s.used ≠ 0 ∧ amFind lastCw s.tweaks = some t then lastCw * 4096 + x.at_
          else ceilDiv s.used 4096 * 4096 + x.at_
    let stop := off + b.bytes.length
    if stop ≤ stripeRoom s.members.length u (s.blocks.length + 1) then
      let e : MapEntry := { b.entry with sb := s.sb, w := s.w, off := off }
      let used := if x.keep.isEmpty then stop else ceilDiv stop 4096 * 4096
      let d := d.setStripe id (fun s => { s with blocks := s.blocks ++ [{ b with entry := e }], used := used })
      if x.keep.isEmpty then some (d.giveTweaks id b.key (ceilDiv stop 4096 - off / 4096) (off / 4096))
      else some (d.setStripe id (fun s => { s with
        tweaks := (x.keep.zipIdx).foldl (fun m p => amPut (off / 4096 + p.2) p.1 m) s.tweaks }))
    else none

/-- Are the TWEAK values that a new block needs reserved (R204)? -/
def Dev.tweaksReady (d : Dev) (x : Staged) : Bool :=
  !x.keep.isEmpty ||
  decide (amGet 0 x.block.key d.dur.tweak + ceilDiv x.block.bytes.length 4096 + 1 ≤ amGet 0 x.block.key d.dur.reserves)

/-- Place a block, issuing the full stripe and beginning another where needed; the stripe's model number is returned. None
while no superblock can open or no TWEAK value is reserved. -/
def Dev.placeBlock (d : Dev) (x : Staged) : Option (Nat × Dev) :=
  if !d.tweaksReady x then none
  else
    let first : Option (Nat × Dev) := match d.filling with
      | some s => (d.placeIn s.id x).map (fun d => (s.id, d))
      | none => none
    match first with
    | some r => some r
    | none =>
      let d := match d.filling with | some s => d.issueStripe s.id | none => d
      match d.newStripe x.gc with
      | none => none
      | some (id, d) => (d.placeIn id x).map (fun d => (id, d))

/-! ## Faults and retirement (R149, R176, R178, R222, R223) -/

/-- A transient fault of a resource, counted with 0x5060; `op` is the model's number of the operation. -/
def Dev.transient (d : Dev) (resource op : Nat) : Dev :=
  (d.cnt .DUR_CNT_TRANSIENT).raise 0x5060
    [(2, Config.causeCode (0x5061 * 2 ^ 20 + resource)), (2, Config.causeCode (0x5060 * 256 + op))]

/-- A lasting fault of a resource, counted with 0x5061. -/
def Dev.lastingFault (d : Dev) (resource n : Nat) : Dev :=
  (d.cnt .DUR_CNT_LASTING).raise 0x5061 [(2, Config.causeCode (0x5061 * 2 ^ 20 + resource)), (4, n)]

/-- User capacity in bytes of what is in service (R223). -/
def Dev.userBytes (d : Dev) : Nat :=
  let bytes := (d.fls.dies.map (fun p =>
    if d.dieUp (p.1 / 32) (p.1 % 32) && d.carState (p.1 / 64) != 8 then
      (p.2.info.blocks - p.2.retiredBlocks.length) * p.2.info.pagesPerBlock * p.2.info.planes *
        (p.2.info.pageBytes / 4352 * 4096)
    else 0)).sum
  bytes * 987 * 14 / (1000 * 16)

/-- User capacity in GB. -/
def Dev.userCapacity (d : Dev) : Nat := d.userBytes / 1000000000

/-- The capacity of an instance in force: scaled down where the sum exceeds what is in service (R223). -/
def Dev.capacityOf (d : Dev) (n : Nat) : Nat :=
  let sum := ((List.range 256).map (fun k => if d.insOn k then d.rd .INS_CAPACITY k else 0)).sum
  let user := d.userCapacity
  if user < sum ∧ sum ≠ 0 then d.rd .INS_CAPACITY n * user / sum else d.rd .INS_CAPACITY n

/-- After a retirement: CAP_SCALED with 0x5050 when the capacities no longer fit (R223). -/
def Dev.checkCapacity (d : Dev) : Dev :=
  let sum := ((List.range 256).map (fun k => if d.insOn k then d.rd .INS_CAPACITY k else 0)).sum
  if d.userCapacity < sum then (d.wr .DUR_STATUS_CAP_SCALED 1).raise 0x5050 [(8, d.userBytes)] else d

/-- Retire a block of a die (R176): 0x4020 with its cause. -/
def Dev.retireBlock (d : Dev) (c k b cause : Nat) : Dev :=
  let x := d.die c k
  if x.retiredBlocks.contains b then d
  else
    let used := x.remap.length
    let remap := if used < Config.spareBlocks (c * 32 + k) then x.remap ++ [(b, x.info.blocks + used)] else x.remap
    let d := d.setDie c k { x with retiredBlocks := x.retiredBlocks ++ [b], remap := remap }
    ((d.raise 0x4020 [(2, c), (2, k), (4, b), (1, Config.causeCode (0x4020 * 256 + cause))]).stewardTxn
      (.retire 0 ((c * 32 + k) * 65536 + b))).checkCapacity

/-- Superblocks with data on a die or channel are queued for relocation (R176). -/
def Dev.relocateWhere (d : Dev) (f : Nat → Superblock → Bool) : Dev :=
  { d with fls.sbs := d.fls.sbs.map (fun p => if 1 ≤ p.2.state ∧ p.2.state ≤ 2 ∧ f p.1 p.2 then (p.1, { p.2 with relocate := true }) else p) }

/-- Retire a die (table Flash faults): 0x4010; its superblocks are closed and relocated. -/
def Dev.retireDie (d : Dev) (c k : Nat) : Dev :=
  let x := d.die c k
  if x.retired then d
  else
    let d := (d.setDie c k { x with retired := true }).wr .FLS_CH_STATUS_DIES (d.rd .FLS_CH_STATUS_DIES c - 1) c
    let d := (d.raise 0x4010 [(2, c), (2, k)]).stewardTxn (.retire 1 (c * 32 + k))
    let hit := fun (n : Nat) (s : Superblock) => sbHalf n == c % 2 && sbDie n == k && s.members.contains (c / 2)
    ((d.closeWhere hit).relocateWhere hit).checkCapacity

/-- A lasting fault of a die (table Flash faults). -/
def Dev.dieLasting (d : Dev) (c k : Nat) : Dev :=
  let x := d.die c k
  let ts := d.recent (d.rd .FLS_RETIRE_CFG_FAULT_WINDOW_H) x.lastingAt ++ [d.now]
  let d := (d.setDie c k { x with lastingAt := ts, suspect := true }).wr .FLS_CH_STATUS_SUSPECT 1 c
  let d := d.lastingFault (0x10000 + c * 32 + k) ts.length
  if d.rd .FLS_RETIRE_CFG_DIE_THRESHOLD ≤ ts.length then d.retireDie c k else d

/-- Show the carriers online; fewer than 14 stop writes (R185), and the drain pauses. -/
def Dev.showOnline (d : Dev) : Dev :=
  let n := d.online.length
  let was := d.rd .FLS_STATUS_WRITES_STOPPED
  let d := d.wr .FLS_STATUS_CARRIERS_ONLINE n
  if n < 14 then
    if was = 1 then d
    else ((d.wr .FLS_STATUS_WRITES_STOPPED 1).raise 0x4066 [(4, n)]).pauseWhere (fun _ x => x.bound || x.kept != 0) 5
  else d.wr .FLS_STATUS_WRITES_STOPPED 0

/-- Degraded reason 6: a slot that has been ONLINE leaves ONLINE, and every such slot is ONLINE again (R435). -/
def Dev.noteOnline (d : Dev) (k old new : Nat) : Dev :=
  let d := if new = 5 then { d with avl.everOnline := insertNew k d.avl.everOnline } else d
  if old = 5 then d.degrade 6 k
  else if new = 5 ∧ d.avl.everOnline.all (fun j => d.carState j == 5) then d.undegrade 6
  else d

/-- Change a carrier's state (R180): register, CPWR_k, 0x4061. While the carriers of a build come online one by one, fewer
than 14 is not yet a stop of writes; the build shows it at its end. -/
def Dev.setCarState (d : Dev) (k s : Nat) : Dev :=
  let o := d.carState k
  if o = s then d
  else
    let power := decide (1 ≤ s ∧ s ≤ 6)
    let d := (d.wr .FLS_CARRIER_STATE s k).wr .FLS_CARRIER_POWER_EN (b2n power) k
    let d := d.setCarrier k { d.carrier k with since := d.now }
    let d := if power == decide (1 ≤ o ∧ o ≤ 6) then d else d.send (.pin 1 k power)
    let d := d.raise 0x4061 [(1, k), (1, o), (1, s)]
    let d := if d.avl.everOnline.length < 14 ∧ d.rd .FLS_STATUS_WRITES_STOPPED = 0 then d.wr .FLS_STATUS_CARRIERS_ONLINE d.online.length
      else d.showOnline
    d.noteOnline k o s

/-- Retire a flash channel (R178); a carrier whose channels are both retired fails. -/
def Dev.retireChan (d : Dev) (c : Nat) : Dev :=
  if !d.chanUp c then d
  else
    let left := d.rd .FLS_STATUS_CHANNELS - 1
    let d := ((d.wr .FLS_CH_STATUS_RETIRED 1 c).wr .FLS_CH_STATUS_TRAINING 0 c).wr .FLS_STATUS_CHANNELS left
    let d := (d.raise 0x4003 [(2, c), (4, left)]).stewardTxn (.retire 2 c)
    let hit := fun (n : Nat) (s : Superblock) => sbHalf n == c % 2 && s.members.contains (c / 2)
    let d := ((d.closeWhere hit).relocateWhere hit).degrade 5 c
    let d := d.checkCapacity
    if !d.chanUp (c / 2 * 2) && !d.chanUp (c / 2 * 2 + 1) then d.setCarState (c / 2) 8 else d

/-! ## Reading (R152, R160, R166–R175) -/

/-- Mapped bits of a die that a codeword covers (R170). -/
def Die.erasures (x : Die) (cw : Nat) : Nat :=
  let per := max 1 (x.info.pageBytes / 4352)
  (x.colmap.filter (fun e => e.1 == cw / per && decide (cw % per * 4352 ≤ e.2.1 ∧ e.2.1 < (cw % per + 1) * 4352))).length

/-- Offset of a boundary as stored: 64 more than the signed value; 64 where never moved. -/
def Die.offset (x : Die) (g b : Nat) : Nat := amGet 64 (g * 16 + b) x.offsets
/-- SPREAD of a group. -/
def Die.spreadOf (x : Die) (g : Nat) : Nat := amGet 1 g x.spread

/-- One boundary's statistics and the adjustment when they reach SAMPLES (R173). The Boolean says that the offset came to
rest at −64 or 63. -/
def Die.boundary (x : Die) (samples g b u e : Nat) : Die × Bool :=
  let k := g * 16 + b
  let us := amGet 0 k x.ups + u
  let es := amGet 0 k x.downs + e
  if us + es < samples then ({ x with ups := amSet 0 k us x.ups, downs := amSet 0 k es x.downs }, false)
  else
    let o := x.offset g b
    let o' := if 5 * es < 4 * us then min 127 (o + 1) else if 5 * us < 4 * es then o - 1 else o
    ({ x with ups := amDel k x.ups, downs := amDel k x.downs, offsets := amSet 64 k o' x.offsets },
      o' != o && (o' == 0 || o' == 127))

/-- All boundaries of a decode; each saturation raises 0x4042. -/
def Dev.boundaries (d : Dev) (c k g : Nat) : Nat → List (Nat × Nat) → Dev
  | _, [] => d
  | b, (u, e) :: rest =>
    let (x, sat) := (d.die c k).boundary (d.rd .FLS_RL_CFG_SAMPLES) g b u e
    let d := d.setDie c k x
    let d := if sat then d.raise 0x4042 [(2, c), (2, k), (2, g), (2, b)] else d
    d.boundaries c k g (b + 1) rest

/-- SPREAD follows the last 256 decodes of the group (R173). -/
def Die.addHist (x : Die) (g : Nat) (soft : Bool) : Die :=
  let h := keepLast 256 (amGet [] g x.hist ++ [soft])
  let n := (h.filter id).length
  let s := x.spreadOf g
  let s' := if 16 < n then min 4 (s + 1) else if n = 0 ∧ h.length = 256 then max 1 (s - 1) else s
  { x with hist := amSet [] g h x.hist, spread := amSet 1 g s' x.spread }

/-- Statistics of a successful decode, unless the freeze rule excludes it (R173–R175). -/
def Dev.learn (d : Dev) (c k block cw : Nat) (l : Ladder) : Dev :=
  let x := d.die c k
  if d.rd .FLS_RL_CFG_ENABLE = 0 ∨ d.rd .AVL_STATUS_MODE = 6 ∨ x.suspect ∨ x.suspectBlocks.contains block ∨ x.suspended ∨
      32 < x.erasures cw then d
  else
    let g := if x.info.blocks = 0 then 0 else 16 * block / x.info.blocks
    let soft := match l.step with | some s => decide (1 ≤ s.val) | none => false
    let d := d.setDie c k (x.addHist g soft)
    d.boundaries c k g 0 (l.bounds.take (if x.info.bits = 3 then 7 else 15))

/-- Counters of a ladder (R166). -/
def Dev.countLadder (d : Dev) (c : Nat) (l : Ladder) : Dev :=
  let d := d.cnt .FLS_CH_CNT_MISDIRECT c l.misdirects
  match l.step with
  | some s => d.cnt (match s.val with | 0 => .FLS_CH_CNT_HARD_OK | 1 => .FLS_CH_CNT_SOFT2_OK | _ => .FLS_CH_CNT_SOFT3_OK) c
  | none => d

/-- Read statuses of the table Read statuses: 0 OK, 1 OK_RETRIED, 2 OK_REBUILT, 3 ERASED, 4 KEY_ABSENT, 5 UNRECOVERED. -/
abbrev ReadStatus := Nat

/-- Acknowledged data are lost (R451, R452): DATA_LOSS and 0xE021 with a cause, whose code the spec does not give, and the
transactions or blocks lost. -/
def Dev.dataLoss (d : Dev) (cause n : Nat) : Dev :=
  (d.cnt .AVL_STOPS_DATA_LOSS).raise 0xE021 [(1, Config.causeCode (0xE021 * 256 + cause)), (4, n)]

/-- A codeword read of member `pos` of a stripe returns (R152, R160, R166–R169): the status. `others` says whether the
codewords of the other units decode where a reconstruction needs them. -/
def Dev.readCodeword (d : Dev) (s : Stripe) (pos cw : Nat) (erased : Bool) (first second : Ladder) (others : Bool) :
    Dev × ReadStatus :=
  let c := 2 * pos + sbHalf s.sb
  let k := sbDie s.sb
  let b := sbBlock s.sb
  let key := fun (d : Dev) (st : Nat) =>
    let (ks, _) := amGet (0, 0) (s.dataMembers.idxOf pos * unitCws (d.sbGeom s.sb s.members) + cw) s.tweaks
    if s.dataMembers.contains pos && s.tweaks.any (fun p => p.1 == s.dataMembers.idxOf pos * unitCws (d.sbGeom s.sb s.members) + cw)
        && (amFind ks d.mgt.slots).isNone then (d.raiseI ks 0x4070 [(1, ks), (1, 0)], 4)
    else (d, st)
  let rebuild := fun (d : Dev) =>
    if others && decide (d.unitsAway s + (if d.unitAway s pos then 0 else 1) ≤ 2) then
      key ((d.cnt .FLS_CH_CNT_REBUILT c).raise 0x4031 [(8, s.seq), (1, pos), (2, cw)]) 2
    else (((d.cnt .FLS_CH_CNT_UNRECOVERED c).raise 0x4032 [(8, s.seq), (1, pos), (2, cw)]).dataLoss 0 1, 5)
  if !s.programmed then key d 0
  else if d.unitAway s pos then rebuild d
  else if erased then (d, 3)
  else
    let d := d.countLadder c first
    match first.step with
    | some _ => key (d.learn c k b cw first) 0
    | none =>
      let d := d.countLadder c second
      match second.step with
      | some _ =>
        let d := (d.cnt .FLS_CH_CNT_RETRY_OK c).raise 0x4030 [(2, c), (2, k), (4, b), (4, s.w)]
        key (d.transient (0x10000 + c * 32 + k) 0) 1
      | none =>
        let x := d.die c k
        let d := d.setDie c k { x with suspectBlocks := (b :: x.suspectBlocks).eraseDups }
        let d := (d.setSb s.sb { d.sb s.sb with relocate := true }).lastingFault (0x10000 + c * 32 + k) 1
        rebuild d

/-- READ_LEVEL_SAVE (R175): the tables are saved when 10 minutes have passed since the last save. -/
def Dev.saveLevels (d : Dev) (always : Bool) : Dev :=
  if !always && decide (d.now < d.fls.savedAt + 600000000000) then d
  else { d with
    fls.savedLevels := d.fls.dies.map (fun p => (p.1, p.2.offsets, p.2.spread)), fls.savedAt := d.now }

/-- Add a column-defect entry (R170, R171). -/
def Dev.addColumn (d : Dev) (c k plane col bit : Nat) : Dev :=
  let x := d.die c k
  if x.colmap.contains (plane, col, bit) then d
  else if 2048 ≤ x.colmap.length then
    if d.rd .FLS_CH_COLMAP_MAP_FULL c = 1 then d
    else (d.wr .FLS_CH_COLMAP_MAP_FULL 1 c).raise 0x4041 [(2, c), (2, k)]
  else
    let d := d.setDie c k { x with colmap := x.colmap ++ [(plane, col, bit)] }
    let n := x.colmap.length + 1
    let d := if d.rd .FLS_CH_COLMAP_ENTRIES c < n then d.wr .FLS_CH_COLMAP_ENTRIES n c else d
    d.raise 0x4040 [(2, c), (2, k), (1, plane), (4, col), (1, bit)]

/-- Add columns found by a scan: channel, die, plane, column, bit. -/
def Dev.addColumns (d : Dev) : List (Nat × Nat × Nat × Nat × Nat) → Dev
  | [] => d
  | (c, k, p, o, b) :: rest => (d.addColumn c k p o b).addColumns rest

/-- SUSPEND_TIMEOUT (R163): the suspend is abandoned. -/
def Dev.suspendTimeout (d : Dev) (c k : Nat) : Dev :=
  let d := d.setDie c k { d.die c k with suspended := false }
  (d.cnt .FLS_CH_CNT_SUSP_TIMEOUT c).raise 0x4050 [(2, c), (2, k)]

/-! ## Training (R177, R178, R187, R188) -/

/-- Training of a channel: nothing waits. -/
def trainInit : Train := ⟨false, false, false, 0, 0⟩
/-- Training state of a channel. -/
def Dev.trainOf (d : Dev) (c : Nat) : Train := amGet trainInit c d.fls.train
/-- Replace it. -/
def Dev.setTrain (d : Dev) (c : Nat) (x : Train) : Dev := { d with fls.train := amSet trainInit c x d.fls.train }

/-- Would some stripe be left with no redundant unit if the channel left service (R177)? -/
def Dev.lastRedundancy (d : Dev) (c : Nat) : Bool :=
  d.fls.stripes.any (fun s => s.programmed && sbHalf s.sb == c % 2 && s.members.contains (c / 2) &&
    !d.unitAway s (c / 2) && decide (1 ≤ d.unitsAway s))

/-- Start the next training that waits: one channel at a time. -/
def Dev.startTraining (d : Dev) : Dev :=
  match d.fls.training with
  | some _ => d
  | none =>
    match (List.range 32).find? (fun c => d.chanUp c && (d.trainOf c).waiting && !((d.trainOf c).deferrable && d.lastRedundancy c)) with
    | none => d
    | some c =>
      ({ d.setTrain c { d.trainOf c with waiting := false, repeated := false } with fls.training := some c }).wr
        .FLS_CH_STATUS_TRAINING 1 c

/-- Ask for training of a channel; periodic training may be deferred. -/
def Dev.requestTraining (d : Dev) (c : Nat) (periodic : Bool) : Dev :=
  if !d.chanUp c ∨ d.rd .AVL_STATUS_MODE = 6 then d
  else
    let x := d.trainOf c
    (d.setTrain c { x with waiting := true, deferrable := if x.waiting then x.deferrable && periodic else periodic }).startTraining

/-- TRAIN_PERIOD (R177). -/
def Dev.trainPeriod (d : Dev) (c : Nat) : Dev :=
  let p := d.rd .FLS_TRAIN_CFG_PERIOD_S
  if p = 0 ∨ d.now < (d.trainOf c).lastAt + p * 1000000000 then d else d.requestTraining c true

/-- FLASH_TEMPERATURE_DRIFT (R177): the die temperature of the channel, in °C above −64 so that it is a number. -/
def Dev.tempDrift (d : Dev) (c temp : Nat) : Dev :=
  let x := d.trainOf c
  let dt := d.rd .FLS_TRAIN_CFG_DELTA_C
  if dt < max temp x.lastTemp - min temp x.lastTemp then d.requestTraining c false else d

/-- TRAINING_DONE (R178): success with the temperature of the training, or failure; a second failure retires. -/
def Dev.trainingDone (d : Dev) (c : Nat) (ok : Bool) (temp : Nat) : Dev :=
  if d.fls.training ≠ some c then d
  else
    let x := d.trainOf c
    if ok then
      let d := d.setTrain c { x with repeated := false, lastAt := d.now, lastTemp := temp }
      let d := { d with fls.training := none }.wr .FLS_CH_STATUS_TRAINING 0 c
      (d.raise 0x4001 [(2, c), (2, d.rd .FLS_CH_STATUS_RATE_200 c * 200)]).startTraining
    else if !x.repeated then (d.setTrain c { x with repeated := true }).raise 0x4002 [(2, c)]
    else ({ d with fls.training := none }.retireChan c).startTraining

/-- A profile record applies to a die (R187). -/
def profileFits (r : List Byte) (c : Nat) (i : DieInfo) : Bool :=
  bitOf c (leAt 4 4 r) &&
  (List.range 8).all (fun k => ((i.id.getD k 0) ^^^ (r.getD (8 + k) 0)) &&& r.getD (16 + k) 0 == 0)

/-- Take up a die found at bring-up (R148, R187, R188): its profile; one that disagrees with it counts as retired. -/
def Dev.foundDie (d : Dev) (c k : Nat) (i : DieInfo) : Dev :=
  let recs := d.secRecs 9
  let x := d.die c k
  match recs.find? (fun r => profileFits r c i) with
  | none => d.setDie c k { x with info := i, profile := none }
  | some r =>
    let same := leAt 0x18 4 r == i.pageBytes && leAt 0x1C 2 r == i.pagesPerBlock && leAt 0x1E 1 r == i.planes &&
      leAt 0x1F 1 r == i.bits
    let d := d.setDie c k { x with info := i, profile := some (leAt 0 1 r), retired := !same }
    if same then d else d.raise 0x4011 [(2, c), (2, k), (2, leAt 0 1 r)]

/-- The rate of a channel in units of 200 MT/s (R187): the lowest among its dies. Above 3,600 MT/s every die must match
one profile. -/
def Dev.chanRate (d : Dev) (c : Nat) : Nat :=
  let ds := (List.range 32).filterMap (fun k => if d.dieUp c k then some (d.die c k) else none)
  let rateOf := fun (x : Die) => match x.profile with
    | some p => match (d.secRecs 9).find? (fun r => leAt 0 1 r == p) with
      | some r => leAt 2 2 r / 200
      | none => x.info.rate
    | none => x.info.rate
  let low := ds.foldl (fun m x => min m (rateOf x)) 255
  let one := match ds with
    | [] => true
    | x :: xs => x.profile.isSome && xs.all (fun y => y.profile == x.profile)
  if ds.isEmpty then 0 else if one then low else min low 18

/-- Dies in service and rate of a channel, shown. -/
def Dev.showChan (d : Dev) (c : Nat) : Dev :=
  (d.wr .FLS_CH_STATUS_DIES ((List.range 32).filter (d.dieUp c)).length c).wr .FLS_CH_STATUS_RATE_200 (d.chanRate c) c

/-- Take up dies: channel, die, what it reports. -/
def Dev.foundDies (d : Dev) : List (Nat × Nat × DieInfo) → Dev
  | [] => d
  | (c, k, i) :: rest => (d.foundDie c k i).foundDies rest

/-! ## Carriers (R180–R185) -/

/-- CPRES_CHANGE (R180, R183): a debounced level of CPRES_k. -/
def Dev.cpresChange (d : Dev) (k : Nat) (high : Bool) : Dev :=
  let d := d.wr .FLS_CARRIER_PRESENT (b2n high) k
  let s := d.carState k
  if high then
    if s = 0 then d.setCarState k 1 else d
  else if s = 5 ∨ s = 6 then
    let d := (d.setCarState k 8).raise 0x4062 [(1, k)]
    let hit := fun (_ : Nat) (x : Superblock) => x.members.contains k
    (d.closeWhere hit).degrade 6 k
  else if s = 7 ∨ s = 8 ∨ s = 3 ∨ s = 1 ∨ s = 2 ∨ s = 4 then d.setCarState k 0
  else d

/-- CARRIER_POWERED (R180): 50 ms after power-up. -/
def Dev.carrierPowered (d : Dev) (k : Nat) : Dev :=
  if d.carState k = 1 ∧ (d.carrier k).since + 50000000 ≤ d.now then d.setCarState k 2 else d

/-- Units that a carrier held in superblocks still holding data (R184). -/
def Dev.unitsOf (d : Dev) (k : Nat) : Nat :=
  (d.fls.stripes.filter (fun s => s.programmed && s.members.contains k)).length

/-- A carrier enters REBUILDING (R184): its units are rebuilt from the others; 0x4063. -/
def Dev.startRebuild (d : Dev) (k : Nat) : Dev :=
  let n := d.unitsOf k
  let d := { d with fls.stripes := d.fls.stripes.map (fun s : Stripe =>
    if s.members.contains k then { s with failed := (k :: s.failed).eraseDups } else s) }
  let d := (d.setCarState k 4).wr .FLS_CARRIER_PROGRESS_PM 0 k
  let d := d.setCarrier k { d.carrier k with left := n, total := n, record := some ⟨d.fls.deviceTag, k, 4, d.now⟩ }
  d.raise 0x4063 [(1, k), (4, n)]

/-- CARRIER_TRAINING_DONE (R182): whether each channel trained, the record read, the dies found. -/
def Dev.carrierTrained (d : Dev) (k : Nat) (ok0 ok1 : Bool) (rec : Option CarrierRec) (dies : List (Nat × Nat × DieInfo)) :
    Dev :=
  if d.carState k ≠ 2 then d
  else if !ok0 && !ok1 then ((d.retireChan (2 * k)).retireChan (2 * k + 1)).setCarState k 8
  else
    let d := d.foundDies (dies.map (fun x => (2 * k + x.1 % 2, x.2.1, x.2.2)))
    let d := if ok0 then d else d.retireChan (2 * k)
    let d := if ok1 then d else d.retireChan (2 * k + 1)
    let d := (d.showChan (2 * k)).showChan (2 * k + 1)
    let d := d.setCarrier k { d.carrier k with record := rec }
    match rec with
    | none => d
    | some r =>
      if r.tag = d.fls.deviceTag ∧ r.slot = k then d.setCarState k 5
      else
        let d := d.raise 0x4065 [(1, k), (4, r.tag), (1, r.slot)]
        if d.rd .FLS_REBUILD_CFG_AUTO_FORMAT = 1 then d else d.setCarState k 3

/-- FORMAT_DONE (R182): the column scan's finds are entered, the record is written, and the rebuild starts. -/
def Dev.formatDone (d : Dev) (k : Nat) (cols : List (Nat × Nat × Nat × Nat × Nat)) : Dev :=
  let rec_ := (d.carrier k).record
  let foreign : Bool := match rec_ with | some r => r.tag != d.fls.deviceTag || r.slot != k | none => true
  if d.carState k = 2 ∧ foreign then
    let d := { d with fls.dies := d.fls.dies.map (fun p : Nat × Die => if p.1 / 64 = k then (p.1, { p.2 with colmap := [] }) else p) }
    let d := (d.wr .FLS_CH_COLMAP_ENTRIES 0 (2 * k)).wr .FLS_CH_COLMAP_ENTRIES 0 (2 * k + 1)
    let d := (d.wr .FLS_CH_COLMAP_MAP_FULL 0 (2 * k)).wr .FLS_CH_COLMAP_MAP_FULL 0 (2 * k + 1)
    (d.addColumns (cols.map (fun x : Nat × Nat × Nat × Nat × Nat => (2 * k + x.1 % 2, x.2.1, x.2.2.1, x.2.2.2.1, x.2.2.2.2)))).startRebuild k
  else d

/-- REBUILD_DONE (R184): the last unit is programmed. -/
def Dev.rebuildDone (d : Dev) (k : Nat) : Dev :=
  if d.carState k ≠ 4 then d
  else
    let n := (d.carrier k).total
    let d := { d with fls.stripes := d.fls.stripes.map (fun s : Stripe => { s with failed := s.failed.filter (· != k) }) }
    let d := d.wr .FLS_CARRIER_PROGRESS_PM 1000 k
    let d := d.setCarrier k { d.carrier k with left := 0 }
    let d := (d.setCarState k 5).raise 0x4064 [(1, k), (4, n)]
    if (List.range 16).all (fun j => d.carState j != 8) then d.undegrade 6 else d

/-- PREPARE_REMOVAL (CMD 1) and PREPARE_REMOVAL_FORCED (CMD 5) of R181. -/
def Dev.prepareRemoval (d : Dev) (k : Nat) (forced : Bool) : Dev :=
  if d.carState k ≠ 5 then d
  else match (List.range 16).find? (fun j => j != k && d.carState j != 5), forced with
  | some j, false => d.raise 0x4067 [(1, k), (1, j)]
  | _, _ => (d.closeWhere (fun _ x => x.members.contains k)).setCarState k 6

/-- QUIESCE_DONE (R181): CPWR_k is driven low. A cancelled removal powers up again. -/
def Dev.quiesceDone (d : Dev) (k : Nat) : Dev := if d.carState k = 6 then d.setCarState k 7 else d

/-- CANCEL_REMOVAL (CMD 2): the carrier returns to ONLINE after power-up and training (R181). -/
def Dev.cancelRemoval (d : Dev) (k : Nat) : Dev :=
  if d.carState k = 6 ∨ d.carState k = 7 then d.setCarState k 1 else d

/-- FORMAT_HELD_CARRIER (CMD 3): format of a HELD carrier with the columns its scan finds, and its rebuild (R182). -/
def Dev.formatHeld (d : Dev) (k : Nat) (cols : List (Nat × Nat × Nat × Nat × Nat)) : Dev :=
  if d.carState k = 3 then (d.setCarState k 2).formatDone k cols else d

/-- POWER_ON_CARRIER (CMD 4): OFF to POWERING (table Carrier states). -/
def Dev.powerOnCarrier (d : Dev) (k : Nat) : Dev := if d.carState k = 7 then d.setCarState k 1 else d

end Sys2Proof.Machine
end

