-- ==== Sys2Proof/Machine/Durable.lean ====
section
/-! DEFINITION. Translation and durability: the map, the protected write buffer, transactions, the journal, checkpoints,
garbage collection, hold-up and recovery (spec/06_durability.md, R189–R224). -/
namespace Sys2Proof.Machine

/-! ## The map (R189–R192) -/

/-- A namespace. -/
def Dev.nspace (d : Dev) (n : Nat) : Option Namespace := amFind n d.hq.ns
/-- The append point of a frame namespace. -/
def Dev.append (d : Dev) (n : Nat) : Nat := match d.nspace n with | some x => x.append | none => 0

/-- Does an entry cover some byte of [a, b)? -/
def MapEntry.meets (e : MapEntry) (nsid a b : Nat) : Bool := e.nsid == nsid && decide (e.loff < b ∧ a < e.loff + e.ulen)

/-- The map with a new entry: an overlay takes the place of its granule's overlay; an extent takes the place of every
entry within its range. -/
def mapInstall (m : List MapEntry) (e : MapEntry) : List MapEntry :=
  m.filter (fun o =>
    if e.overlay then !(o.overlay && o.nsid == e.nsid && o.loff == e.loff)
    else !(o.nsid == e.nsid && decide (e.loff ≤ o.loff ∧ o.loff + o.ulen ≤ e.loff + e.ulen))) ++ [e]

/-- An overlay that says its granule is deallocated: no stored bytes (notes/assumptions/103). -/
def holeEntry (nsid g : Nat) : MapEntry := ⟨nsid, g * 4096, 4096, 0, true, 0, 0, 0⟩

/-- Deallocate granules [first, last] (R192, R199): entries within go; a granule under an extent that reaches beyond gets
a hole. -/
def mapDealloc (m : List MapEntry) (nsid first last : Nat) : List MapEntry :=
  let a := first * 4096
  let b := (last + 1) * 4096
  let kept := m.filter (fun e => !(e.nsid == nsid && decide (a ≤ e.loff ∧ e.loff + e.ulen ≤ b)))
  let granules := fun e : MapEntry => (List.range ((e.loff + e.ulen + 4095) / 4096 - e.loff / 4096)).map (· + e.loff / 4096)
  let cut := (kept.filter (fun e => !e.overlay && e.meets nsid a b)).flatMap granules
  kept ++ ((cut.filter (fun g => decide (first ≤ g ∧ g ≤ last))).eraseDups.map (holeEntry nsid))

/-- The entries that a granule's bytes come from: its overlay, else the extents over it (R191). None means zeros. -/
def Dev.lookup (d : Dev) (nsid g : Nat) : List MapEntry :=
  match d.dur.map.find? (fun e => e.overlay && e.nsid == nsid && e.loff == g * 4096) with
  | some e => if e.slen = 0 then [] else [e]
  | none => d.dur.map.filter (fun e => !e.overlay && e.meets nsid (g * 4096) (g * 4096 + 4096))

/-- Stored bytes of a superblock that the map reaches (VALID_BYTES). -/
def Dev.validBytes (d : Dev) (sb : Nat) : Nat := ((d.dur.map.filter (fun e => e.sb == sb && e.slen != 0)).map (·.slen)).sum

/-- Stored bytes of an instance. -/
def Dev.storedBytes (d : Dev) (n : Nat) : Nat :=
  ((d.dur.map.filter (fun e => match d.nspace e.nsid with | some x => x.inst == n | none => false)).map (·.slen)).sum

/-- The block of a transaction's entry at its place, with its stripe. -/
def Dev.blockAt (d : Dev) (e : MapEntry) : Option (Stripe × StripeBlock) :=
  (d.stripeAt e.sb e.w).bind (fun s => (s.blocks.find? (fun b => b.entry.off == e.off)).map (fun b => (s, b)))

/-- Show the stored bytes of the instances, and end or begin an episode of exhausted capacity (R223): 0x5051 and the
pause of the instance's drains. -/
def Dev.showStored (d : Dev) (n : Nat) : Dev :=
  let bytes := d.storedBytes n
  let d := d.wr .DUR_INS_STORED (ceilDiv bytes 1000000000) n
  if d.capacityOf n * 1000000000 ≤ bytes ∧ d.insOn n then
    if d.dur.exhausted.contains n then d
    else ({ d with dur.exhausted := n :: d.dur.exhausted }.raiseI n 0x5051 [(1, n)]).pauseWhere
      (fun s x => (x.bound || x.kept != 0) && d.streamOwner s == n) 1
  else { d with dur.exhausted := d.dur.exhausted.filter (· != n) }

/-! ## Program time, reserve, dirty limit (R197, R207) -/

/-- The greatest tPROG_MAX_US of the profiles in use, in ns; a die without a profile counts with its parameter page's
program time (PRESUMED, notes/assumptions/101: R197 speaks of profiles only). -/
def Dev.startProg (d : Dev) : Nat :=
  d.fls.dies.foldl (fun m p => match p.2.profile with
    | some k => match (d.secRecs 9).find? (fun r => leAt 0 1 r == k) with
      | some r => max m (leAt 0x22 2 r * 1000)
      | none => m
    | none => if p.2.retired then m else max m (p.2.info.prog * 1000)) 0

/-- tP in ns: the greatest time measured in the last 10 minutes (R197). -/
def Dev.tP (d : Dev) : Nat :=
  match (d.dur.progTimes.filter (fun p => decide (d.now ≤ p.1 + 600000000000))).map (·.2) with
  | [] => d.startProg
  | ts => ts.foldl max 0

/-- K (R197). -/
def Dev.holdK (d : Dev) : Nat := if d.tP = 0 then 0 else 80000000 / d.tP - 3

/-- Reserve superblocks. -/
def Dev.reserveSbs (d : Dev) : List (Nat × Superblock) := d.fls.sbs.filter (fun p => p.2.state == 3)

/-- Bytes of data space of a page set with the least membership of the reserve. -/
def Dev.reserveD (d : Dev) : Nat :=
  match d.reserveSbs.map (fun p => (p.2.members.length - 2) * unitCws (d.sbGeom p.1 p.2.members) * 4096) with
  | [] => 0
  | x :: xs => xs.foldl min x

/-- The dirty limit: the lesser of 8 GiB (the slots there are) and K × Rs × D (R197, R198). -/
def Dev.dirtyLimit (d : Dev) : Nat :=
  min (min (2 ^ 33) (d.dur.slotCount * 4096)) (d.holdK * d.reserveSbs.length * d.reserveD)

/-- Recompute the dirty limit; a change raises 0x5031. -/
def Dev.relimit (d : Dev) : Dev :=
  let old := d.rd64 .DUR_DIRTY_LIMIT_LO .DUR_DIRTY_LIMIT_HI
  let new := d.dirtyLimit
  if old = new then d else (d.wr64 .DUR_DIRTY_LIMIT_LO .DUR_DIRTY_LIMIT_HI new).raise 0x5031 [(8, old), (8, new)]

/-- Dirty bytes: those in slots not yet freed (R197). -/
def Dev.dirtyBytes (d : Dev) : Nat := d.dur.slots.length * 4096

/-- Show the dirty bytes. -/
def Dev.showDirty (d : Dev) : Dev := d.wr64 .DUR_DIRTY_LO .DUR_DIRTY_HI d.dirtyBytes

/-- The members that (h, die) gives a superblock now. -/
def Dev.pairMembers (d : Dev) (h k : Nat) : List Nat := d.online.filter (fun c => d.dieUp (2 * c + h) k)

/-- A free superblock of (h, die) with 14 members: a fresh block number first, else the fewest erases. -/
def Dev.pickReserve (d : Dev) (h k : Nat) : Option Nat :=
  let num := fun b => (b * 2 + h) * 32 + k
  let ok := fun n => decide (14 ≤ (d.sbMembers n).length)
  match ((List.range (d.fls.sbs.length + 1)).map num).find? (fun n =>
      decide (n < d.sbTotal) && !d.fls.sbs.any (fun p => p.1 == n) && ok n) with
  | some n => some n
  | none =>
    ((d.fls.sbs.filter (fun p => p.2.state == 0 && sbHalf p.1 == h && sbDie p.1 == k && ok p.1)).foldl
      (fun (m : Option (Nat × Superblock)) p => match m with
        | none => some p
        | some q => if p.2.erases < q.2.erases then some p else some q) none).map (·.1)

/-- Has (h, die) its reserve superblock with at least K erased page sets? -/
def Dev.hasReserve (d : Dev) (h k : Nat) : Bool :=
  d.reserveSbs.any (fun p => sbHalf p.1 == h && sbDie p.1 == k && decide (14 ≤ p.2.members.length) &&
    decide (d.holdK + p.2.next ≤ (d.sbGeom p.1 p.2.members).pagesPerBlock))

/-- Complete the reserve as far as free superblocks allow (R207): HOLDUP_READY is 1 while it is complete. -/
def Dev.fillReserve (d : Dev) : Dev :=
  let pairs := ((List.range 64).map (fun i => (i / 32, i % 32))).filter (fun p => decide (14 ≤ (d.pairMembers p.1 p.2).length))
  let d := pairs.foldl (fun (d : Dev) p =>
    if d.hasReserve p.1 p.2 || d.rd .AVL_STATUS_MODE == 6 then d
    else match d.pickReserve p.1 p.2 with
      | none => d
      | some n =>
        let ms := d.sbMembers n
        let x : Superblock := { d.sb n with state := 3, members := ms, baseSeq := d.fls.seqNext, next := 0 }
        { d.setSb n x with fls.seqNext := d.fls.seqNext + (d.sbGeom n ms).pagesPerBlock }.stewardTxn (.superblock n 3)) d
  d.wr .DUR_STATUS_HOLDUP_READY (b2n (!pairs.isEmpty && pairs.all (fun p => d.hasReserve p.1 p.2)))

/-- Free space against LOW_PM (R219): 0x5041 once per episode and the drains pause. -/
def Dev.checkSpace (d : Dev) : Dev :=
  let d := d.showFree
  let low : Bool := decide (d.sbTotal ≠ 0 ∧ d.freeSbs * 1000 ≤ d.rd .DUR_GC_CFG_LOW_PM * d.sbTotal)
  if low && !d.dur.lowSpace then
    (({ d with dur.lowSpace := true }).raise 0x5041 [(4, d.freeSbs)]).pauseWhere (fun _ x => x.bound || x.kept != 0) 3
  else { d with dur.lowSpace := low }

/-! ## Journal (R199–R205) -/

/-- Bytes of a journal record: the 16-byte header and the body of R201's table. -/
def JRec.size : JRec → Nat
  | .commit _ _ ss cat => 17 + 8 * ss.length + cat.length
  | .relocate .. => 32
  | .dealloc .. => 36
  | .superblock .. => 32
  | .checkpoint .. => 32
  | .holdupEnd .. => 32
  | .tweakReserve .. => 25
  | .abort .. => 16
  | .retire .. => 24

/-- Bytes of a journal page: one die's multi-plane page set of KIND 4 codewords (R200). -/
def Dev.pageRoom (d : Dev) : Nat :=
  match d.fls.dies.find? (fun p => p.2.info.pageBytes != 0) with
  | some p => unitCws p.2.info * 4096
  | none => 4096

/-- Start programming the journal page under way. -/
def Dev.closePage (d : Dev) : Dev :=
  match d.dur.page with
  | none => d
  | some p => { d with dur.flight := d.dur.flight ++ [p], dur.page := none }

/-- Add a record to the journal page under way, starting another when it does not fit (R200). -/
def Dev.addRec (d : Dev) (r : JRec) : Dev :=
  let open_ := fun (d : Dev) => { d with dur.page := some ⟨d.dur.pairNext, [r], d.now⟩, dur.pairNext := (d.dur.pairNext + 1) % 8 }
  match d.dur.page with
  | none => open_ d
  | some p =>
    if (p.recs.map JRec.size).sum + r.size ≤ d.pageRoom then
      { d with dur.page := some { p with recs := p.recs ++ [r] } }
    else open_ d.closePage

/-- All pages under way, oldest first. -/
def Dev.pagesOpen (d : Dev) : List JPage := d.dur.flight ++ (match d.dur.page with | some p => [p] | none => [])

/-- Reserve TWEAK values of a key slot ahead of its counter (R204): 2²⁴ at a time while fewer than 2²² are left. -/
def Dev.wantTweaks (d : Dev) (key : Nat) : Dev :=
  let top := amGet 0 key d.dur.reserves
  if amGet 0 key d.dur.tweak + 2 ^ 22 ≤ top ∨
      d.pagesOpen.any (fun p => p.recs.any (fun r => match r with | .tweakReserve _ k _ => k == key | _ => false)) then d
  else d.addRec (.tweakReserve (d.dur.cseqNext - 1) key (top + 2 ^ 24))

/-- The blocks that a transaction put into stripes, in ascending LOFF. -/
def Dev.blocksOf (d : Dev) (cseq : Nat) (stripes : List Nat) : List StripeBlock :=
  (d.fls.stripes.filter (fun s => stripes.contains s.id)).flatMap (fun s => s.blocks.filter (fun b => b.cseq == cseq))

/-- Bytes of a transaction's blocks. -/
def Dev.bytesOf (d : Dev) (t : Txn) : Nat := ((d.blocksOf t.cseq t.stripes).map (·.entry.ulen)).sum

/-- The append point that a frame's commit will find: those of the frames before it in the journal are added (R191). -/
def Dev.appendFor (d : Dev) (nsid : Nat) : Nat :=
  d.append nsid + ((d.dur.txns.filter (fun t => t.stage == 2 && (match t.kind with | .frame _ _ n _ _ => n == nsid | _ => false))).map
    (fun t => up4k (d.bytesOf t))).sum

/-- Is a transaction fenced by a reset of its instance (R200, R403)? Changes that the steward decides are not, and what
moves stored data belongs to no program. -/
def Dev.fencedTxn (d : Dev) (t : Txn) : Bool :=
  match t.kind with
  | .write .. | .frame .. => d.gen t.inst != t.gen
  | _ => false

/-- The record of a transaction whose turn has come (R201's table). -/
def Dev.recordOf (d : Dev) (t : Txn) : JRec :=
  if t.stage = 3 then .abort t.cseq
  else match t.kind with
  | .write .. => .commit t.cseq t.inst t.stripes []
  | .frame n id nsid blocks stored =>
    let cat := match (d.stream n).bind (fun x => (x.frame id).map (fun f => (x, f))) with
      | some (x, f) => catalogRecord n t.inst x f blocks (d.appendFor nsid / 4096) (nsid % 32768) stored
      | none => zeros 64
    .commit t.cseq t.inst t.stripes cat
  | .dealloc _ nsid a b => .dealloc t.cseq nsid a b
  | .relocate old => .relocate t.cseq old (t.stripes.headD 0)
  | .superblock sb st => .superblock t.cseq sb st (d.sb sb).members (d.sb sb).baseSeq
  | .retire k n => .retire t.cseq k n

/-- Change a transaction. -/
def Dev.setTxn (d : Dev) (cseq : Nat) (f : Txn → Txn) : Dev :=
  { d with dur.txns := d.dur.txns.map (fun t => if t.cseq = cseq then f t else t) }

/-- Have all blocks of a transaction reached programmed stripes (R156, R200)? -/
def Dev.blocksDone (d : Dev) (t : Txn) : Bool :=
  t.parts.isEmpty && t.todo == 0 && !d.fls.staged.any (fun x => x.block.cseq == t.cseq) &&
  t.stripes.all (fun id => match d.stripe id with | some s => s.programmed | none => false)

/-- Where a transaction stands now: fenced ones are abandoned, complete ones may be recorded. -/
def Dev.nextStage (d : Dev) (t : Txn) : Nat :=
  if t.stage = 0 ∨ t.stage = 1 then
    (if d.fencedTxn t then 3 else if t.stage = 0 && d.blocksDone t then 1 else t.stage)
  else t.stage

/-- Records follow each other in CSEQ order: the lowest transaction not yet recorded goes first (R200). -/
def Dev.pumpRecords : Nat → Dev → Dev
  | 0, d => d
  | fuel + 1, d =>
    match d.dur.txns.find? (fun t => t.stage != 2) with
    | none => d
    | some t =>
      if t.stage = 0 then d
      else Dev.pumpRecords fuel ((d.addRec (d.recordOf t)).setTxn t.cseq (fun t => { t with stage := 2 }))

/-! ## Staging (R156, R164, R190) -/

/-- Place one staged block; it stays staged while no stripe takes it. -/
def Dev.placeOne (d : Dev) (x : Staged) : Dev :=
  let d := if x.keep.isEmpty then d.wantTweaks x.block.key else d
  if x.keep.isEmpty && (amFind x.block.key d.mgt.slots).isNone then { d with fls.staged := d.fls.staged ++ [x] }
  else match d.placeBlock x with
  | none => { d with fls.staged := d.fls.staged ++ [x] }
  | some (id, d) => d.setTxn x.block.cseq (fun t => { t with stripes := if t.stripes.contains id then t.stripes else t.stripes ++ [id] })

/-- Place what can be placed, in order. -/
def Dev.pumpStaging (d : Dev) : Dev :=
  d.fls.staged.foldl Dev.placeOne { d with fls.staged := [] }

/-- A stripe goes back to staging, to be programmed again whole elsewhere (R157, R176, R183): its codewords keep their key
slots and TWEAK values. -/
def Dev.restage (d : Dev) (s : Stripe) : Dev :=
  let again := s.blocks.map (fun (b : StripeBlock) =>
    let cws := List.range (ceilDiv (b.entry.off + b.bytes.length) 4096 - b.entry.off / 4096)
    (⟨b, true, cws.map (fun i => amGet (b.key, 0) (b.entry.off / 4096 + i) s.tweaks), b.entry.off % 4096⟩ : Staged))
  let d := { d with
    fls.stripes := d.fls.stripes.filter (fun x : Stripe => x.id != s.id)
    fls.staged := again ++ d.fls.staged }
  { d with dur.txns := d.dur.txns.map (fun t : Txn => { t with stripes := t.stripes.filter (· != s.id) }) }

/-- Can a stripe that is not programmed no longer be (R157, R183)? -/
def Dev.mustRestage (d : Dev) (s : Stripe) : Bool :=
  !s.programmed && !s.dump &&
  (if s.issued then s.members.any (fun k => !s.units.contains k &&
      (!(d.carState k == 5 || d.carState k == 6) || !d.dieUp (2 * k + sbHalf s.sb) (sbDie s.sb)))
   else (d.sb s.sb).state != 1)

/-- Post the compress jobs of host writes while codec queue 2 has room (R191): GEN mode, BLOCK_KIB 16 for a span of 16
granules and 1 for a granule. -/
def Dev.postParts : Nat → Dev → Dev
  | 0, d => d
  | fuel + 1, d =>
    match d.dur.txns.find? (fun t => t.stage == 0 && !t.parts.isEmpty) with
    | none => d
    | some t => match t.parts with
      | [] => d
      | (ns, g, whole) :: rest =>
        let n := if whole then 16 else 1
        let bytes := (List.range n).flatMap (fun i =>
          match d.dur.slots.find? (fun p => p.2.nsid == ns && p.2.granule == g + i && p.2.cseq == some t.cseq) with
          | some p => p.2.bytes
          | none => zeros 4096)
        let j : Job := ⟨2, jobDesc 0 1 0 n 0 0 0 0 0 bytes.length 0 0 (bytes.length + 1024) (t.cseq % 2 ^ 32) t.inst, t.inst, t.gen,
          .hostWrite t.cseq ns g, some bytes⟩
        let (d, ok) := d.postJob j
        if ok then Dev.postParts fuel (d.setTxn t.cseq (fun t => { t with parts := rest, todo := t.todo + 1 })) else d

/-- Does work remain that will bring blocks to staging? -/
def Dev.blocksComing (d : Dev) : Bool :=
  !d.fls.staged.isEmpty || d.dur.txns.any (fun t => t.stage == 0 && (t.todo != 0 || !t.parts.isEmpty))

/-- Issue the stripe being filled once nothing is on its way to it (notes/assumptions/99). -/
def Dev.issueIdle (d : Dev) : Dev :=
  if d.blocksComing then d
  else match d.filling with
  | some s => if s.blocks.isEmpty then d else d.issueStripe s.id
  | none => d

/-! ## Erasing superblocks (R218) -/

/-- Does a read still need a stored block of a superblock (R249)? -/
def Dev.readsFrom (d : Dev) (sb : Nat) : Bool := d.hq.cmds.any (fun c => c.reads.any (fun r => r.entry.sb == sb && r.data.isNone))

/-- A superblock whose data have all been moved may be erased: nothing in the map, in a transaction or in a read needs
it. -/
def Dev.erasable (d : Dev) (n : Nat) (x : Superblock) : Bool :=
  x.state == 2 && x.relocate && d.validBytes n == 0 && !d.readsFrom n &&
  !d.fls.stripes.any (fun s => s.sb == n && (!s.programmed || s.dump)) &&
  !d.dur.txns.any (fun t => (match t.kind with
    | .relocate o => o.sb == n
    | .superblock s _ => s == n
    | _ => false) || t.stripes.any (fun id => d.fls.stripes.any (fun s => s.id == id && s.sb == n)))

/-- The SUPERBLOCK record of an erase is written first (R218). -/
def Dev.queueErases (d : Dev) : Dev :=
  (d.fls.sbs.filter (fun p => d.erasable p.1 p.2)).foldl (fun (d : Dev) p => d.stewardTxn (.superblock p.1 4)) d

/-! ## Programs and erases on a die, and their suspension (R162, R165) -/

/-- The program or erase that a die carries out now: the oldest issued stripe with a unit left for it, else an erase. -/
def Dev.dieOp (d : Dev) (c k : Nat) : Option Nat :=
  match d.fls.stripes.find? (fun s => s.issued && !s.programmed && sbHalf s.sb == c % 2 && sbDie s.sb == k &&
      s.members.contains (c / 2) && !s.units.contains (c / 2)) with
  | some s => some (2 * (s.id * 2 ^ 20 + s.w))
  | none => (d.fls.sbs.find? (fun p => p.2.state == 4 && sbHalf p.1 == c % 2 && sbDie p.1 == k && p.2.members.contains (c / 2))).map
      (fun p => 2 * p.1 + 1)

/-- Note the operation that each die carries out. -/
def Dev.noteRuns (d : Dev) : Dev :=
  d.fls.dies.foldl (fun (d : Dev) p =>
    let k := p.1
    match d.dieOp (k / 32) (k % 32), amFind k d.fls.runs with
    | none, none => d
    | none, some _ => { d with fls.runs := amDel k d.fls.runs }.setDie (k / 32) (k % 32) { d.die (k / 32) (k % 32) with suspended := false }
    | some o, r =>
      if r.any (fun x => x.op == o) then d
      else { d with fls.runs := amPut k (⟨o, d.now, 0, 0⟩ : DieRun) d.fls.runs }.setDie (k / 32) (k % 32)
        { d.die (k / 32) (k % 32) with suspended := false }) d

/-- A priority-1 read waits for a die: its program or erase is suspended where the limits allow (R162), and not in Hold-up
(R165). -/
def Dev.suspendFor (d : Dev) (c k : Nat) : Dev :=
  match amFind (c * 32 + k) d.fls.runs with
  | none => d
  | some r =>
    let most := if r.op % 2 = 0 then d.rd .FLS_SUSPEND_CFG_MAX_PROG_SUSPENDS else d.rd .FLS_SUSPEND_CFG_MAX_ERASE_SUSPENDS
    if (d.die c k).suspended ∨ d.rd .AVL_STATUS_MODE = 6 ∨ d.now < r.since + d.rd .FLS_SUSPEND_CFG_MIN_RUN_US * 1000 ∨ most ≤ r.count
    then d
    else ({ d with fls.runs := amPut (c * 32 + k) { r with count := r.count + 1, served := 0 } d.fls.runs }.setDie c k
      { d.die c k with suspended := true }).cnt .FLS_CH_CNT_SUSPENDS c

/-- The die's operation runs on. -/
def Dev.resumeDie (d : Dev) (c k : Nat) : Dev :=
  if (d.die c k).suspended then
    { d with fls.runs := amMod ⟨0, 0, 0, 0⟩ (c * 32 + k) (fun (r : DieRun) => { r with since := d.now, served := 0 }) d.fls.runs }.setDie c k
      { d.die c k with suspended := false }
  else d

/-- A read was served: up to 8 go to a suspended die, and it resumes when no more wait (R162). -/
def Dev.servedRead (d : Dev) (c k : Nat) (more : Bool) : Dev :=
  match amFind (c * 32 + k) d.fls.runs with
  | none => d
  | some r =>
    if !(d.die c k).suspended then (if more then d.suspendFor c k else d)
    else if 7 ≤ r.served ∨ !more then d.resumeDie c k
    else { d with fls.runs := amPut (c * 32 + k) { r with served := r.served + 1 } d.fls.runs }

/-- Hold-up: every suspended operation resumes at once (R165). -/
def Dev.resumeDies (d : Dev) : Dev := d.fls.dies.foldl (fun (d : Dev) p => d.resumeDie (p.1 / 32) (p.1 % 32)) d

/-- Carry durable work on as far as it goes by itself: reserve, limit, space, staging, transactions, records. -/
def Dev.settle (d : Dev) : Dev :=
  if d.rd .AVL_STATUS_MODE = 6 then d
  else
    let d := (d.fls.stripes.filter d.mustRestage).foldl (fun (d : Dev) s => d.restage s) d
    let d := ((d.fillReserve).relimit).checkSpace
    let d := (Dev.postParts (d.dur.txns.map (fun t => t.parts.length)).sum d).pumpStaging.issueIdle
    let d := d.queueErases
    let d := { d with dur.txns := d.dur.txns.map (fun t : Txn => { t with stage := d.nextStage t }) }
    (Dev.pumpRecords d.dur.txns.length d).noteRuns

/-! ## Applying records (R200–R204) -/

/-- What a record does to the map and the append points, at run time and in replay alike. -/
def Dev.applyMap (d : Dev) (r : JRec) : Dev :=
  match r with
  | .commit cseq _ stripes cat =>
    let es := (d.blocksOf cseq stripes).map (·.entry)
    match es with
    | [] => d
    | e :: _ =>
      if cat.isEmpty then { d with dur.map := es.foldl mapInstall d.dur.map }
      else
        let a := d.append e.nsid
        let es := es.map (fun e => { e with loff := a + e.loff })
        let top := a + up4k ((es.map (·.ulen)).sum)
        { d with
          dur.map := es.foldl mapInstall d.dur.map
          hq.ns := amAdj e.nsid (fun x : Namespace => { x with append := top }) d.hq.ns }
  | .relocate cseq old id =>
    match (d.blocksOf cseq [id]).head? with
    | none => d
    | some b => { d with dur.map := d.dur.map.map (fun e =>
        if e = old then { e with sb := b.entry.sb, w := b.entry.w, off := b.entry.off } else e) }
  | .dealloc _ nsid a b => { d with dur.map := mapDealloc d.dur.map nsid a b }
  | .tweakReserve _ k top => { d with dur.reserves := amSet 0 k top d.dur.reserves }
  | _ => d

/-- CSEQ of a record that carries a change of its own. -/
def JRec.change : JRec → Option Nat
  | .commit c .. | .relocate c .. | .dealloc c .. | .superblock c .. | .abort c | .retire c .. => some c
  | _ => none

/-- Free the slots of a transaction (R196). -/
def Dev.freeSlots (d : Dev) (cseq : Nat) : Dev :=
  ({ d with dur.slots := d.dur.slots.filter (fun p => p.2.cseq != some cseq) }).showDirty

/-- A record is written: it takes effect (R196, R200, R203). -/
def Dev.applyRec (d : Dev) (r : JRec) : Dev :=
  let d := d.applyMap r
  match r.change with
  | none => d
  | some c =>
    let t := d.dur.txns.find? (fun t => t.cseq == c)
    let d := { d with dur.txns := d.dur.txns.filter (fun t => t.cseq != c) }
    let d := d.wr64 .DUR_CSEQ_LO .DUR_CSEQ_HI c
    match r, t with
    | .abort _, some t => match t.kind with
      | .write .. => (d.cnt .DUR_CNT_ABORTS).freeSlots c
      | _ => d.cnt .DUR_CNT_ABORTS
    | .commit _ inst _ cat, some t =>
      (match t.kind with
        | .frame n id _ _ _ => (d.catalogAdd inst cat).frameDrained n id
        | _ => d.freeSlots c).showStored inst
    | .dealloc _ nsid _ _, some t => match t.kind with
      | .dealloc h _ _ _ =>
        let more := d.dur.txns.any (fun t => match t.kind with | .dealloc h' _ _ _ => h' == h | _ => false)
        let d := if more then d else d.succeed h 0 0
        d.showStored (nsid / 65536)
      | _ => d
    | .superblock _ sb 4 _ _, _ => d.setSb sb { d.sb sb with state := 4 }
    | _, _ => d

/-- The records of a page are written. -/
def Dev.applyPage (d : Dev) (p : JPage) : Dev :=
  let d := { d with dur.journal := d.dur.journal ++ [p.recs], dur.journalBytes := d.dur.journalBytes + d.pageRoom }
  p.recs.foldl Dev.applyRec d

/-- Complete the Flush commands that wait and whose namespaces have nothing left to make durable (R250). Their bound is the
highest CSEQ taken when they arrived, kept in `want`. -/
def Dev.wakeFlushes (d : Dev) : Dev :=
  let c := d.rd64 .DUR_CSEQ_LO .DUR_CSEQ_HI
  (d.hq.cmds.filter (fun x => x.held && sqeOp x.sqe == 0 && x.stage == 3 && decide (x.want ≤ c + 1))).foldl
    (fun (d : Dev) x => d.succeed x.handle 0 0) d

/-- JOURNAL_PAGE_WRITTEN (R201): the oldest page under way, with the status of its copies. A failed copy has the page
programmed again in the pair's next page (0x5013). -/
def Dev.pageWritten (d : Dev) (okA okB : Bool) : Dev :=
  match d.dur.flight with
  | [] => d
  | p :: ps =>
    if okA && okB then (({ d with dur.flight := ps }.applyPage p).wakeFlushes).settle
    else d.raise 0x5013 [(2, p.pair), (1, Config.causeCode (0x5013 * 256 + b2n okA + 2 * b2n okB))]

/-- JOURNAL_PAGE_TIMER (R200): 100 µs after its first record. -/
def Dev.pageTimer (d : Dev) : Dev :=
  match d.dur.page with
  | some p => if p.firstAt + 100000 ≤ d.now then d.closePage else d
  | none => d

/-- What a checkpoint holds now. -/
def Dev.snapshot (d : Dev) : Ckpt :=
  ⟨d.dur.map, d.fls.sbs, d.dur.reserves, (d.hq.ns.map (fun p => (p.1, p.2.append))).filter (fun p => p.2 != 0),
    d.rd64 .DUR_CSEQ_LO .DUR_CSEQ_HI⟩

/-- Write a checkpoint: the map, the superblock table and the reserves, 0x5020 (R205). Journal before it is not needed
any more. -/
def Dev.checkpoint (d : Dev) : Dev :=
  let c := d.rd64 .DUR_CSEQ_LO .DUR_CSEQ_HI
  { d with
    dur.ckpt := d.snapshot, dur.ckptAt := d.now, dur.journal := [[.checkpoint c]], dur.journalBytes := 0 }.raise 0x5020 [(8, c)]

/-- CHECKPOINT (R205): every INTERVAL_S, or when JOURNAL_MIB of journal has been written; not before Recovery has ended,
nor in Standby. -/
def Dev.checkpointDue (d : Dev) : Dev :=
  if decide (d.rd .AVL_STATUS_MODE ∈ [0, 1, 5]) || d.rd .AVL_STATUS_POWER_STATE == 1 then d
  else if d.dur.ckptAt + d.rd .DUR_CKPT_CFG_INTERVAL_S * 1000000000 ≤ d.now ∨
      d.rd .DUR_CKPT_CFG_JOURNAL_MIB * 1048576 ≤ d.dur.journalBytes then d.checkpoint else d

/-! ## Programs and erases (R149, R156, R176, R179) -/

/-- A stripe moves to the next page set of its superblock; none is left: it goes back to staging. -/
def Dev.nextPageSet (d : Dev) (s : Stripe) (after : Option Nat) : Dev :=
  let x := d.sb s.sb
  if x.state = 1 ∧ x.next < (d.sbGeom s.sb x.members).pagesPerBlock then
    (d.setSb s.sb { x with next := x.next + 1 }).setStripe s.id (fun s => { s with
      w := x.next, seq := x.baseSeq + x.next, units := [], retried := after
      blocks := s.blocks.map (fun b => { b with entry := { b.entry with w := x.next } }) })
  else d.restage s

/-- A program failed on a carrier's unit (table Flash faults): first at the next page set of the same superblock, then the
block is retired, the superblock closed and the stripe written elsewhere. -/
def Dev.programFail (d : Dev) (s : Stripe) (k : Nat) : Dev :=
  let c := 2 * k + sbHalf s.sb
  let die := sbDie s.sb
  let d := d.cnt .FLS_CH_CNT_PROG_FAIL c
  match s.retried with
  | none => d.nextPageSet s (some k)
  | some _ =>
    let d := d.dieLasting c die
    let d := (d.retireBlock c die (sbBlock s.sb) 0).closeSb s.sb
    (match d.stripe s.id with | some s => d.restage s | none => d)

/-- PROGRAM_DONE (R156): member `k` of a stripe reports its status, with the program time in ns. -/
def Dev.programDone (d : Dev) (id k : Nat) (ok : Bool) (ns : Nat) : Dev :=
  match d.stripe id with
  | none => d
  | some s =>
    if !s.issued || s.programmed || !s.members.contains k || s.units.contains k then d
    else if !ok then (d.programFail s k).settle
    else
      let d := { d with dur.progTimes := (d.dur.progTimes.filter (fun (p : Nat × Nat) => decide (d.now ≤ p.1 + 600000000000))) ++ [(d.now, ns)] }
      let d := d.setStripe id (fun s => { s with units := k :: s.units })
      let d :=
        if s.units.length + 1 = s.members.length then
          let d := d.setStripe id (fun s => { s with programmed := true })
          match s.retried with
          | some j =>
            let c := 2 * j + sbHalf s.sb
            let x := d.die c (sbDie s.sb)
            (d.setDie c (sbDie s.sb) { x with suspectBlocks := (sbBlock s.sb :: x.suspectBlocks).eraseDups }).transient
              (0x10000 + c * 32 + sbDie s.sb) 1
          | none => d
        else d
      d.settle

/-- An erase failed and was repeated once (table Flash faults). -/
def Dev.eraseFault (d : Dev) (c die b : Nat) (f : FaultClass) : Dev :=
  match f with
  | .none => d
  | .transient => (d.cnt .FLS_CH_CNT_ERASE_FAIL c).transient (0x10000 + c * 32 + die) 2
  | .lasting => (((d.cnt .FLS_CH_CNT_ERASE_FAIL c).dieLasting c die).retireBlock c die b 1)

/-- The rated cycles of a die's profile. -/
def Dev.peCycles (d : Dev) (c k : Nat) : Option Nat :=
  (d.die c k).profile.bind (fun p => ((d.secRecs 9).find? (fun r => leAt 0 1 r == p)).map (fun r => leAt 0x27 1 r * 1000))

/-- ERASE_DONE (R176, R220): the erase of a superblock ends, with the members whose erase failed. Suspect blocks and worn
ones are retired; the superblock is free. -/
def Dev.eraseDone (d : Dev) (n : Nat) (faults : List (Nat × FaultClass)) : Dev :=
  let x := d.sb n
  if x.state ≠ 4 then d
  else
    let h := sbHalf n
    let die := sbDie n
    let b := sbBlock n
    let d := faults.foldl (fun (d : Dev) (p : Nat × FaultClass) => if x.members.contains p.1 then d.eraseFault (2 * p.1 + h) die b p.2 else d) d
    let worn := fun (d : Dev) (k : Nat) => match d.peCycles (2 * k + h) die with | some m => decide (m ≤ x.erases + 1) | none => false
    let d := x.members.foldl (fun (d : Dev) k =>
      if worn d k then d.retireBlock (2 * k + h) die b 2
      else if (d.die (2 * k + h) die).suspectBlocks.contains b then d.retireBlock (2 * k + h) die b 3 else d) d
    let d := { d with fls.stripes := d.fls.stripes.filter (fun s : Stripe => s.sb != n) }
    let d := d.setSb n { x with state := 0, members := [], next := 0, relocate := false, erases := x.erases + 1 }
    (d.stewardTxn (.superblock n 0)).settle

/-- DIE_TIMEOUT (R149): a die fault; the die is reset and the operation fails. `op`: 0 read with the outcome of its
repetition, 1 program of a stripe, 2 erase of a superblock. -/
def Dev.dieTimeout (d : Dev) (c k op target : Nat) (f : FaultClass) : Dev :=
  if !d.dieUp c k then d
  else match op with
  | 0 => match f with
    | .none => d
    | .transient => d.transient (0x10000 + c * 32 + k) 3
    | .lasting => (d.dieLasting c k).settle
  | 1 => match d.stripe target with
    | some s =>
      if s.issued && !s.programmed && sbHalf s.sb == c % 2 && sbDie s.sb == k && s.members.contains (c / 2) &&
          !s.units.contains (c / 2) then (d.programFail s (c / 2)).settle
      else d
    | none => d
  | _ =>
    if (d.sb target).state = 4 ∧ sbHalf target = c % 2 ∧ sbDie target = k ∧ (d.sb target).members.contains (c / 2) then
      (d.eraseFault c k (sbBlock target) f).settle
    else d

/-- CH_ENG_RESET (R179): stripes in flight on the channel are programmed again; no fault is counted. -/
def Dev.channelReset (d : Dev) (c : Nat) : Dev :=
  let hit := d.fls.stripes.filter (fun s => s.issued && !s.programmed && !s.dump && sbHalf s.sb == c % 2 && s.members.contains (c / 2) &&
    !s.units.contains (c / 2))
  ((hit.foldl (fun (d : Dev) s => d.nextPageSet s s.retried) d).wr .FLS_CH_STATUS_RSVD_WRITE 0 c).settle

/-- SUSPECT_CLEAR (R222): a whole window without a lasting fault. Kinds: 0 flash die, 1 codec engine, 2 memory channel; the
last two are handled by their blocks. -/
def Dev.dieSuspectClear (d : Dev) (c k : Nat) : Dev :=
  let x := d.die c k
  if !(d.recent (d.rd .FLS_RETIRE_CFG_FAULT_WINDOW_H) x.lastingAt).isEmpty then d
  else
    let d := d.setDie c k { x with suspect := false, lastingAt := [] }
    if (List.range 32).all (fun j => !(d.die c j).suspect) then d.wr .FLS_CH_STATUS_SUSPECT 0 c else d

/-- Clear a codec engine's suspect status. -/
def Dev.engineSuspectClear (d : Dev) (e : Nat) : Dev :=
  if !(d.recent (d.rd .CDC_POOL_CFG_FAULT_WINDOW_H) (amGet [] e d.cdc.lastingAt)).isEmpty then d
  else { d with cdc.lastingAt := amDel e d.cdc.lastingAt }.wr .CDC_ENG_STATUS_SUSPECT 0 e

/-! ## Garbage collection, wear, scrub (R218–R221) -/

/-- Copy one block of a victim, unchanged, with a RELOCATE transaction (R159, R218). -/
def Dev.relocateEntry (d : Dev) (e : MapEntry) : Dev :=
  match d.blockAt e with
  | none => d
  | some (s, b) =>
    let (n, d) := d.takeCseq
    let cws := List.range (ceilDiv (e.off + b.bytes.length) 4096 - e.off / 4096)
    let keep := cws.map (fun i => amGet (b.key, 0) (e.off / 4096 + i) s.tweaks)
    { d with
      dur.txns := d.dur.txns ++ [⟨n, 0, 0, .relocate e, [], [], 0, 0⟩]
      fls.staged := d.fls.staged ++ [⟨{ b with entry := e, cseq := n }, true, keep, e.off % 4096⟩] }

/-- Relocate a superblock's valid blocks: they are posted in ascending place; stripes that cannot be read stay. -/
def Dev.relocateSb (d : Dev) (n : Nat) : Dev :=
  let pending := fun (e : MapEntry) => d.dur.txns.any (fun t => match t.kind with | .relocate o => o == e | _ => false)
  let readable := fun (e : MapEntry) => match d.stripeAt e.sb e.w with | some s => decide (d.unitsAway s ≤ 2) | none => false
  let es := d.dur.map.filter (fun e => e.sb == n && e.slen != 0 && !pending e && readable e)
  let bytes := (es.map (·.slen)).sum
  let total := d.dur.gcBytes + bytes
  let d := { d with dur.gcBytes := total % 1048576 }.cnt .DUR_CNT_GC_MIB 0 (total / 1048576)
  let order := es.mergeSort (fun a b => decide (a.w * 2 ^ 28 + a.off ≤ b.w * 2 ^ 28 + b.off))
  order.foldl Dev.relocateEntry (d.setSb n { d.sb n with relocate := true })

/-- The closed superblock with the least VALID_BYTES × (1 + age in days) (R218). -/
def Dev.gcVictim (d : Dev) : Option Nat :=
  let score := fun (n : Nat) (x : Superblock) => d.validBytes n * (86400000000000 + (d.now - x.closedAt))
  ((d.fls.sbs.filter (fun p => p.2.state == 2 && !p.2.relocate)).foldl (fun (m : Option (Nat × Superblock)) p => match m with
    | none => some p
    | some q => if score p.1 p.2 < score q.1 q.2 then some p else some q) none).map (·.1)

/-- The least-worn closed superblock when the spread of ERASES exceeds WL_DELTA (R220). -/
def Dev.wearVictim (d : Dev) : Option Nat :=
  let closed := d.fls.sbs.filter (fun p => p.2.state == 2)
  match closed with
  | [] => none
  | c :: cs =>
    let lo := cs.foldl (fun m p => if p.2.erases < m.2.erases then p else m) c
    let hi := cs.foldl (fun m p => max m p.2.erases) c.2.erases
    if d.rd .DUR_WEAR_CFG_WL_DELTA < hi - lo.2.erases ∧ !lo.2.relocate then some lo.1 else none

/-- A superblock queued for relocation with blocks not yet posted. -/
def Dev.queuedVictim (d : Dev) : Option Nat :=
  (d.fls.sbs.find? (fun p => p.2.state == 2 && p.2.relocate && d.dur.map.any (fun e => e.sb == p.1 && e.slen != 0 &&
    !d.dur.txns.any (fun t => match t.kind with | .relocate o => o == e | _ => false)))).map (·.1)

/-- GC_PASS (R218–R220): superblocks queued for relocation first, then the wear-levelling move, then the victim with the
least score. None in Hold-up (R165), nor while the flume from flash read to flash program is down (R27). -/
def Dev.gcPass (d : Dev) : Dev :=
  if d.rd .AVL_STATUS_MODE = 6 then d
  else if d.pathDown (fun f => f.through 8 && f.through 7) then d
  else
    let d := d.fillReserve
    (match d.queuedVictim with
      | some n => d.relocateSb n
      | none => match d.wearVictim with
        | some n => (d.cnt .DUR_CNT_WL_MOVES).relocateSb n
        | none => match d.gcVictim with
          | some n => d.relocateSb n
          | none => d).settle

/-- FLASH_PATROL_SCRUB (R221): the scrub read of one codeword of a stripe with valid data; `weak` says that it needed S3,
retry or reconstruction; `cols` are bit positions that scrub has corrected often enough (R171). -/
def Dev.patrolScrub (d : Dev) (id : Nat) (weak : Bool) (cols : List (Nat × Nat × Nat × Nat × Nat)) : Dev :=
  if d.rd .AVL_STATUS_MODE = 6 then d
  else match d.stripe id with
  | none => d
  | some s =>
    if !s.programmed then d
    else
      let d := { d with dur.scrubbed := s.seq }.addColumns cols
      let x := d.sb s.sb
      if weak && !x.relocate then (d.setSb s.sb { x with relocate := true }).cnt .DUR_CNT_SCRUB_REFRESH else d

/-- PROGRAM_TIME_WINDOW_EXPIRY (R197): times older than 10 minutes leave the window; the limit follows. -/
def Dev.progWindow (d : Dev) : Dev :=
  ({ d with dur.progTimes := d.dur.progTimes.filter (fun p => decide (d.now ≤ p.1 + 600000000000)) }).relimit

/-! ## The protected write buffer (R196, R198) -/

/-- Is a slot number free? -/
def Dev.slotFree (d : Dev) (j : Nat) : Bool := !d.dur.slots.any (fun p => p.1 == j)
/-- The lowest free slots. -/
def Dev.lowSlots (d : Dev) (n : Nat) : List Nat :=
  ((List.range (min d.dur.slotCount (d.dur.slots.length + n))).filter d.slotFree).take n

/-- Do the slots and the dirty limit admit `n` more granules (R197)? -/
def Dev.slotsFor (d : Dev) (n : Nat) : Bool :=
  decide (d.dirtyBytes + 4096 * n ≤ d.rd64 .DUR_DIRTY_LIMIT_LO .DUR_DIRTY_LIMIT_HI) && (d.lowSlots n).length == n

/-- A buffer copy loses the memory of a retired channel (R198): the slot count falls in proportion; 0x5080. -/
def Dev.shrinkBuffer (d : Dev) (copy chan before after : Nat) : Dev :=
  let d := { d with dur.slotCount := if before = 0 then 0 else d.dur.slotCount * after / before }
  (d.raise 0x5080 [(2, copy), (2, chan)]).relimit

/-! ## Hold-up (R207–R211) -/

/-- Program success of the stripes that were issued, and everything that may now commit, in CSEQ order (step 3). -/
def Dev.flushJournal (d : Dev) : Dev :=
  let d := { d with dur.txns := d.dur.txns.map (fun t : Txn => { t with stage := d.nextStage t }) }
  let d := (Dev.pumpRecords d.dur.txns.length d).closePage
  let ps := d.dur.flight
  ps.foldl Dev.applyPage { d with dur.flight := [] }

/-- The dirty slots of acknowledged writes in ascending CSEQ. -/
def Dev.dirtySlots (d : Dev) : List (Nat × Slot) :=
  (d.dur.slots.filter (fun p => p.2.cseq.isSome)).mergeSort (fun a b => decide (a.2.cseq.getD 0 ≤ b.2.cseq.getD 0))

/-- The hold-up flush (table Hold-up sequence): `ok` the issued stripes whose programs succeed, `cut` the number of slots
dumped before the energy ran out (none: all, with HOLDUP_END), `us` the time it took. -/
def Dev.holdUp (d : Dev) (ok : List Nat) (cut : Option Nat) (us : Nat) : Dev :=
  let d := { d with fls.stripes := d.fls.stripes.map (fun s : Stripe =>
    if ok.contains s.id && s.issued then { s with programmed := true, units := s.members } else s) }
  let d := d.flushJournal
  let slots := d.dirtySlots
  let n := match cut with | some k => min k slots.length | none => slots.length
  let dumped := slots.zipIdx.map (fun p =>
    (⟨p.1.2.cseq.getD 0, p.1.2.nsid, p.1.2.granule, p.1.2.bytes, decide (p.2 < n)⟩ : DumpSlot))
  let d := { d with dur.dump := dumped, dur.dumpEnd := cut.isNone }
  match cut with
  | some _ => d
  | none =>
    let top := dumped.foldl (fun m x => max m x.cseq) 0
    let d := { d with dur.journal := d.dur.journal ++ [[JRec.holdupEnd top (n * 4096) top]] }
    (d.cnt .DUR_CNT_HOLDUPS).raise 0x5002 [(4, us), (8, n * 4096)]

/-! ## Recovery (R212–R216) -/

/-- Records in ascending CSEQ up to the first that is missing (step 3). The list is in journal order, which is CSEQ order. -/
def replayTo (reached : Nat) : List JRec → List JRec
  | [] => []
  | r :: rs => match r.change with
    | none => r :: replayTo reached rs
    | some c => if c = reached + 1 then r :: replayTo c rs else []

/-- A replayed record: the map, and what the table of superblocks says. -/
def Dev.replayRec (d : Dev) (r : JRec) : Dev :=
  let d := d.applyMap r
  let d := match r with
    | .superblock _ sb st ms base => d.setSb sb { d.sb sb with state := st, members := ms, baseSeq := base }
    | .commit _ inst _ cat =>
      if cat.isEmpty ∨ (amGet [] inst d.cap.catalog).contains cat then d else d.catalogAdd inst cat
    | _ => d
  match r.change with
  | some c => d.wr64 .DUR_CSEQ_LO .DUR_CSEQ_HI c
  | none => d

/-- The parts of a host write (R191): each aligned span of 16 granules that is wholly covered, and every other granule. -/
def spanParts (nsid : Nat) (whole : Nat → Bool) (gs : List Nat) : List (Nat × Nat × Bool) :=
  let span := fun g => (List.range 16).all (fun i => gs.contains (g / 16 * 16 + i) && whole (g / 16 * 16 + i))
  gs.filterMap (fun g => if span g then (if g % 16 = 0 then some (nsid, g, true) else none) else some (nsid, g, false))

/-- Submit the slots of one transaction again through the normal write path (step 5). -/
def Dev.resubmit (d : Dev) (group : List (Nat × Slot)) : Dev :=
  match group with
  | [] => d
  | (_, x) :: _ =>
    let (n, d) := d.takeCseq
    let inst := match d.nspace x.nsid with | some s => s.inst | none => 0
    let ids := group.map (·.1)
    let d := { d with dur.slots := d.dur.slots.map (fun p : Nat × Slot => if ids.contains p.1 then (p.1, { p.2 with cseq := some n }) else p) }
    { d with dur.txns := d.dur.txns ++ [⟨n, inst, d.gen inst, .write 0 x.nsid ids,
      ((group.map (fun p => p.2.nsid)).eraseDups).flatMap (fun ns =>
        spanParts ns (fun _ => true) ((group.filter (fun p => p.2.nsid == ns)).map (fun p => p.2.granule))), [], 0, 0⟩] }

/-- The transactions of slots, in CSEQ order. -/
def slotGroups (xs : List (Nat × Slot)) : List (List (Nat × Slot)) :=
  ((xs.map (fun p => p.2.cseq.getD 0)).eraseDups.mergeSort (fun a b => decide (a ≤ b))).map (fun c => xs.filter (fun p => p.2.cseq == some c))

/-- The longest prefix of whole transactions whose dumped slots all decode (R213), and how many were lost. -/
def wholePrefix : List (List (Nat × Slot × Bool)) → List (List (Nat × Slot × Bool)) × Nat
  | [] => ([], 0)
  | g :: gs => if g.all (fun p => p.2.2) then
      let (a, b) := wholePrefix gs
      (g :: a, b)
    else ([], gs.length + 1)

/-- The catalog service fills an empty frame-index partition from the log, newest first (R203). -/
def Dev.refillIndex (d : Dev) (inst : Nat) (log : List (List Byte)) : Dev :=
  match d.hgPart 2 inst with
  | none => d
  | some p =>
    if !(d.partEntries p).isEmpty then d
    else (log.zipIdx.reverse.take (d.pCount p)).foldl (fun (d : Dev) r => d.indexAdd inst r.2 r.1) d

/-- Recovery (table Recovery steps). `bad` is the first journal page whose two copies fail, `undecoded` the dumped slots
that do not decode, `warm` whether the buffer was kept. -/
def Dev.recover (d : Dev) (bad : Option Nat) (undecoded : List Nat) (warm : Bool) : Dev :=
  let c := d.dur.ckpt
  let pages := match bad with | some k => d.dur.journal.take k | none => d.dur.journal
  let torn := match bad with | some k => d.dur.journal.length - k | none => 0
  let recs := replayTo c.cseq pages.flatten
  let lastDump := d.dur.dump
  let ended := d.dur.dumpEnd && bad.isNone
  let d := { d with
    dur.map := c.map, fls.sbs := c.sbs, dur.reserves := c.reserves, dur.txns := [], dur.page := none, dur.flight := []
    hq.ns := d.hq.ns.map (fun p : Nat × Namespace => (p.1, { p.2 with append := amGet 0 p.1 c.appends }))
    fls.staged := [] }
  let d := d.wr64 .DUR_CSEQ_LO .DUR_CSEQ_HI c.cseq
  let d := if torn = 0 then d else (d.cnt .DUR_CNT_TORN_PAGES 0 torn).raise 0x5012 [(4, torn)]
  let d := recs.foldl Dev.replayRec d
  let reached := d.rd64 .DUR_CSEQ_LO .DUR_CSEQ_HI
  let d := { d with dur.cseqNext := reached + 1, dur.tweak := d.dur.reserves }
  let used := d.dur.map.map (fun e => (e.sb, e.w))
  let d := { d with
    fls.stripes := d.fls.stripes.filter (fun s : Stripe => s.programmed && used.contains (s.sb, s.w))
    fls.sbs := d.fls.sbs.map (fun p : Nat × Superblock => if p.2.state = 1 then (p.1, { p.2 with state := 2, closedAt := d.now }) else p) }
  let committed := recs.filterMap JRec.change
  let restored : List (Nat × Slot) × Nat × Nat :=
    if warm then (d.dur.slots.filter (fun p => match p.2.cseq with | some k => !committed.contains k && decide (reached < k) | none => false), 0, 3)
    else if lastDump.isEmpty && !d.dur.dumpEnd then ([], 0, 1)
    else
      let xs := lastDump.zipIdx.map (fun p => (p.2, (⟨p.1.nsid, p.1.granule, p.1.bytes, 0, some p.1.cseq, 3⟩ : Slot), p.1.ok && !undecoded.contains p.2))
      let gs := ((xs.map (fun x => x.2.1.cseq.getD 0)).eraseDups).map (fun k => xs.filter (fun x => x.2.1.cseq == some k))
      if ended then (xs.map (fun x => (x.1, x.2.1)), 0, 2)
      else
        let (a, lost) := wholePrefix gs
        (a.flatten.map (fun x => (x.1, x.2.1)), lost, 4)
  let (slots, lost, how) := restored
  let d := { d with dur.slots := slots }
  let d := (slotGroups slots).foldl Dev.resubmit d
  let d := if how = 4 then (d.raise 0x5003 [(4, lost)]).dataLoss 1 lost else d
  let d := d.wr .DUR_STATUS_LAST_RECOVERY how
  let d := (List.range 256).foldl (fun (d : Dev) n => if d.insOn n then d.wr .DUR_INS_STORED (ceilDiv (d.storedBytes n) 1000000000) n else d) d
  let d := d.cap.catalog.foldl (fun (d : Dev) p => d.refillIndex p.1 p.2) d
  let d := (d.showDirty).checkpoint
  let d := { d with dur.dump := [], dur.dumpEnd := false }
  (d.raise 0x5011 [(1, how), (8, reached)]).settle

end Sys2Proof.Machine
end

