-- ==== Sys2Proof/Machine/Drain.lean ====
section
/-! DEFINITION. The drain: which frozen frame goes next, its compress job, what pauses it and what resumes it
(spec/03_capture.md, R102–R104; spec/06_durability.md, R191, R192). -/
namespace Sys2Proof.Machine

/-- The flumes that carry a stream owner's drain: those through the codec to flash program (R27). -/
def Dev.drainDown (d : Dev) (inst : Nat) : Bool :=
  d.instPathDown inst (fun f => f.through 5 && f.through 7)

/-- Bytes of a namespace. -/
def Namespace.bytes (x : Namespace) : Nat := x.sizeLbas * (if x.lbaf = 1 ∨ x.lbaf = 4 then 512 else 4096)

/-- Frames of a namespace that are being drained, as bytes of append point still to come. -/
def Dev.pendingAppend (d : Dev) (nsid : Nat) : Nat :=
  (d.dur.txns.map (fun t => match t.kind with
    | .frame n _ k _ _ => if k = nsid then (match d.stream n with | some x => up4k x.bytes | none => 0) else 0
    | _ => 0)).sum

/-- What keeps a stream's drain from going on, if anything (R104): 1 capacity, 2 namespace full, 3 free space, 4 route,
5 writes stopped, 6 no key. -/
def Dev.drainCause (d : Dev) (n : Nat) (x : Stream) : Option Nat :=
  let inst := d.streamOwner n
  if d.rd .FLS_STATUS_WRITES_STOPPED = 1 then some 5
  else if d.dur.lowSpace then some 3
  else if d.drainDown inst then some 4
  else if d.dur.exhausted.contains inst then some 1
  else match d.nspace x.nsid with
  | none => some 2
  | some ns =>
    if ns.bytes < ns.append + d.pendingAppend x.nsid + up4k x.bytes then some 2
    else if (amFind inst d.mgt.slots).isNone then some 6 else none

/-- The frame a queue entry names. -/
def Dev.queued (d : Dev) (p : Nat × Nat) : Option (Stream × Frame) :=
  (d.stream p.1).bind (fun x => (x.frame p.2).map (fun f => (x, f)))

/-- Entries of streams whose drain runs. -/
def Dev.drainable (d : Dev) : List (Nat × Nat) :=
  d.cap.queue.filter (fun p => match d.queued p with | some (x, _) => x.paused.isNone | none => false)

/-- Order of a window among those open or not drained: the oldest first. -/
def Dev.windowRank (d : Dev) (w : Option Nat) : Nat :=
  match w with
  | some k => d.cap.windows.findIdx (fun x => x.id == k)
  | none => d.cap.windows.length

/-- Does entry `a` go before entry `b` within an instance (R102)? Fewest unfrozen slots of the stream, oldest window, then
ascending frame time. -/
def Dev.drainBefore (d : Dev) (a b : Nat × Nat) : Bool :=
  match d.queued a, d.queued b with
  | some (x, f), some (y, g) =>
    let u := x.slots - (x.frames.filter (fun h => h.state == 3)).length
    let v := y.slots - (y.frames.filter (fun h => h.state == 3)).length
    decide (u < v) || (u == v && (decide (d.windowRank f.window < d.windowRank g.window) ||
      (d.windowRank f.window == d.windowRank g.window && decide (f.time < g.time))))
  | some _, none => true
  | _, _ => false

/-- The next entry of the drain queue (R102). -/
def Dev.drainPick (d : Dev) : Option (Nat × Nat) :=
  let es := d.drainable
  match d.arbPick 2 ((es.map (fun p => d.streamOwner p.1)).eraseDups) with
  | none => none
  | some n =>
    (es.filter (fun p => d.streamOwner p.1 == n)).foldl (fun m p => match m with
      | none => some p
      | some q => if d.drainBefore p q then some p else some q) none

/-- Die time in ns that bytes of a stripe take: their share of units at tP (R388). -/
def Dev.dieTime (d : Dev) (bytes : Nat) : Nat := if d.pageRoom = 0 then 0 else bytes * d.tP / d.pageRoom

/-- Change a frame's drain bookkeeping, which its descriptor does not show. -/
def Dev.noteFrame (d : Dev) (n id : Nat) (g : Frame → Frame) : Dev :=
  d.modStream n (fun x => { x with frames := x.frames.map (fun f => if f.id = id then g f else f) })

/-- DRAIN_DISPATCH (R102, R191, R199): the next frozen frame takes its CSEQ and its compress job is posted on codec queue
0, or its stream's drain pauses. -/
def Dev.drainDispatch (d : Dev) : Dev :=
  if d.rd .AVL_STATUS_MODE = 6 then d
  else match d.drainPick with
  | none => d
  | some (n, id) =>
    match d.queued (n, id) with
    | none => d
    | some (x, f) =>
      let inst := d.streamOwner n
      match d.drainCause n x with
      | some c =>
        let d := if c = 4 then d.refuseParcel else if c = 6 then d.raiseI inst 0x4070 [(1, inst), (1, 1)] else d
        d.pauseDrain n c
      | none =>
        let cseq := d.dur.cseqNext
        let desc := jobDesc 0 2 1 0 x.pixfmt x.width x.height 0 (x.slotAddr f.slot) x.bytes 0 (d.stagingBase 5) (2 * x.bytes + 65536)
          (cseq % 2 ^ 32) inst
        let (d, ok) := d.postJob ⟨0, desc, inst, d.gen inst, .drain n id, none⟩
        if !ok then d
        else
          let (_, d) := d.takeCseq
          let d := { d with
            dur.txns := d.dur.txns ++ [(⟨cseq, inst, d.gen inst, .frame n id x.nsid 0 0, [], [], 1, 0⟩ : Txn)]
            cap.queue := d.cap.queue.filter (fun p : Nat × Nat => p != (n, id)) }
          let d := d.wr .CAP_DRAIN_DEPTH d.cap.queue.length
          let d := (d.noteFrame n id (fun f => { f with cseq := some cseq })).charge 2 inst (d.dieTime x.bytes)
          d.refillDrain

/-- A frame's drain failed: its transaction is abandoned, the frame stays frozen and the drain pauses (R104). -/
def Dev.drainFail (d : Dev) (n id cseq cause : Nat) : Dev :=
  let d := d.setTxn cseq (fun t => { t with stage := 3, stripes := [], todo := 0 })
  let d := { d with fls.staged := d.fls.staged.filter (fun x : Staged => x.block.cseq != cseq) }
  let d := d.noteFrame n id (fun f => { f with cseq := none, queued := false })
  d.pauseDrain n cause

/-- Stored blocks of a job as they go to staging: LOFF counts from the frame's or span's start. -/
def stageBlocks (nsid base cseq key : Nat) (overlay : Bool) : Nat → List (List Byte) → List Staged
  | _, [] => []
  | at_, b :: bs =>
    let u := leAt (b.length - 16) 4 b
    ⟨⟨⟨nsid, base + at_, u, b.length, overlay, 0, 0, 0⟩, cseq, key, b⟩, false, [], 0⟩ ::
      stageBlocks nsid base cseq key overlay (at_ + u) bs

/-- The compress job of a drained frame ends. -/
def Dev.drainJobDone (d : Dev) (n id : Nat) (j : Job) (r : JobResult) : Dev :=
  match d.dur.txns.find? (fun t => t.stage == 0 && t.todo != 0 && (match t.kind with | .frame a b _ _ _ => a == n && b == id | _ => false)) with
  | none => d
  | some t =>
    if d.gen j.inst ≠ j.gen then (d.setTxn t.cseq (fun t => { t with todo := 0 })).settle
    else if r.status ≠ stDone then (d.drainFail n id t.cseq 0).settle
    else
      let nsid := match t.kind with | .frame _ _ k _ _ => k | _ => 0
      let blocks := stageBlocks nsid 0 t.cseq j.inst false 0 r.outBlocks
      let stored := (r.outBlocks.map List.length).sum
      let d := d.setTxn t.cseq (fun t => { t with todo := 0, kind := .frame n id nsid r.outBlocks.length stored })
      { d with fls.staged := d.fls.staged ++ blocks }.settle

/-- The compress job of a part of a host write ends. An engine fault has the part posted again. -/
def Dev.writeJobDone (d : Dev) (cseq ns g : Nat) (j : Job) (r : JobResult) : Dev :=
  match d.dur.txns.find? (fun t => t.cseq == cseq && t.stage == 0 && t.todo != 0) with
  | none => d
  | some t =>
    let whole := decide (dSrcLen j.desc = 65536)
    if d.gen j.inst ≠ j.gen then (d.setTxn cseq (fun t => { t with todo := t.todo - 1 })).settle
    else if r.status ≠ stDone then
      (d.setTxn cseq (fun t => { t with todo := t.todo - 1, parts := t.parts ++ [(ns, g, whole)] })).settle
    else
      let blocks := stageBlocks ns (g * 4096) t.cseq j.inst (!whole) 0 r.outBlocks
      let d := d.setTxn cseq (fun t => { t with todo := t.todo - 1 })
      { d with fls.staged := d.fls.staged ++ blocks }.settle

/-- Has the cause of a pause cleared (R104)? A codec or flash fault clears with the work's next attempt. -/
def Dev.causeCleared (d : Dev) (n cause : Nat) (x : Stream) : Bool :=
  match cause with
  | 0 => decide (d.rd .CDC_POOL_STATUS_ENGINES ≠ 0)
  | c => d.drainCause n x != some c

/-- DRAIN_RESUME (R104). -/
def Dev.drainResume (d : Dev) (n : Nat) : Dev :=
  match d.stream n with
  | none => d
  | some x => match x.paused with
    | none => d
    | some c =>
      if !d.causeCleared n c x then d
      else
        let d := d.modStream n (fun x => { x with paused := none })
        (x.frames.filter (fun f => f.state == 3 && !f.queued)).foldl (fun (d : Dev) f => d.enqueueDrain n f.id) d

/-- Host writes in flash staging when an instance is reset stay acknowledged: their transactions begin again under the new
generation, and the old ones take ABORT records (R200, R403, R404). -/
def Dev.rebase (d : Dev) (inst : Nat) : Dev :=
  (d.dur.txns.filter (fun t => t.inst == inst && t.stage != 2 && (match t.kind with | .write .. => true | _ => false))).foldl
    (fun (d : Dev) t =>
      let slots := d.dur.slots.filter (fun p => p.2.cseq == some t.cseq)
      let d := d.setTxn t.cseq (fun t => { t with stage := 3, parts := [], todo := 0 })
      let d := { d with fls.staged := d.fls.staged.filter (fun x : Staged => x.block.cseq != t.cseq) }
      d.resubmit slots) d

end Sys2Proof.Machine
end

