-- ==== Sys2Proof/Machine/HostIo.lean ====
section
/-! DEFINITION. Host commands that touch stored data: the hazard tracker, writes, reads, deallocations, protection
information (spec/07_host.md, R232–R254; spec/12_check.md, R372–R377). -/
namespace Sys2Proof.Machine

/-! ## Commands and namespaces -/

/-- Key of an instance's namespace: namespace identifiers are given per instance (R419). -/
def nsKey (inst nsid : Nat) : Nat := inst * 65536 + nsid % 32768
/-- Key of its hidden companion (R233). -/
def companion (key : Nat) : Nat := key + 32768
/-- Key of the namespace a command names. -/
def HCmd.key (c : HCmd) : Nat := nsKey c.inst (sqeNsid c.sqe)

/-- A namespace that a command's controller sees. -/
def Dev.nsOf (d : Dev) (c : HCmd) : Option Namespace :=
  let n := sqeNsid c.sqe
  if n = 0 ∨ 32768 ≤ n then none else d.nspace c.key

/-- Data bytes of an LBA (table LBA formats). -/
def Namespace.lba (x : Namespace) : Nat := if x.lbaf = 1 ∨ x.lbaf = 4 then 512 else 4096
/-- Metadata bytes of an LBA. -/
def Namespace.md (x : Namespace) : Nat := match x.lbaf with | 2 => 8 | 3 => 16 | 4 => 8 | _ => 0

/-- Is a command's queue an admin queue? -/
def Dev.isAdmin (d : Dev) (c : HCmd) : Bool := match amFind c.queue d.hq.queues with | some q => q.qid == 0 | none => false
/-- Its connection, over TCP. -/
def Dev.connOf (d : Dev) (c : HCmd) : Option (Nat × Conn) :=
  (amFind c.queue d.hq.queues).bind (fun q => q.conn.bind (fun k => (amFind k d.hq.conns).map (fun x => (k, x))))
/-- Its port, over TCP. -/
def Dev.portOf (d : Dev) (c : HCmd) : Option Nat := (d.connOf c).map (fun p => p.2.port)

/-- First byte and bytes of an NVM command's range. -/
def HCmd.range (c : HCmd) (x : Namespace) : Nat × Nat := (sqeSlba c.sqe * x.lba, sqeNlb c.sqe * x.lba)
/-- Granules of a byte range. -/
def granules (a n : Nat) : List Nat := if n = 0 then [] else (List.range ((a + n - 1) / 4096 + 1 - a / 4096)).map (· + a / 4096)

/-- Commands in the tracker (HQ_STATUS.INFLIGHT). -/
def Dev.inflight (d : Dev) : Nat := (d.hq.cmds.filter (fun c => 1 ≤ c.stage)).length

/-! ## Overlap and release (R247, R248, R252) -/

/-- Ranges of a Dataset Management command whose data have come: (first LBA, LBAs). -/
def dsmRanges (c : HCmd) : List (Nat × Nat) :=
  (List.range (leAt 40 1 c.sqe + 1)).map (fun i => (leAt (16 * i + 8) 8 c.data, leAt (16 * i + 4) 4 c.data))

/-- Granules that a command touches, as ranges; the Boolean says that they are not known yet. -/
def Dev.touches (d : Dev) (c : HCmd) : List (Nat × Nat) × Bool :=
  if d.isAdmin c then ([], false)
  else match d.nsOf c with
  | none => ([], false)
  | some x =>
    let op := sqeOp c.sqe
    let of := fun (slba n : Nat) => if n = 0 then none else some (slba * x.lba / 4096, ((slba + n) * x.lba - 1) / 4096)
    if op ∈ [0x01, 0x02, 0x05, 0x08, 0x0C] then ((of (sqeSlba c.sqe) (sqeNlb c.sqe)).toList, false)
    else if op = 0x09 then
      if c.data.length < 16 * (leAt 40 1 c.sqe + 1) then ([], true)
      else ((dsmRanges c).filterMap (fun r => of r.1 r.2), false)
    else ([], false)

/-- Streams (by number) and trigger groups (10,000 and above) that a capture command orders on. -/
def Dev.capTouches (d : Dev) (c : HCmd) : List Nat :=
  if d.isAdmin c then []
  else
    let w := cdw 10 c.sqe
    match sqeOp c.sqe with
    | 0x81 => [w % 4096, 10000 + bitsOf 29 24 w]
    | 0x82 => [w % 4096]
    | 0x85 => [10000 + w % 64]
    | 0x8A => [w % 4096]
    | _ => []

/-- Do two commands overlap? -/
def Dev.overlap (d : Dev) (a b : HCmd) : Bool :=
  let (ra, ua) := d.touches a
  let (rb, ub) := d.touches b
  (a.key == b.key && (
    (ua && (ub || !rb.isEmpty)) || (ub && !ra.isEmpty) ||
    ra.any (fun x => rb.any (fun y => decide (x.1 ≤ y.2 ∧ y.1 ≤ x.2))))) ||
  (a.inst == b.inst && (d.capTouches a).any (fun x => (d.capTouches b).contains x))

/-- Is `a` ordered before `b` (R247)? -/
def cmdBefore (a b : HCmd) : Bool :=
  if a.queue = b.queue then decide (a.handle < b.handle)
  else decide (a.arrival < b.arrival) || (a.arrival == b.arrival && decide (a.queue < b.queue))

/-- COMMAND_RELEASE (R248): every overlapping command ordered before it has taken effect. -/
def Dev.releaseCmd (d : Dev) (h : Nat) : Dev :=
  match d.cmd h with
  | none => d
  | some c =>
    if c.stage ≠ 1 then d
    else if d.hq.cmds.any (fun b => b.handle != h && decide (1 ≤ b.stage ∧ b.stage ≤ 2) && cmdBefore b c && d.overlap b c) then d
    else d.setCmd h (fun c => { c with stage := 2 })

/-! ## Checks every command passes (R234, R237) -/

/-- The dwords that a command's opcode leaves reserved (NVMe's command formats; the table Command fields). -/
def rsvdDwords (admin : Bool) (op : Nat) : List Nat :=
  if admin then (match op with | 0xC0 => [2, 3, 12, 13, 14, 15] | 0xC1 => [2, 3, 10, 11, 12, 13, 14, 15] | _ => [2, 3])
  else match op with
  | 0x00 => [2, 3, 10, 11, 12, 13, 14, 15]
  | 0x09 => [2, 3, 12, 13, 14, 15]
  | 0x81 => [2, 3, 15]
  | 0x82 => [2, 3, 11, 12, 13, 14, 15]
  | 0x85 => [2, 3, 13, 14, 15]
  | 0x86 => [2, 3, 10, 11, 12, 13, 14, 15]
  | 0x87 => [2, 3, 12, 13, 14, 15]
  | 0x8A => [2, 3]
  | _ => []

/-- FUSE, reserved bits of dword 0, the metadata pointer and the reserved dwords are 0. -/
def HCmd.clean (admin : Bool) (c : HCmd) : Bool :=
  sqeFuse c.sqe == 0 && bitsOf 13 10 (cdw 0 c.sqe) == 0 && leAt 16 8 c.sqe == 0 &&
  (rsvdDwords admin (sqeOp c.sqe)).all (fun k => cdw k c.sqe == 0)

/-- Is the flume down that carries answers to a command's port (R27)? -/
def Dev.answerDown (d : Dev) (c : HCmd) : Bool :=
  match d.portOf c with
  | some p => d.instPathDown c.inst (fun f => f.through 0xB && f.has 2 p)
  | none => false

/-- Is the flume down that mirrors an instance's writes into the two buffer copies (R27)? -/
def Dev.mirrorDown (d : Dev) (inst : Nat) : Bool := d.instPathDown inst (fun f => f.through 0xB && f.through 9)

/-- Is the flume down that brings flash reads to host queueing (R27)? -/
def Dev.flashReadDown (d : Dev) (inst : Nat) : Bool := d.instPathDown inst (fun f => f.through 8 && f.through 0xB)

/-- A command whose path needs a flume that is down: Internal Error, DNR clear (R27). -/
def Dev.refuseCmd (d : Dev) (h : Nat) : Dev := d.refuseParcel.failCmd h 0 0x06 false none

/-- Run the meaning of a row on a command of its opcode that has reached a stage, after the checks of R237. -/
def Dev.onCmd (d : Dev) (h : Nat) (admin : Bool) (op stage : Nat) (f : HCmd → Dev) : Dev :=
  match d.cmd h with
  | none => d
  | some c =>
    if d.isAdmin c != admin || sqeOp c.sqe != op || decide (c.stage < stage) || c.stage == 3 then d
    else if c.slots.isEmpty && d.answerDown c then d.refuseCmd h
    else if !c.clean admin then d.invalidField h
    else f c

/-- The same for commands on a namespace of kinds that a test selects. -/
def Dev.onNs (d : Dev) (h op stage : Nat) (f : HCmd → Namespace → Dev) : Dev :=
  d.onCmd h false op stage (fun c =>
    match d.nsOf c with
    | none => d.failCmd h 0 0x0B true none
    | some x => if 2 < x.kind then d.failCmd h 0 0x0B true none else f c x)

/-- Is the command's range within its namespace? -/
def HCmd.inRange (c : HCmd) (x : Namespace) : Bool := decide (sqeSlba c.sqe + sqeNlb c.sqe ≤ x.sizeLbas)

/-- Host identity of a command's controller. -/
def Dev.hostOf (d : Dev) (c : HCmd) : List Byte := match amFind c.ctrl d.hq.ctrls with | some k => k.host | none => []

/-- A reservation of the namespace held by another host (R253). -/
def Dev.reserved (d : Dev) (c : HCmd) : Bool :=
  match amFind c.key d.hq.resv with
  | some r => (match r.holder with | some x => x != d.hostOf c | none => false)
  | none => false

/-- Ask for the data a command still lacks: an R2T over TCP, a PCIe read otherwise (R246). -/
def Dev.askData (d : Dev) (c : HCmd) : Dev :=
  if c.want ≤ c.data.length ∨ c.asked then d
  else
    let d := d.setCmd c.handle (fun c => { c with asked := true })
    let n := c.want - c.data.length
    match d.connOf c with
    | some (k, _) => d.send (.r2t k (sqeCid c.sqe) c.data.length n)
    | none => d.send (.dmaRead c.queue (sqeCid c.sqe) c.data.length n)

/-- Run `f` once the command has `n` bytes of data; ask for them before. -/
def Dev.withData (d : Dev) (c : HCmd) (n : Nat) (f : HCmd → Dev) : Dev :=
  if n ≤ c.data.length then f c
  else
    let d := d.setCmd c.handle (fun c => { c with want := n })
    d.askData { c with want := n }

/-! ## Protection information (NVMe Base, PI types 1 and 3; R365, R372–R374) -/

/-- Fields of one LBA's protection information: guard, application tag, reference tag. -/
def piFields (md : Nat) (b : List Byte) : Nat × Nat × Nat :=
  if md = 16 then (beAt 0 8 b, beAt 8 2 b, beAt 10 6 b) else (beAt 0 2 b, beAt 2 2 b, beAt 4 4 b)
/-- Bytes of protection information. -/
def piBytes (md g a r : Nat) : List Byte :=
  if md = 16 then beBytes 8 g ++ beBytes 2 a ++ beBytes 6 r else beBytes 2 g ++ beBytes 2 a ++ beBytes 4 r
/-- The guard over an LBA's data: CRC-16 T10-DIF or CRC-64. -/
def piGuard (md : Nat) (data : List Byte) : Nat := if md = 16 then Crc.crc64.value data else Crc.crc16.value data

/-- PRACT of a command. -/
def prAct (sqe : List Byte) : Bool := bitOf 29 (cdw 12 sqe)
/-- PRCHK: guard, application tag, reference tag. -/
def prChk (sqe : List Byte) : Nat := bitsOf 28 26 (cdw 12 sqe)
/-- The initial or expected reference tag for LBA `i` of a command: rising for type 1. -/
def refTag (x : Namespace) (sqe : List Byte) (i : Nat) : Nat :=
  let w := if x.md = 16 then 48 else 32
  let base := if x.md = 16 then cdw 14 sqe + 2 ^ 32 * (cdw 3 sqe % 65536) else cdw 14 sqe
  if x.piType = 3 then base else (base + i) % 2 ^ w
/-- Application tag and mask of a command. -/
def appTag (sqe : List Byte) : Nat × Nat := (cdw 15 sqe % 65536, cdw 15 sqe / 65536)

/-- Do the escape values disable the checks of an LBA? -/
def piEscape (x : Namespace) (a r : Nat) : Bool :=
  a == 0xFFFF && (x.piType != 3 || r == (if x.md = 16 then 2 ^ 48 - 1 else 2 ^ 32 - 1))

/-- Which tag of an LBA fails its check, if any: 2 application, 3 reference. -/
def tagFault (x : Namespace) (sqe : List Byte) (i a r : Nat) : Option Nat :=
  let c := prChk sqe
  let (t, m) := appTag sqe
  if piEscape x a r then none
  else if bitOf 1 c ∧ (a &&& m) ≠ (t &&& m) then some 2
  else if bitOf 0 c ∧ x.piType ≠ 3 ∧ r ≠ refTag x sqe i then some 3
  else none

/-- LBA `i` of extended or plain data: its data and its metadata. -/
def lbaAt (x : Namespace) (ext : Bool) (data : List Byte) (i : Nat) : List Byte × List Byte :=
  if ext then (sliceB (i * (x.lba + x.md)) x.lba data, sliceB (i * (x.lba + x.md) + x.lba) x.md data)
  else (sliceB (i * x.lba) x.lba data, [])

/-- The first LBA of a PRACT 0 write that fails a selected check, and the check: 1 guard, 2 application, 3 reference
(R373). -/
def writePiFault (x : Namespace) (c : HCmd) : Nat → Nat → Option (Nat × Nat)
  | 0, _ => none
  | n + 1, i =>
    let (b, m) := lbaAt x true c.data i
    let (g, a, r) := piFields x.md m
    if !piEscape x a r && bitOf 2 (prChk c.sqe) && g != piGuard x.md b then some (i, 1)
    else match tagFault x c.sqe i a r with
      | some k => some (i, k)
      | none => writePiFault x c n (i + 1)

/-- A protection-information failure of a command (R253). -/
def Dev.failPi (d : Dev) (h k : Nat) : Dev := d.failCmd h 2 (0x81 + k) true (some .HQ_INS_CNT_GUARD_ERRORS)

/-! ## What a granule holds now (R196, R249) -/

/-- The highest CSEQ of a slot that holds a granule, with its bytes. -/
def Dev.newestSlot (d : Dev) (key g : Nat) : Option (Nat × List Byte) :=
  (d.dur.slots.filter (fun p => p.2.nsid == key && p.2.granule == g && p.2.cseq.isSome)).foldl
    (fun m p => let c := p.2.cseq.getD 0
      match m with
      | none => some (c, p.2.bytes)
      | some (k, b) => if k < c then some (c, p.2.bytes) else some (k, b)) none

/-- The highest CSEQ of a deallocation of a granule whose record is not yet written. -/
def Dev.newestDealloc (d : Dev) (key g : Nat) : Option Nat :=
  d.dur.txns.foldl (fun m t => match t.kind with
    | .dealloc _ k a b => if k = key ∧ a ≤ g ∧ g ≤ b ∧ t.stage ≠ 3 then some (max (m.getD 0) t.cseq) else m
    | _ => m) none

/-- Resolve a granule (R249). -/
def Dev.resolveGranule (d : Dev) (key g : Nat) : GSource :=
  let fromMap := match d.lookup key g with | [] => GSource.zeros | es => .blocks es
  match d.newestSlot key g, d.newestDealloc key g with
  | some (c, b), some k => if k < c then .slot b else .zeros
  | some (_, b), none => .slot b
  | none, some _ => .zeros
  | none, none => fromMap

/-- Bytes of a granule from the decoded blocks over it. -/
def granuleFrom (g : Nat) (blocks : List (MapEntry × List Byte)) : List Byte :=
  blocks.foldl (fun acc p =>
    let a := g * 4096
    let lo := max a p.1.loff
    let hi := min (a + 4096) (p.1.loff + p.1.ulen)
    if hi ≤ lo then acc else putAt (lo - a) ((p.2.drop (lo - p.1.loff)).take (hi - lo)) acc) (zeros 4096)

/-- A granule's current data, for the rest of a partly written granule (R196); none where a stored block is unreadable. -/
def Dev.granuleNow (d : Dev) (key g : Nat) : Option (List Byte) :=
  match d.resolveGranule key g with
  | .zeros => some (zeros 4096)
  | .slot b => some b
  | .blocks es =>
    let bs := es.map (fun e => match d.blockAt e with
      | some (s, b) =>
        if decide (d.unitsAway s ≤ 2) then
          (match decodeBlock b.bytes with | .ok x => some (e, x.data) | .error _ => none)
        else none
      | none => none)
    if bs.all Option.isSome then some (granuleFrom g (bs.filterMap id)) else none

/-! ## Writes (R196, R206, R246) -/

/-- Byte updates of one piece of a write: key, byte offset, bytes. -/
abbrev Update := Nat × Nat × List Byte

/-- The metadata that a write stores for LBA `i`: as received, or generated on PRACT 1. -/
def writeMd (x : Namespace) (c : HCmd) (i : Nat) : List Byte :=
  let (b, m) := lbaAt x (!prAct c.sqe) c.data i
  if prAct c.sqe then piBytes x.md (piGuard x.md b) (appTag c.sqe).1 (refTag x c.sqe i) else m

/-- Where LBA `n`'s metadata lie in the companion (R233). -/
def mdOffset (x : Namespace) (n : Nat) : Nat :=
  if x.lba = 4096 then 64 * n else 64 * (n / 8) + x.md * (n % 8)

/-- The transactions of a write as byte updates: pieces of 1 MiB from its first byte, each with its companion bytes
(R206, R233). -/
def writePieces (x : Namespace) (c : HCmd) : List (List Update) :=
  let ext := x.md != 0 && !prAct c.sqe
  let per := 1048576 / x.lba
  let n := sqeNlb c.sqe
  (List.range (ceilDiv n per)).map (fun p =>
    let ls := (List.range (min per (n - p * per))).map (· + p * per)
    let slba := sqeSlba c.sqe
    [(c.key, (slba + p * per) * x.lba, ls.flatMap (fun i => (lbaAt x ext c.data i).1))] ++
      (if x.md = 0 then [] else ls.map (fun i => (companion c.key, mdOffset x (slba + i), writeMd x c i))))

/-- Granules that updates touch, by key, each once. -/
def updateGranules (us : List Update) : List (Nat × Nat) :=
  (us.flatMap (fun u => (granules u.2.1 u.2.2.length).map (fun g => (u.1, g)))).eraseDups

/-- Slots that a write needs: one for each granule of each piece. -/
def slotsNeeded (x : Namespace) (c : HCmd) : Nat :=
  let per := 1048576 / x.lba
  let n := sqeNlb c.sqe
  let slba := sqeSlba c.sqe
  ((List.range (ceilDiv n per)).map (fun p =>
    let k := min per (n - p * per)
    (granules ((slba + p * per) * x.lba) (k * x.lba)).length +
      (if x.md = 0 then 0 else
        (granules (mdOffset x (slba + p * per)) (mdOffset x (slba + p * per + k - 1) + x.md - mdOffset x (slba + p * per))).length))).sum

/-- Apply updates to a granule's bytes. -/
def patchGranule (key g : Nat) (b : List Byte) (us : List Update) : List Byte :=
  us.foldl (fun acc u =>
    if u.1 ≠ key then acc
    else
      let a := g * 4096
      let lo := max a u.2.1
      let hi := min (a + 4096) (u.2.1 + u.2.2.length)
      if hi ≤ lo then acc else putAt (lo - a) ((u.2.2.drop (lo - u.2.1)).take (hi - lo)) acc) b

/-- Is a granule wholly covered by the updates' one data range? -/
def coversGranule (us : List Update) (key g : Nat) : Bool :=
  us.any (fun u => u.1 == key && decide (u.2.1 ≤ g * 4096 ∧ g * 4096 + 4096 ≤ u.2.1 + u.2.2.length))

/-- New contents of the granules of a piece; none where the rest of a granule cannot be read. -/
def Dev.pieceData (d : Dev) (us : List Update) : Option (List (Nat × Nat × List Byte)) :=
  let gs := (updateGranules us).map (fun p =>
    if coversGranule us p.1 p.2 then some (p.1, p.2, patchGranule p.1 p.2 (zeros 4096) us)
    else (d.granuleNow p.1 p.2).map (fun b => (p.1, p.2, patchGranule p.1 p.2 b us)))
  if gs.all Option.isSome then some (gs.filterMap id) else none

/-- Mark a byte range as written for the reads that have resolved (R377). -/
def Dev.noteNewer (d : Dev) (key a n : Nat) : Dev :=
  { d with hq.cmds := d.hq.cmds.map (fun c : HCmd =>
    if c.stage = 3 ∧ c.span.1 = key then { c with newer := c.newer ++ [(a, n)] } else c) }

/-- Acknowledge one piece: CSEQ, slots filled, compress parts to post (R191, R196, R199). -/
def Dev.ackPiece (d : Dev) (h inst gen : Nat) (us : List Update) (new : List (Nat × Nat × List Byte)) (ids : List Nat) : Dev :=
  let (n, d) := d.takeCseq
  let slots := (ids.zip new).map (fun p => (p.1, (⟨p.2.1, p.2.2.1, p.2.2.2, h, some n, 3⟩ : Slot)))
  let d := { d with dur.slots := slots.foldl (fun (m : AMap Slot) (p : Nat × Slot) => amPut p.1 p.2 m) d.dur.slots }
  let keys := (new.map (·.1)).eraseDups
  let parts := keys.flatMap (fun k => spanParts k (coversGranule us k) ((new.filter (fun x => x.1 == k)).map (fun x => x.2.1)))
  { d with dur.txns := d.dur.txns ++ [(⟨n, inst, gen, .write h (keys.headD 0) ids, parts, [], 0, 0⟩ : Txn)] }

/-- Acknowledge the pieces of a write in ascending CSEQ; false when the rest of a granule cannot be read. -/
def Dev.ackPieces (d : Dev) (h inst gen : Nat) : List (List Update) → List Nat → Dev × Bool
  | [], _ => (d, true)
  | us :: rest, ids =>
    match d.pieceData us with
    | none => (d, false)
    | some new => (d.ackPiece h inst gen us new (ids.take new.length)).ackPieces h inst gen rest (ids.drop new.length)

/-- The slots a write holds and has not had acknowledged are freed with an ABORT record (R253). -/
def Dev.abandonWrite (d : Dev) (c : HCmd) : Dev :=
  if c.slots.isEmpty then d
  else
    let (n, d) := d.takeCseq
    let d := { d with dur.slots := d.dur.slots.map (fun p : Nat × Slot =>
      if p.2.handle = c.handle ∧ p.2.cseq.isNone then (p.1, { p.2 with cseq := some n }) else p) }
    { d with dur.txns := d.dur.txns ++ [(⟨n, c.inst, c.gen, .write c.handle c.key c.slots, [], [], 0, 3⟩ : Txn)] }.settle

/-- A write fails before it is acknowledged. -/
def Dev.failWrite (d : Dev) (h sct sc : Nat) (dnr : Bool) (counter : Option Fld) : Dev :=
  match d.cmd h with
  | none => d
  | some c => (d.abandonWrite c).failCmd h sct sc dnr counter

/-- DIRTY_LIMITED shows whether a write waits for slots; 0x5030 and the yield once per episode (R197, R395). -/
def Dev.showLimited (d : Dev) : Dev :=
  let waits : Bool := d.hq.cmds.any (fun c => c.held && c.stage != 3)
  if waits then
    if d.rd .DUR_STATUS_DIRTY_LIMITED = 1 then d
    else (((d.wr .DUR_STATUS_DIRTY_LIMITED 1).raise 0x5030 [(8, d.rd64 .DUR_DIRTY_LIMIT_LO .DUR_DIRTY_LIMIT_HI)]).yieldAt
      (match d.hq.cmds.find? (fun c => c.held && c.stage != 3) with | some c => c.inst | none => 0) 1)
  else d.wr .DUR_STATUS_DIRTY_LIMITED 0

/-- Take the slots of an admitted write and ask for its data, or wait at the dirty limit (R196, R197, R246). -/
def Dev.takeSlots (d : Dev) (c : HCmd) (x : Namespace) : Dev :=
  if !c.slots.isEmpty then d
  else
    let n := slotsNeeded x c
    if d.slotsFor n then
      let ids := d.lowSlots n
      let d := { d with dur.slots := ids.foldl (fun m j => amPut j (⟨c.key, 0, [], c.handle, none, 3⟩ : Slot) m) d.dur.slots }
      let d := (d.setCmd c.handle (fun c => { c with slots := ids, held := false })).showDirty.showLimited
      d.askData c
    else (d.setCmd c.handle (fun c => { c with held := true })).showLimited

/-- A PRACT 0 write that holds its slots is checked once its data are complete (R373). -/
def Dev.checkData (d : Dev) (h : Nat) : Dev :=
  match d.cmd h with
  | none => d
  | some c =>
    if sqeOp c.sqe ≠ 1 ∨ d.isAdmin c ∨ c.slots.isEmpty ∨ c.data.length < c.want then d
    else match d.nsOf c with
    | none => d
    | some x =>
      if x.md = 0 ∨ prAct c.sqe then d
      else match writePiFault x c (sqeNlb c.sqe) 0 with
      | none => d
      | some (_, k) =>
        let d := match d.portOf c with | some p => d.cnt .CHK_PORT_CNT_GUARD_BAD p | none => d
        d.failWrite h 2 (0x81 + k) true (some .HQ_INS_CNT_GUARD_ERRORS)

/-- Data of a command have come. -/
def Dev.dataCame (d : Dev) (h : Nat) (bytes : List Byte) : Dev :=
  (d.setCmd h (fun c => { c with data := c.data ++ bytes })).checkData h

/-- WRITE (R191, R192, R223, R234, R246, R372): an admitted write is checked, takes its slots and has its data sent. -/
def Dev.write (d : Dev) (h : Nat) : Dev :=
  d.onNs h 0x01 1 (fun c x =>
    let ext := x.md != 0 && !prAct c.sqe
    let want := sqeNlb c.sqe * (x.lba + (if ext then x.md else 0))
    if x.kind ≠ 0 then d.failCmd h 0 0x20 true none
    else if !c.inRange x then d.failCmd h 0 0x80 true none
    else if 8388608 < sqeNlb c.sqe * x.lba then d.invalidField h
    else if x.md != 0 && prAct c.sqe != (x.guardSrc == 1) then d.invalidField h
    else if d.reserved c then d.failCmd h 0 0x83 true none
    else if d.dur.exhausted.contains c.inst then d.failCmd h 0 0x81 true none
    else if (amFind c.inst d.mgt.slots).isNone then
      (d.raiseI c.inst 0x4070 [(1, c.inst), (1, 1)]).failCmd h 7 0x8C true (some .HQ_INS_CNT_READ_ERRORS)
    else if c.slots.isEmpty && d.mirrorDown c.inst then d.refuseCmd h
    else
      let d := d.setCmd h (fun c => { c with want := want })
      (d.takeSlots { c with want := want } x).checkData h)

/-- SLOT_RESERVE (R246): slots have become available for a write that waits. -/
def Dev.slotReserve (d : Dev) (h : Nat) : Dev :=
  match d.cmd h with
  | none => d
  | some c =>
    if !c.held || c.stage == 3 || sqeOp c.sqe != 1 || d.isAdmin c then d
    else match d.nsOf c with
    | none => d
    | some x => (d.takeSlots c x).checkData h

/-- MIRROR_DONE (R32, R199, R206): a released write whose slots hold all its data in both copies is acknowledged. -/
def Dev.mirrorDone (d : Dev) (h : Nat) : Dev :=
  match d.cmd h with
  | none => d
  | some c =>
    if c.stage ≠ 2 ∨ sqeOp c.sqe ≠ 1 ∨ d.isAdmin c ∨ c.slots.isEmpty ∨ c.data.length < c.want ∨ d.rd .AVL_STATUS_MODE = 6 then d
    else match d.nsOf c with
    | none => d
    | some x =>
      if d.mirrorDown c.inst then d.refuseParcel.failWrite h 0 0x06 false none else
      let (d1, ok) := d.ackPieces h c.inst c.gen (writePieces x c) c.slots
      if !ok then d.failWrite h 2 0x81 true (some .HQ_INS_CNT_READ_ERRORS)
      else
        let (a, n) := c.range x
        ((d1.noteNewer c.key a n).succeed h 0 0).settle

/-! ## Deallocation (R192, R199) -/

/-- The granules wholly within a byte range, and the parts of others at its ends. -/
def deallocParts (a n : Nat) : Option (Nat × Nat) × List (Nat × Nat) :=
  let first := ceilDiv a 4096
  let stop := (a + n) / 4096
  if stop ≤ first then (none, if a / 4096 = (a + n - 1) / 4096 then [(a, n)] else [(a, first * 4096 - a), (stop * 4096, a + n - stop * 4096)])
  else (some (first, stop - 1),
    (if a = first * 4096 then [] else [(a, first * 4096 - a)]) ++ (if a + n = stop * 4096 then [] else [(stop * 4096, a + n - stop * 4096)]))

/-- A deallocation that must wait for a frame's commit record (R192). -/
def Dev.frameWaits (d : Dev) (key : Nat) (x : Namespace) (a n : Nat) : Bool :=
  x.kind == 1 && decide (x.append < a + n) && d.pendingAppend key != 0

/-- Deallocate a byte range for a command: whole granules by their record, LBAs of a partly covered granule by writing
zeros (notes/assumptions/104). -/
def Dev.deallocRange (d : Dev) (c : HCmd) (key a n : Nat) : Dev :=
  if n = 0 then d
  else
    let (whole, ends) := deallocParts a n
    let d := d.noteNewer key a n
    let d := match whole with
      | none => d
      | some (g, k) =>
        let (s, d) := d.takeCseq
        { d with dur.txns := d.dur.txns ++ [(⟨s, c.inst, c.gen, .dealloc c.handle key g k, [], [], 0, 1⟩ : Txn)] }
    ends.foldl (fun (d : Dev) e =>
      if e.2 = 0 then d
      else
        let us : List Update := [(key, e.1, zeros e.2)]
        match d.pieceData us with
        | none => d
        | some new => d.ackPiece 0 c.inst c.gen us new (d.lowSlots new.length)) d

/-- Deallocate ranges of a released command; it completes when the records are written, at once where none is needed. -/
def Dev.deallocCmd (d : Dev) (c : HCmd) (rs : List (Nat × Nat)) : Dev :=
  let d := rs.foldl (fun (d : Dev) r => d.deallocRange c c.key r.1 r.2) d
  let waits := d.dur.txns.any (fun t => match t.kind with | .dealloc h _ _ _ => h == c.handle | _ => false)
  (if waits then d.setCmd c.handle (fun c => { c with stage := 3 }) else d.succeed c.handle 0 0).showDirty.settle

/-- DATASET_MANAGEMENT (R192): attribute Deallocate only. -/
def Dev.datasetManagement (d : Dev) (h : Nat) : Dev :=
  d.onNs h 0x09 1 (fun c x =>
    if x.kind = 2 then d.failCmd h 0 0x01 true none
    else if 256 ≤ cdw 10 c.sqe ∨ 8 ≤ cdw 11 c.sqe then d.invalidField h
    else if d.reserved c then d.failCmd h 0 0x83 true none
    else d.withData c (16 * (leAt 40 1 c.sqe + 1)) (fun c =>
      if c.stage ≠ 2 then d
      else if !bitOf 2 (cdw 11 c.sqe) then d.succeed h 0 0
      else if (dsmRanges c).any (fun r => decide (x.sizeLbas < r.1 + r.2)) then d.failCmd h 0 0x80 true none
      else
        let rs := (dsmRanges c).map (fun r => (r.1 * x.lba, r.2 * x.lba))
        if rs.any (fun r => d.frameWaits c.key x r.1 r.2) then d else d.deallocCmd c rs))

/-- WRITE_ZEROES (R192): a Deallocate of its range, whatever DEAC says. -/
def Dev.writeZeroes (d : Dev) (h : Nat) : Dev :=
  d.onNs h 0x08 2 (fun c x =>
    if x.kind = 2 then d.failCmd h 0 0x01 true none
    else if !c.inRange x then d.failCmd h 0 0x80 true none
    else if d.reserved c then d.failCmd h 0 0x83 true none
    else
      let (a, n) := c.range x
      if d.frameWaits c.key x a n then d else d.deallocCmd c [(a, n)])

/-- FLUSH (R250): at once in a protected-ack namespace, else when the commit records of what completed before it are
written. -/
def Dev.flush (d : Dev) (h : Nat) : Dev :=
  d.onCmd h false 0x00 1 (fun c =>
    let all := sqeNsid c.sqe == 0xFFFFFFFF
    if !all && (d.nsOf c).isNone then d.failCmd h 0 0x0B true none
    else
      let keys := if all then (d.hq.ns.map (·.1)).filter (fun k => k / 65536 == c.inst) else [c.key, companion c.key]
      let open_ := keys.filter (fun k => match d.nspace (if k % 65536 < 32768 then k else k - 32768) with
        | some x => !(x.pack && d.rd .DUR_STATUS_HOLDUP_READY == 1)
        | none => false)
      let last := d.dur.txns.foldl (fun m t => match t.kind with
        | .write _ k _ => if open_.contains k then max m (t.cseq + 1) else m
        | .dealloc _ k _ _ => if open_.contains k then max m (t.cseq + 1) else m
        | _ => m) 0
      if last = 0 then d.succeed h 0 0
      else d.setCmd h (fun c => { c with stage := 3, held := true, want := last }))

/-! ## Reads (R249, R254) -/

/-- The codewords that carry a stored block: member and number within its unit. -/
def Dev.codewordsOf (d : Dev) (s : Stripe) (off n : Nat) : List (Nat × Nat) :=
  let u := unitCws (d.sbGeom s.sb s.members)
  if u = 0 ∨ n = 0 then []
  else (List.range ((off + n - 1) / 4096 + 1 - off / 4096)).map (fun i =>
    let k := off / 4096 + i
    (s.dataMembers.getD (k / u) 0, k % u))

/-- What a read of an entry's block needs. Blocks of a stripe not yet programmed come from staging (R164). -/
def Dev.blockRead (d : Dev) (e : MapEntry) : BlockRead :=
  match d.stripeAt e.sb e.w with
  | some s => ⟨e, s.id, if s.programmed then d.codewordsOf s e.off e.slen else [], [], false, none⟩
  | none => ⟨e, 0, [], [5], false, none⟩

/-- Resolve a byte range (R249), with the companion of the LBAs in it. -/
def Dev.resolve (d : Dev) (key a n : Nat) (x : Namespace) : List (Nat × Nat × GSource) :=
  (granules a n).map (fun g => (key, g, d.resolveGranule key g)) ++
  (if x.md = 0 ∨ n = 0 then []
   else
    let lo := mdOffset x (a / x.lba)
    let hi := mdOffset x ((a + n - 1) / x.lba) + x.md
    (granules lo (hi - lo)).map (fun g => (companion key, g, d.resolveGranule (companion key) g)))

/-- The blocks that resolved granules need, each once. -/
def neededBlocks (ss : List (Nat × Nat × GSource)) : List MapEntry :=
  (ss.flatMap (fun s => match s.2.2 with | .blocks es => es | _ => [])).eraseDups

/-- Bytes of a resolved granule, with the blocks decoded. -/
def HCmd.granule (c : HCmd) (key g : Nat) : List Byte :=
  match c.sources.find? (fun s => s.1 == key && s.2.1 == g) with
  | some (_, _, .slot b) => b
  | some (_, _, .blocks es) =>
    granuleFrom g (es.filterMap (fun e => (c.reads.find? (fun r => r.entry == e)).bind (fun r => r.data.map (fun b => (e, b)))))
  | _ => zeros 4096

/-- Bytes of a range that a read resolved. -/
def HCmd.bytes (c : HCmd) (key a n : Nat) : List Byte :=
  let gs := granules a n
  sliceB (a - gs.headD 0 * 4096) n (gs.flatMap (fun g => c.granule key g))

/-- Has LBA data a witness (R375): it came from stored blocks whose codewords all decoded? -/
def HCmd.witness (c : HCmd) (key a n : Nat) : Bool :=
  (granules a n).all (fun g => match c.sources.find? (fun s => s.1 == key && s.2.1 == g) with
    | some (_, _, .blocks es) => es.all (fun e => match c.reads.find? (fun r => r.entry == e) with
        | some r => !r.got.isEmpty && r.got.all (fun s => s ≤ 2)
        | none => false)
    | _ => false)

/-- Is a byte range deallocated, by what the read resolved? -/
def HCmd.allZeros (c : HCmd) (key a n : Nat) : Bool :=
  (granules a n).all (fun g => match c.sources.find? (fun s => s.1 == key && s.2.1 == g) with | some (_, _, .zeros) => true | _ => false)

/-- The repair write of a regenerated guard (R376, R377). -/
def Dev.repairWrite (d : Dev) (c : HCmd) (x : Namespace) (lba : Nat) (pi : List Byte) : Dev :=
  let a := lba * x.lba
  let newer := c.newer.any (fun r => decide (r.1 < a + x.lba ∧ a < r.1 + r.2)) ||
    d.hq.cmds.any (fun b => b.handle != c.handle && decide (1 ≤ b.stage) && cmdBefore c b && b.key == c.key && !d.isAdmin b &&
      (sqeOp b.sqe == 1 || sqeOp b.sqe == 8 || sqeOp b.sqe == 9) &&
      (match d.touches b with | (rs, u) => u || rs.any (fun r => decide (r.1 ≤ a / 4096 ∧ a / 4096 ≤ r.2))))
  if newer then
    (d.cnt .CHK_GUARD_CNT_GUARD_REGEN_DROPPED).raiseI c.inst 0xB102 [(4, sqeNsid c.sqe), (8, lba)]
  else
    let us : List Update := [(companion c.key, mdOffset x lba, pi)]
    match d.pieceData us with
    | none => d
    | some new => if d.slotsFor new.length then ((d.ackPiece 0 c.inst c.gen us new (d.lowSlots new.length)).showDirty).settle else d

/-- Check one LBA of a read (R374–R377): the metadata to return, or the failing check. -/
def Dev.checkLba (d : Dev) (c : HCmd) (x : Namespace) (i : Nat) : Dev × (Except Nat (List Byte)) :=
  let lba := sqeSlba c.sqe + i
  let data := c.bytes c.key (lba * x.lba) x.lba
  let m := c.bytes (companion c.key) (mdOffset x lba) x.md
  let (g, a, r) := piFields x.md m
  if c.allZeros c.key (lba * x.lba) x.lba then (d, .ok m)
  else
    let good := g == piGuard x.md data
    if !good && x.guardSrc == 1 then
      if c.witness c.key (lba * x.lba) x.lba then
        let pi := piBytes x.md (piGuard x.md data) a r
        let d := (d.cnt .CHK_GUARD_CNT_GUARD_REGEN).raiseI c.inst 0xB101 [(4, sqeNsid c.sqe), (8, lba)]
        let d := d.repairWrite c x lba pi
        match tagFault x c.sqe i a r with
        | some k => (d, .error k)
        | none => (d, .ok pi)
      else (d.raiseI c.inst 0xB010 [(4, sqeNsid c.sqe), (8, lba)], .error 1)
    else if !good && bitOf 2 (prChk c.sqe) && !piEscape x a r then (d, .error 1)
    else match tagFault x c.sqe i a r with
      | some k => (d, .error k)
      | none => (d, .ok m)

/-- Check the LBAs of a read and build what it returns: extended LBAs on PRACT 0, data only on PRACT 1 (R369, R374). -/
def Dev.checkLbas (d : Dev) (c : HCmd) (x : Namespace) (ext : Bool) : Nat → Nat → Dev × (Except Nat (List Byte))
  | 0, _ => (d, .ok [])
  | n + 1, i =>
    let data := c.bytes c.key ((sqeSlba c.sqe + i) * x.lba) x.lba
    let (d, r) := if x.md = 0 then (d, .ok []) else d.checkLba c x i
    match r with
    | .error k => (d, .error k)
    | .ok m =>
      let (d, rest) := d.checkLbas c x ext n (i + 1)
      (d, match rest with | .error k => .error k | .ok b => .ok (data ++ (if ext then m else []) ++ b))

/-- All of a read's bytes are there: it completes by its opcode. -/
def Dev.finishRead (d : Dev) (c : HCmd) : Dev :=
  let h := c.handle
  let op := sqeOp c.sqe
  let (key, a, n) := c.span
  let d := if c.reads.isEmpty && c.sources.any (fun s => match s.2.2 with | .slot _ => true | _ => false)
    then d.cnt .HQ_INS_CNT_BUFFER_READS c.inst else d
  if op ∈ [0x02, 0x05, 0x0C] then
    match d.nsOf c with
    | none => d.failCmd h 0 0x0B true none
    | some x =>
      let ext := x.md != 0 && !prAct c.sqe
      let (d, r) := d.checkLbas c x ext (sqeNlb c.sqe) 0
      match r with
      | .error k => d.failPi h k
      | .ok b =>
        if op = 0x02 then (if c.silent then d else d.send (.c2h c.queue (sqeCid c.sqe) b)).succeed h 0 0
        else if op = 0x0C then d.succeed h 0 0
        else if b = c.data.take b.length then d.succeed h 0 0
        else d.failCmd h 2 0x85 true none
  else
    let b := c.head ++ c.bytes key a n
    let b := if op = 0x8A then sliceB 0 c.want b else b.take c.want
    let size := if op = 0x8A then 0 else n
    (if c.silent then d else d.send (.c2h c.queue (sqeCid c.sqe) b)).succeed h size 0

/-- The failure that a block's read statuses give (R253): status code type and code. -/
def readFault (got : List Nat) : Option (Nat × Nat) :=
  if got.contains 5 then some (2, 0x81) else if got.contains 3 then some (7, 0x8B) else if got.contains 4 then some (7, 0x8C) else none

/-- Post the decompression of a read's blocks that are in (codec queue 1), in order, while the queue has room. -/
def Dev.postReads (d : Dev) (c : HCmd) : Nat → List BlockRead → Dev
  | _, [] => d
  | i, r :: rs =>
    let d :=
      if r.posted || !r.need.isEmpty || r.data.isSome then d
      else
        let b : Option (List Byte) := match d.stripe r.stripe with
          | some s => (s.blocks.find? (fun (b : StripeBlock) => b.entry.off == r.entry.off)).map StripeBlock.bytes
          | none => none
        let src := b.getD (zeros 1)
        let desc := jobDesc 1 0 0 0 0 0 0 0 0 src.length 0 0 r.entry.ulen (c.handle % 2 ^ 32) c.inst
        let (d, ok) := d.postJob ⟨1, desc, c.inst, c.gen, .serve c.handle i, some src⟩
        if ok then d.setCmd c.handle (fun c => { c with reads := c.reads.mapIdx (fun j x => if j = i then { x with posted := true } else x) })
        else d
    d.postReads c (i + 1) rs

/-- Carry a read on: fail it, finish it, or post what can be decompressed. -/
def Dev.pumpRead (d : Dev) (h : Nat) : Dev :=
  match d.cmd h with
  | none => d
  | some c =>
    if c.stage ≠ 3 ∨ c.held then d
    else match c.reads.findSome? (fun r => readFault r.got) with
    | some (t, s) => d.failCmd h t s true (some .HQ_INS_CNT_READ_ERRORS)
    | none =>
      if c.reads.all (fun r => r.data.isSome) then d.finishRead c else d.postReads c 0 c.reads

/-- Carry every read on. -/
def Dev.pumpReads (d : Dev) : Dev :=
  (d.hq.cmds.filter (fun c => c.stage == 3 && !c.held && !c.sources.isEmpty)).foldl (fun (d : Dev) c => d.pumpRead c.handle) d

/-- Reads wait for their dies, which may carry out a program or erase (R162). -/
def Dev.suspendReads (d : Dev) (rs : List BlockRead) : Dev :=
  rs.foldl (fun (d : Dev) r => match d.stripe r.stripe with
    | none => d
    | some s => r.need.foldl (fun (d : Dev) n => d.suspendFor (2 * n.1 + sbHalf s.sb) (sbDie s.sb)) d) d

/-- Does a read still wait for a die? -/
def Dev.readsWait (d : Dev) (c k : Nat) : Bool :=
  d.hq.cmds.any (fun x => x.stage == 3 && x.reads.any (fun r => match d.stripe r.stripe with
    | none => false
    | some s => sbHalf s.sb == c % 2 && sbDie s.sb == k && r.need.any (fun n => n.1 == c / 2)))

/-- Start reading a byte range for a released command; `head` goes before the data. -/
def Dev.startRead (d : Dev) (c : HCmd) (x : Namespace) (key a n : Nat) (head : List Byte) (want : Nat) : Dev :=
  let ss := d.resolve key a n x
  let rs := (neededBlocks ss).map d.blockRead
  let d := d.setCmd c.handle (fun c => { c with
    stage := 3, span := (key, a, n), sources := ss, reads := rs, head := head, want := want, held := false })
  let d := d.charge 2 c.inst (d.dieTime ((rs.map (fun r => r.entry.slen)).sum))
  if !rs.isEmpty && d.flashReadDown c.inst then d.refuseCmd c.handle else (d.suspendReads rs).pumpRead c.handle

/-- READ (R249). The opcode names Retrieve on a frame view. -/
def Dev.read (d : Dev) (h : Nat) : Dev :=
  d.onNs h 0x02 2 (fun c x =>
    if x.kind = 2 then d
    else if !c.inRange x then d.failCmd h 0 0x80 true none
    else if 8388608 < sqeNlb c.sqe * x.lba then d.invalidField h
    else
      let (a, n) := c.range x
      d.startRead c x c.key a n [] 0)

/-- COMPARE (table NVM commands): its data come first. -/
def Dev.compare (d : Dev) (h : Nat) : Dev :=
  d.onNs h 0x05 1 (fun c x =>
    if x.kind = 2 then d.failCmd h 0 0x01 true none
    else if !c.inRange x then d.failCmd h 0 0x80 true none
    else if 8388608 < sqeNlb c.sqe * x.lba then d.invalidField h
    else
      let ext := x.md != 0 && !prAct c.sqe
      d.withData c (sqeNlb c.sqe * (x.lba + (if ext then x.md else 0))) (fun c =>
        if c.stage ≠ 2 then d
        else
          let (a, n) := c.range x
          d.startRead c x c.key a n [] 0))

/-- VERIFY (R374): reads, decodes, decompresses and checks guards; transfers no data. -/
def Dev.verify (d : Dev) (h : Nat) : Dev :=
  d.onNs h 0x0C 2 (fun c x =>
    if x.kind = 2 then d.failCmd h 0 0x01 true none
    else if !c.inRange x then d.failCmd h 0 0x80 true none
    else
      let (a, n) := c.range x
      d.startRead c x c.key a n [] 0)

/-- A codeword came with a status: the reads that wait for it go on, and its die may carry on what was suspended (R162,
R249). -/
def Dev.readCame (d : Dev) (s : Stripe) (id pos cw st : Nat) : Dev :=
  let d := { d with hq.cmds := d.hq.cmds.map (fun c : HCmd => { c with
    reads := c.reads.map (fun r : BlockRead => if r.stripe = id ∧ r.need.contains (pos, cw) then
      { r with need := r.need.filter (· != (pos, cw)), got := r.got ++ [st] } else r) }) }
  let c := 2 * pos + sbHalf s.sb
  let k := sbDie s.sb
  ((d.servedRead c k (d.readsWait c k)).pumpReads).settle

/-- FLASH_READ_DONE (R166–R169): a codeword of a stripe's member returns; the reads that need it take its status. -/
def Dev.flashReadDone (d : Dev) (id pos cw : Nat) (erased : Bool) (first second : Ladder) (others : Bool) : Dev :=
  match d.stripe id with
  | none => d
  | some s =>
    if !s.members.contains pos then d
    else
      let r := d.readCodeword s pos cw erased first second others
      r.1.readCame s id pos cw r.2

/-- The decompression of a read's block ends (R136, R254). -/
def Dev.serveJobDone (d : Dev) (h i : Nat) (r : JobResult) : Dev :=
  match d.cmd h with
  | none => d
  | some c =>
    if c.stage ≠ 3 then d
    else if r.status = stDone then
      (d.setCmd h (fun c => { c with reads := c.reads.mapIdx (fun j x => if j = i then { x with data := some r.out } else x) })).pumpRead h
    else
      let sc := if r.status = stBlockCheck then 0x88 else if r.status = stFormat then 0x8A else 0x89
      if r.status = stEngineFault ∨ r.status = stSrcFault then d.failCmd h 0 0x06 false (some .HQ_INS_CNT_READ_ERRORS)
      else d.failCmd h 7 sc true (some .HQ_INS_CNT_READ_ERRORS)

/-- The result of a job goes to its submitter. -/
def Dev.jobReturned (d : Dev) : Option (Job × JobResult) → Dev
  | none => d
  | some (j, r) => match j.purpose with
    | .program => d
    | .drain n id => d.drainJobDone n id j r
    | .hostWrite cseq ns g => d.writeJobDone cseq ns g j r
    | .serve h i => d.serveJobDone h i r

/-- JOB_DISPATCH (R110). -/
def Dev.jobDispatch (d : Dev) : Dev :=
  let (d, r) := d.dispatchJob
  (d.jobReturned r).pumpReads

/-- JOB_COMPLETE (R134). -/
def Dev.jobComplete (d : Dev) (e : Nat) (first second : Option JobFault) (checks : List SelfCheck) : Dev :=
  let (d, r) := d.completeJob e first second checks
  d.jobReturned r

end Sys2Proof.Machine
end

