-- ==== Sys2Proof/Machine/HostAdm.lean ====
section
/-! DEFINITION. Connections, controllers, admission and the admin commands (spec/07_host.md, R225–R246, R251, R255).
Layouts of NVMe commands, pages and properties are those of the NVMe specifications, which the spec names and does not
repeat (notes/assumptions/121). -/
namespace Sys2Proof.Machine

/-! ## Connections, queues and controllers end -/

/-- HQ_CONN shows the connections open. -/
def Dev.showConns (d : Dev) : Dev := d.wr .HQ_CONN d.hq.conns.length

/-- A controller. -/
def Dev.ctrl (d : Dev) (k : Nat) : Option Ctrl := amFind k d.hq.ctrls
/-- Change a controller. -/
def Dev.setCtrl (d : Dev) (k : Nat) (f : Ctrl → Ctrl) : Dev := { d with hq.ctrls := amAdj k f d.hq.ctrls }

/-- The queue of a connection. -/
def Dev.queueOf (d : Dev) (conn : Nat) : Option (Nat × HQueue) := d.hq.queues.find? (fun p => p.2.conn == some conn)
/-- A controller's queue with an identifier. -/
def Dev.queueNamed (d : Dev) (k qid : Nat) : Option (Nat × HQueue) :=
  d.hq.queues.find? (fun p => p.2.ctrl == k && p.2.qid == qid)

/-- What losing its queue does to a command (R255): not released, or a write not yet acknowledged, it is dropped whole;
otherwise it runs to completion and posts nothing. An admin command not yet executed is dropped. -/
def Dev.loseCmd (d : Dev) (c : HCmd) : Dev :=
  let started : Bool := if d.isAdmin c then false else c.stage == 3 || (c.stage == 2 && sqeOp c.sqe != 1)
  if started then d.setCmd c.handle (fun c => { c with silent := true })
  else (d.abandonWrite c).dropCmd c.handle

/-- Lose every command of a queue. -/
def Dev.loseQueue (d : Dev) (q : Nat) : Dev :=
  (d.hq.cmds.filter (fun c => c.queue == q)).foldl (fun (d : Dev) c => d.loseCmd c) d

/-- Forget queues whose owner is gone once none of their commands is left. -/
def Dev.sweepQueues (d : Dev) : Dev :=
  { d with hq.queues := d.hq.queues.filter (fun p : Nat × HQueue =>
      (match p.2.conn with
        | some c => (amFind c d.hq.conns).isSome
        | none => match d.ctrl p.2.ctrl with | some k => k.pf.isSome | none => false) ||
      d.hq.cmds.any (fun c => c.queue == p.1)) }

/-- A connection leaves the table; `close` sends the close. -/
def Dev.dropConn (d : Dev) (c : Nat) (close : Bool) : Dev :=
  let d := if close then d.send (.tcpClose c) else d
  ({ d with hq.conns := amDel c d.hq.conns }).showConns

/-- A controller's registers and features as after a reset. -/
def Ctrl.afterReset (k : Ctrl) : Ctrl :=
  { k with cc := 0, ready := false, shutdown := 0, aers := [], notices := [], arb := 0, aecfg := 0, nq := 128 }

/-- A controller ends: over TCP its connections close and it goes; over PCIe CSTS.RDY is 0 and its queues go. -/
def Dev.endController (d : Dev) (k : Nat) : Dev :=
  match d.ctrl k with
  | none => d
  | some x =>
    let qs := d.hq.queues.filter (fun p => p.2.ctrl == k)
    let d := qs.foldl (fun (d : Dev) p => d.loseQueue p.1) d
    let d := qs.foldl (fun (d : Dev) p => match p.2.conn with
      | some c => if (amFind c d.hq.conns).isSome then d.dropConn c true else d
      | none => d) d
    let d := { d with hq.queues := d.hq.queues.map (fun p : Nat × HQueue => if p.2.ctrl = k then (p.1, { p.2 with conn := none }) else p) }
    let d := if x.pf.isSome then
        let d := d.setCtrl k Ctrl.afterReset
        { d with
          hq.cqs := d.hq.cqs.filter (fun p : Nat × Nat => p.1 / 1024 != k)
          hq.queues := d.hq.queues.filter (fun p : Nat × HQueue => p.2.ctrl != k || d.hq.cmds.any (fun c => c.queue == p.1)) }
      else { d with hq.ctrls := amDel k d.hq.ctrls }
    d.sweepQueues

/-- The controller reset of R255, with its event. -/
def Dev.resetController (d : Dev) (k : Nat) : Dev :=
  match d.ctrl k with
  | none => d
  | some x => (d.raiseI x.inst 0x6040 [(1, x.inst), (2, k)]).endController k

/-- A connection is lost (R255): with the admin queue its association ends; with an I/O queue that queue does. -/
def Dev.loseConn (d : Dev) (c : Nat) (close : Bool) : Dev :=
  match amFind c d.hq.conns with
  | none => d
  | some x => match x.ctrl with
    | none => d.dropConn c close
    | some k =>
      if x.qid = 0 then (d.dropConn c close).resetController k
      else
        let d := match d.queueOf c with
          | some (q, _) => { d.loseQueue q with hq.queues := amAdj q (fun y => { y with conn := none }) (d.loseQueue q).hq.queues }
          | none => d
        (d.dropConn c close).sweepQueues

/-- A transport error ends a connection (R226): C2HTermReq, TRANSPORT_ERRORS, 0x6003. -/
def Dev.terminate (d : Dev) (c fes : Nat) : Dev :=
  match amFind c d.hq.conns with
  | none => d
  | some x =>
    let d := (d.send (.termReq c fes)).cnt .HQ_INS_CNT_TRANSPORT_ERRORS x.inst
    (d.raiseI x.inst 0x6003 [(1, x.inst), (2, c), (2, fes)]).loseConn c true

/-! ## Connections begin -/

/-- Is a port's receive flume to host queueing down (R27)? -/
def Dev.portRxDown (d : Dev) (p : Nat) : Bool := d.pathDown (fun f => f.has 1 p && f.through 0xB)

/-- TCP_SYN (R225, R228): on a port marked for NVMe/TCP, to one of the two listening TCP ports. -/
def Dev.tcpSyn (d : Dev) (p : Nat) (peer : NetAddr) (dport : Nat) : Dev :=
  let io := d.rd .HQ_TCP_PORTS_IO_PORT
  let disc := d.rd .HQ_TCP_PORTS_DISC_PORT
  if !d.laneFlag p 2 ∨ !d.portUp p ∨ (dport ≠ io ∧ dport ≠ disc) then d
  else if d.portRxDown p then d.refuseParcel.send (.tcpReset p peer)
  else if 65536 ≤ d.hq.conns.length then
    ((d.send (.tcpReset p peer)).cnt .HQ_TCP_REFUSED).raise 0x6001 [(2, p), (16, peer.ip)]
  else
    let x : Conn := ⟨p, peer, d.portOwner p, false, false, false, 0, dport != io, none, 0⟩
    ({ d with hq.conns := amPut d.hq.nextConn x d.hq.conns, hq.nextConn := d.hq.nextConn + 1 }).showConns

/-- ICREQ (R225, R226). -/
def Dev.icReq (d : Dev) (c pfv hpda : Nat) (hdgst ddgst : Bool) (maxr2t : Nat) (reserved : Bool) : Dev :=
  match amFind c d.hq.conns with
  | none => d
  | some x =>
    if !d.portUp x.port then d
    else if x.ready then d.terminate c 2
    else if pfv ≠ 0 ∨ 31 < hpda ∨ reserved then d.terminate c 6
    else
      let h : Bool := hdgst && d.rd .HQ_TCP_CFG_HDGST_EN == 1
      let g : Bool := ddgst && d.rd .HQ_TCP_CFG_DDGST_EN == 1
      ({ d with hq.conns := amAdj c (fun y : Conn => { y with ready := true, hdgst := h, ddgst := g, maxr2t := maxr2t }) d.hq.conns }).send
        (.icResp c 0 h g (d.rd .HQ_TCP_CFG_MAXH2C_KIB * 1024))

/-- The well-known NQN of a discovery subsystem. -/
def discoveryNqn : List Byte := ("nqn.2014-08.org.nvmexpress.discovery".toList).map (fun c => BitVec.ofNat 8 c.toNat)

/-- A name without the zeros that fill its field. -/
def trimZeros (bs : List Byte) : List Byte := (bs.reverse.dropWhile (· == 0)).reverse

/-- The instance whose subsystem has a name, among enabled instances. -/
def Dev.nqnOwner (d : Dev) (nqn : List Byte) : Option Nat :=
  (d.hq.nqns.find? (fun p => p.2 == nqn && !nqn.isEmpty && d.insOn p.1)).map (·.1)

/-- Keep-alive timeout of a Connect, in ms (R229). -/
def katoOf (k : Nat) : Option Nat := if k = 0 then some 120000 else if 1000 ≤ k ∧ k ≤ 3600000 then some k else none

/-- Connections of an instance, but for one. -/
def Dev.connsOf (d : Dev) (n but : Nat) : Nat := (d.hq.conns.filter (fun p => p.2.inst == n && p.1 != but)).length

/-- A new controller. -/
def newCtrl (inst : Nat) (pf : Option Nat) (kato now : Nat) (host : List Byte) (disc : Bool) : Ctrl :=
  ⟨inst, pf, kato, now, [], [], host, 0, false, 0, 0, 0, 128, disc⟩

/-- Make a connection a queue of a controller. -/
def Dev.addQueue (d : Dev) (c k inst qid size cls : Nat) : Dev :=
  let q : HQueue := ⟨k, qid, some c, cls, cls, size, 0⟩
  { d with
    hq.queues := amPut d.hq.nextQueue q d.hq.queues
    hq.nextQueue := d.hq.nextQueue + 1
    hq.conns := amAdj c (fun y => { y with ctrl := some k, qid := qid, inst := inst }) d.hq.conns }

/-- CONNECT (R225, R228, R229, R243): an admin queue makes a controller, an I/O queue joins the one it names. -/
def Dev.connect (d : Dev) (c : Nat) (sqe data : List Byte) : Dev :=
  match amFind c d.hq.conns with
  | none => d
  | some x =>
    let cid := sqeCid sqe
    let fail := fun (d : Dev) (sc : Nat) => d.send (.connectFail c cid 1 sc)
    if !x.ready then d.terminate c 2
    else if x.ctrl.isSome then d.terminate c 2
    else
      let qid := bitsOf 31 16 (cdw 10 sqe)
      let size := bitsOf 15 0 (cdw 11 sqe)
      let host := sliceB 0 16 data
      let cntlid := leAt 16 2 data
      let nqn := trimZeros (sliceB 256 256 data)
      let inst : Option Nat := if x.disc then (if nqn = discoveryNqn then some x.inst else none) else d.nqnOwner nqn
      if bitsOf 15 0 (cdw 10 sqe) ≠ 0 then fail d 0x80
      else match inst, katoOf (cdw 12 sqe) with
      | some n, some kato =>
        if d.rd .INS_QUOTA_CONN n ≤ d.connsOf n c then
          ((fail d 0x81).raiseI n 0x6002 [(1, n), (2, x.port)]).loseConn c true
        else if 1023 < size ∨ size = 0 ∨ 128 < qid ∨ (x.disc ∧ qid ≠ 0) then fail d 0x82
        else if qid = 0 then
          if cntlid ≠ 0xFFFF then fail d 0x82
          else
            let k := d.hq.nextCtrl
            let d := { d with hq.ctrls := amPut k (newCtrl n none kato d.now host x.disc) d.hq.ctrls, hq.nextCtrl := k + 1 }
            let q := d.hq.nextQueue
            (d.addQueue c k n 0 size 0).send (.cqe q cid 0 0 false k 0)
        else match d.ctrl cntlid with
        | none => fail d 0x82
        | some y =>
          if y.inst ≠ n ∨ y.pf.isSome ∨ y.host ≠ host ∨ y.nq < qid ∨ (d.queueNamed cntlid qid).isSome then fail d 0x82
          else
            let q := d.hq.nextQueue
            (d.addQueue c cntlid n qid size (d.rd .HQ_INS_CFG_TCP_QPRIO n)).send (.cqe q cid 0 0 false cntlid 0)
      | _, _ => fail d 0x82

/-! ## Commands arrive (R241) -/

/-- A command arrives on a queue: it waits for admission, and counts as held while admission is closed for an activation
(R256). A command on an admin queue restarts its controller's keep-alive timer. -/
def Dev.arrive (d : Dev) (q : Nat) (y : HQueue) (sqe data : List Byte) : Dev :=
  match d.ctrl y.ctrl with
  | none => d
  | some k =>
    let h := d.hq.nextCmd
    let c : HCmd := ⟨h, q, y.ctrl, k.inst, d.gen k.inst, sqe, data, 0, false, 0, 0, false, [], (0, 0, 0), [], [], [], [], false⟩
    let d := { d with hq.cmds := d.hq.cmds ++ [c], hq.nextCmd := h + 1 }
    let d := if y.qid = 0 then d.setCtrl y.ctrl (fun k => { k with lastAdmin := d.now }) else d
    if d.rd .HQ_STATUS_ADMIT_HELD = 1 then d.cnt .HQ_INS_CNT_HELD k.inst else d

/-- A digest that fails its check counts at the port (R367). -/
def Dev.digestBad (d : Dev) (p : Nat) : Dev := d.cnt .CHK_PORT_CNT_DIGEST_BAD p

/-- COMMAND_CAPSULE (R225–R227, R241): a capsule with its in-capsule data is wholly received. -/
def Dev.capsule (d : Dev) (c : Nat) (sqe data : List Byte) (pdu : Pdu) : Dev :=
  match amFind c d.hq.conns with
  | none => d
  | some x =>
    if !d.portUp x.port then d
    else if pdu = .badHeader ∧ x.hdgst then (d.digestBad x.port).terminate c 3
    else if pdu = .outOfSequence ∨ !x.ready then d.terminate c 2
    else match x.ctrl, d.queueOf c with
    | some _, some (q, y) =>
      let h := d.hq.nextCmd
      let d := d.arrive q y sqe data
      let room := if y.qid = 0 then 8192 else d.rd .HQ_TCP_CFG_ICD_KIB * 1024
      if pdu = .badData ∧ x.ddgst then (d.digestBad x.port).failCmd h 0 0x22 false (some .HQ_INS_CNT_TRANSPORT_ERRORS)
      else if room < data.length then d.invalidField h
      else d
    | _, _ =>
      if sqeOp sqe = 0x7F ∧ leAt 4 1 sqe = 1 then d.connect c sqe data
      else d.send (.connectFail c (sqeCid sqe) 0 0x0C)

/-- SQE_FETCH_DONE (R241): the fetch of a PCIe submission queue entry completes. -/
def Dev.sqeFetched (d : Dev) (q : Nat) (sqe : List Byte) : Dev :=
  match amFind q d.hq.queues with
  | none => d
  | some y => match d.ctrl y.ctrl with
    | none => d
    | some k => if k.pf.isSome ∧ k.ready ∧ d.trafficMode ∧ !d.closed then d.arrive q y sqe [] else d

/-- H2C_DATA (R226, R227, R246). -/
def Dev.h2cData (d : Dev) (h off : Nat) (bytes : List Byte) (pdu : Pdu) : Dev :=
  match d.cmd h with
  | none => d
  | some c => match d.connOf c with
    | none => d
    | some (k, x) =>
      if !d.portLinked x.port then d
      else if pdu = .badHeader ∧ x.hdgst then (d.digestBad x.port).terminate k 3
      else if pdu = .outOfSequence ∨ !c.asked ∨ off ≠ c.data.length ∨ c.want < c.data.length + bytes.length then d.terminate k 2
      else if pdu = .badData ∧ x.ddgst then
        (d.digestBad x.port).failWrite h 0 0x22 false (some .HQ_INS_CNT_TRANSPORT_ERRORS)
      else d.dataCame h bytes

/-- PCIE_DATA_FETCH_DONE (R246, R253). -/
def Dev.pcieFetched (d : Dev) (h : Nat) (bytes : Option (List Byte)) : Dev :=
  match d.cmd h with
  | none => d
  | some c =>
    if (d.connOf c).isSome ∨ !c.asked ∨ c.want ≤ c.data.length then d
    else match bytes with
    | none => d.failWrite h 0 0x04 false (some .HQ_INS_CNT_TRANSPORT_ERRORS)
    | some bs => if c.want < c.data.length + bs.length then d else d.dataCame h bs

/-! ## Admission (R242–R246) -/

/-- Keys of the arbiter's round robin. -/
def turnQueue (q : Nat) : Nat := 2 ^ 40 + q
def turnCtrl (k : Nat) : Nat := 2 ^ 41 + k
def turnClass (k cls : Nat) : Nat := 2 ^ 42 + k * 4 + cls

/-- A value of the round robin. -/
def Dev.turn (d : Dev) (k : Nat) : Nat := amGet 0 k d.hq.turn
/-- Set one. -/
def Dev.setTurn (d : Dev) (k v : Nat) : Dev := { d with hq.turn := amSet 0 k v d.hq.turn }

/-- Commands that wait for admission: not those of an instance under reset (R402). -/
def Dev.waitingCmds (d : Dev) : List HCmd := d.hq.cmds.filter (fun c => c.stage == 0 && d.rd .INS_STATUS_RESET_BUSY c.inst == 0)

/-- The queue of a command. -/
def Dev.hqueue (d : Dev) (q : Nat) : HQueue := (amFind q d.hq.queues).getD ⟨0, 0, none, 2, 2, 0, 0⟩

/-- The number with the least key, the lowest among equals. -/
def leastBy (f : Nat → Nat) : List Nat → Option Nat
  | [] => none
  | n :: ns => match leastBy f ns with
    | none => some n
    | some m => if f n < f m ∨ (f n = f m ∧ n < m) then some n else some m

/-- Commands per round of a class: its weight plus 1, from the controller's Arbitration feature (R242). -/
def Ctrl.weight (k : Ctrl) (cls : Nat) : Nat :=
  1 + (match cls with | 1 => bitsOf 31 24 k.arb | 2 => bitsOf 23 16 k.arb | _ => bitsOf 15 8 k.arb)

/-- Arbitration Burst: 2^AB, 7 for no limit. -/
def Ctrl.burst (k : Ctrl) : Nat := if bitsOf 2 0 k.arb = 7 then 2 ^ 32 else 2 ^ bitsOf 2 0 k.arb

/-- Does a class of a controller have its part of the round left? -/
def Dev.classLeft (d : Dev) (k cls : Nat) : Bool :=
  match d.ctrl k with | some x => decide (d.turn (turnClass k cls) < x.weight cls) | none => false

/-- A new round of a controller begins when no waiting class has any of this one left: what was used is forgotten and
changed classes apply (R243). -/
def Dev.newRound (d : Dev) (k : Nat) (work : List HCmd) : Dev :=
  let cs := (work.filter (fun c => c.ctrl == k)).map (fun c => (d.hqueue c.queue).cls)
  if cs.any (fun c => d.classLeft k c) then d
  else
    let d := ((d.setTurn (turnClass k 1) 0).setTurn (turnClass k 2) 0).setTurn (turnClass k 3) 0
    { d with hq.queues := d.hq.queues.map (fun p : Nat × HQueue => if p.2.ctrl = k then (p.1, { p.2 with cls := p.2.clsNext }) else p) }

/-- The queue that the third level serves (R242): the current burst goes on, or the next controller, class and queue. -/
def Dev.wrrPick (d : Dev) (work : List HCmd) : Option Nat :=
  let cur := d.turn 0
  let goes : Bool := cur != 0 && d.turn 1 != 0 && work.any (fun c => c.queue + 1 == cur) &&
    d.classLeft (d.hqueue (cur - 1)).ctrl (d.hqueue (cur - 1)).cls
  if goes then some (cur - 1)
  else
    (leastBy (fun k => d.turn (turnCtrl k)) ((work.map (·.ctrl)).eraseDups)).bind (fun k =>
      let qs := ((work.filter (fun c => c.ctrl == k)).map (·.queue)).eraseDups
      let ok := qs.filter (fun q => d.classLeft k (d.hqueue q).cls)
      let top := if ok.any (fun q => (d.hqueue q).cls == 1) then 1 else if ok.any (fun q => (d.hqueue q).cls == 2) then 2 else 3
      leastBy (fun q => d.turn (turnQueue q)) (ok.filter (fun q => (d.hqueue q).cls == top)))

/-- The queue to serve within an instance (R242). The Boolean says that the third level chose it. -/
def Dev.queuePick (d : Dev) (work : List HCmd) : Option (Nat × Bool) :=
  let admin := work.filter (fun c => (d.hqueue c.queue).qid == 0)
  let urgent := work.filter (fun c => (d.hqueue c.queue).cls == 0)
  let first := fun (cs : List HCmd) => (leastBy (fun q => d.turn (turnQueue q)) ((cs.map (·.queue)).eraseDups)).map (fun q => (q, false))
  if !admin.isEmpty then first admin
  else if !urgent.isEmpty then first urgent
  else (d.wrrPick work).map (fun q => (q, true))

/-- The turn of a queue is taken. -/
def Dev.takeTurn (d : Dev) (q : Nat) (wrr : Bool) : Dev :=
  let t := d.turn 2 + 1
  let d := (d.setTurn 2 t).setTurn (turnQueue q) t
  if !wrr then d
  else
    let y := d.hqueue q
    let left := if d.turn 0 = q + 1 ∧ d.turn 1 ≠ 0 then d.turn 1 else (match d.ctrl y.ctrl with | some k => k.burst | none => 1)
    ((((d.setTurn 0 (q + 1)).setTurn 1 (left - 1)).setTurn (turnCtrl y.ctrl) t).setTurn (turnClass y.ctrl y.cls)
      (d.turn (turnClass y.ctrl y.cls) + 1))

/-- COMMAND_ADMIT (R242, R244, R245): the arbiter's winner enters the tracker, or is refused at its quota or at a full
tracker. Nothing is admitted while an activation holds admission, or in a mode without host traffic. -/
def Dev.admitCmd (d : Dev) : Dev :=
  if d.rd .HQ_STATUS_ADMIT_HELD = 1 ∨ !d.trafficMode then d
  else
    let work := d.waitingCmds
    match d.arbPick 3 ((work.map (·.inst)).eraseDups) with
    | none => d
    | some n =>
      let mine := work.filter (fun c => c.inst == n)
      let low := mine.filter (fun c => (d.hqueue c.queue).qid != 0 && (d.hqueue c.queue).cls != 0)
      let d := ((low.map (·.ctrl)).eraseDups).foldl (fun (d : Dev) k => d.newRound k low) d
      match d.queuePick mine with
      | none => d
      | some (q, wrr) => match mine.find? (fun c => c.queue == q) with
        | none => d
        | some c =>
          let d := (d.takeTurn q wrr).charge 3 n 1
          let held := (d.hq.cmds.filter (fun x => x.inst == n && decide (1 ≤ x.stage))).length
          if d.rd .HQ_INS_CFG_CMD_QUOTA n ≤ held then
            (d.raiseSec n 0x6010 n [(1, n)]).failCmd c.handle 7 0x90 false (some .HQ_INS_CNT_SHARE_REFUSED)
          else if 262144 ≤ d.inflight then
            (d.raiseSec n 0x6011 0 [(1, n)]).failCmd c.handle 0 0x21 false none
          else
            (d.setCmd c.handle (fun c => { c with stage := 1, arrival := d.now })).cnt .HQ_INS_CNT_COMMANDS n

/-! ## Timers, resets and shutdown of controllers (R229, R231, R255) -/

/-- KEEP_ALIVE_TIMEOUT (R229). -/
def Dev.keepAliveTimeout (d : Dev) (k : Nat) : Dev :=
  match d.ctrl k with
  | none => d
  | some x =>
    if x.pf.isSome ∨ d.now < x.lastAdmin + x.kato * 1000000 then d
    else (d.raiseI x.inst 0x6041 [(1, x.inst), (2, k)]).resetController k

/-- The instance that a physical function serves (R39, R48, R49, R230); none where the function is absent. -/
def Dev.pfInst (d : Dev) (pf : Nat) : Option Nat :=
  match d.img.active with
  | none => none
  | some i =>
    if !(d.secRecs 1).any (fun r => leAt 2 1 r == 1 || leAt 2 1 r == 2) then none
    else if i.major * 256 + i.minor < 0x302 then (if pf < 64 ∧ d.insOn pf then some pf else none)
    else match i.secs.find? (fun s => s.type == 1) with
    | some s => let n := leAt pf 1 s.trailer
                if pf < 64 ∧ n ≠ 0xFF ∧ d.insOn n then some n else none
    | none => none

/-- CONTROLLER_ENABLE (R231): CC is written with EN set, and CSTS.RDY becomes 1. Controller numbers below 64 are those
of the physical functions. -/
def Dev.enableController (d : Dev) (pf cc : Nat) : Dev :=
  match d.pfInst pf with
  | none => d
  | some n =>
    if !bitOf 0 cc ∨ !d.trafficMode ∨ d.closed then d
    else match d.ctrl pf with
    | some x =>
      if x.ready then d
      else
        let d := d.setCtrl pf (fun k => { k with cc := cc, ready := true, inst := n, lastAdmin := d.now })
        { d with hq.queues := amPut d.hq.nextQueue (⟨pf, 0, none, 0, 0, 0, 0⟩ : HQueue) d.hq.queues, hq.nextQueue := d.hq.nextQueue + 1 }
    | none =>
      let k : Ctrl := { newCtrl n (some pf) 120000 d.now (leBytes 16 pf) false with cc := cc, ready := true }
      { d with
        hq.ctrls := amPut pf k d.hq.ctrls
        hq.queues := amPut d.hq.nextQueue (⟨pf, 0, none, 0, 0, 0, 0⟩ : HQueue) d.hq.queues
        hq.nextQueue := d.hq.nextQueue + 1 }

/-- NORMAL_SHUTDOWN (R255): CC.SHN is set; CSTS.SHST reads complete once the queues are empty. -/
def Dev.normalShutdown (d : Dev) (k : Nat) : Dev :=
  d.setCtrl k (fun x => { x with cc := x.cc - bitsOf 15 14 x.cc * 16384 + 16384, shutdown := 1 })

/-- CSTS.SHST: 0 normal operation, 1 under way, 2 complete. -/
def Dev.shst (d : Dev) (k : Nat) (x : Ctrl) : Nat :=
  if x.shutdown = 0 then 0
  else if d.hq.cmds.any (fun c => c.ctrl == k && !x.aers.contains c.handle) then 1 else 2

/-! ## Answers -/

/-- A command completes with data for the host. -/
def Dev.answer (d : Dev) (c : HCmd) (bytes : List Byte) (dw0 dw1 : Nat) : Dev :=
  (if c.silent then d else d.send (.c2h c.queue (sqeCid c.sqe) bytes)).succeed c.handle dw0 dw1

/-- Run an admin command with its controller. -/
def Dev.onAdmin (d : Dev) (h op : Nat) (f : HCmd → Ctrl → Dev) : Dev :=
  d.onCmd h true op 2 (fun c => match d.ctrl c.ctrl with | some k => f c k | none => d.dropCmd h)

/-- An asynchronous event for a controller: it completes an outstanding request; one that is to be kept waits otherwise. -/
def Dev.asyncEvent (d : Dev) (k v : Nat) (keep : Bool) : Dev :=
  match d.ctrl k with
  | none => d
  | some x => match x.aers with
    | h :: hs => (d.setCtrl k (fun x => { x with aers := hs })).succeed h v 0
    | [] => if keep ∧ !x.notices.contains v then d.setCtrl k (fun x => { x with notices := x.notices ++ [v] }) else d

/-- A namespace of an instance changed: its controllers list it, with a notice where the host asked for it. -/
def Dev.namespaceChanged (d : Dev) (inst nsid : Nat) : Dev :=
  (d.hq.ctrls.filter (fun p => p.2.inst == inst)).foldl (fun (d : Dev) p =>
    let d := { d with hq.changedNs := amSet [] p.1 ((amGet [] p.1 d.hq.changedNs ++ [nsid]).eraseDups) d.hq.changedNs }
    if bitOf 8 p.2.aecfg then d.asyncEvent p.1 0x040002 true else d) d

/-! ## PCIe queues (R231, R243) -/

/-- CREATE_IO_CQ. -/
def Dev.createCq (d : Dev) (h : Nat) : Dev :=
  d.onAdmin h 0x05 (fun c k =>
    let qid := bitsOf 15 0 (cdw 10 c.sqe)
    let size := bitsOf 31 16 (cdw 10 c.sqe)
    if k.pf.isNone then d.failCmd h 0 0x01 true none
    else if cdw 11 c.sqe / 4 % 2 ^ 14 ≠ 0 then d.invalidField h
    else if qid = 0 ∨ k.nq < qid ∨ (amFind (c.ctrl * 1024 + qid) d.hq.cqs).isSome then d.failCmd h 1 0x01 true none
    else if size = 0 ∨ 1023 < size then d.failCmd h 1 0x02 true none
    else if 128 < bitsOf 31 16 (cdw 11 c.sqe) then d.failCmd h 1 0x08 true none
    else ({ d with hq.cqs := amPut (c.ctrl * 1024 + qid) (size + 1) d.hq.cqs }).succeed h 0 0)

/-- CREATE_IO_SQ: QPRIO gives the class under weighted round robin, else medium (R243). -/
def Dev.createSq (d : Dev) (h : Nat) : Dev :=
  d.onAdmin h 0x01 (fun c k =>
    let qid := bitsOf 15 0 (cdw 10 c.sqe)
    let size := bitsOf 31 16 (cdw 10 c.sqe)
    let cq := bitsOf 31 16 (cdw 11 c.sqe)
    if k.pf.isNone then d.failCmd h 0 0x01 true none
    else if bitsOf 15 3 (cdw 11 c.sqe) ≠ 0 then d.invalidField h
    else if (amFind (c.ctrl * 1024 + cq) d.hq.cqs).isNone then d.failCmd h 1 0x00 true none
    else if qid = 0 ∨ k.nq < qid ∨ (d.queueNamed c.ctrl qid).isSome then d.failCmd h 1 0x01 true none
    else if size = 0 ∨ 1023 < size then d.failCmd h 1 0x02 true none
    else
      let cls := if bitsOf 13 11 k.cc = 1 then bitsOf 2 1 (cdw 11 c.sqe) else 2
      let y : HQueue := ⟨c.ctrl, qid, none, cls, cls, size + 1, cq⟩
      ({ d with hq.queues := amPut d.hq.nextQueue y d.hq.queues, hq.nextQueue := d.hq.nextQueue + 1 }).succeed h 0 0)

/-- A command of a deleted submission queue (R255): aborted with 0h/0x08 unless it is inside an engine, where it runs on
and posts nothing. -/
def Dev.deleteCmd (d : Dev) (c : HCmd) : Dev :=
  if c.stage ≤ 1 ∨ (c.stage = 2 ∧ sqeOp c.sqe = 1) then (d.abandonWrite c).complete c.handle 0 0x08 true 0 0
  else d.setCmd c.handle (fun c => { c with silent := true })

/-- DELETE_IO_SQ. -/
def Dev.deleteSq (d : Dev) (h : Nat) : Dev :=
  d.onAdmin h 0x00 (fun c k =>
    let qid := bitsOf 15 0 (cdw 10 c.sqe)
    if k.pf.isNone then d.failCmd h 0 0x01 true none
    else match d.queueNamed c.ctrl qid with
    | none => d.failCmd h 1 0x01 true none
    | some (q, _) =>
      if qid = 0 then d.failCmd h 1 0x01 true none
      else
        let d := (d.hq.cmds.filter (fun x => x.queue == q)).foldl (fun (d : Dev) x => d.deleteCmd x) d
        let left := d.hq.queues.filter (fun p => p.1 != q || d.hq.cmds.any (fun x => x.queue == q))
        let d := { d with hq.queues := amAdj q (fun y : HQueue => { y with qid := 65536 }) left }
        d.succeed h 0 0)

/-- DELETE_IO_CQ. -/
def Dev.deleteCq (d : Dev) (h : Nat) : Dev :=
  d.onAdmin h 0x04 (fun c k =>
    let qid := bitsOf 15 0 (cdw 10 c.sqe)
    if k.pf.isNone then d.failCmd h 0 0x01 true none
    else if qid = 0 ∨ (amFind (c.ctrl * 1024 + qid) d.hq.cqs).isNone then d.failCmd h 1 0x01 true none
    else if d.hq.queues.any (fun p => p.2.ctrl == c.ctrl && p.2.qid != 0 && p.2.qid != 65536 && p.2.cq == qid) then
      d.failCmd h 1 0x0C true none
    else ({ d with hq.cqs := amDel (c.ctrl * 1024 + qid) d.hq.cqs }).succeed h 0 0)

/-! ## Log pages and Identify (R236, R237) -/

/-- Admin and I/O opcodes that the device supports (tables Admin commands, NVM commands, Vendor commands). -/
def adminOps (pcie : Bool) : List Nat :=
  (if pcie then [0x00, 0x01, 0x04, 0x05] else [0x7F]) ++ [0x02, 0x06, 0x08, 0x09, 0x0A, 0x0C, 0x18, 0xC0, 0xC1, 0xC4]
def ioOps : List Nat := [0x00, 0x01, 0x02, 0x05, 0x08, 0x09, 0x0C, 0x0D, 0x0E, 0x11, 0x15, 0x81, 0x82, 0x85, 0x86, 0x87, 0x8A]
def kvOps : List Nat := [0x00, 0x01, 0x02, 0x06, 0x10, 0x14]

/-- The Commands Supported and Effects page: CSUPP of each opcode as the tables say, the other bits of a supported opcode
free. -/
def effectsPage (pcie : Bool) (freeBytes : List Byte) : List Byte :=
  let entry := fun (ops : List Nat) (op : Nat) =>
    if ops.contains op then
      let b := sliceB (4 * op) 4 freeBytes
      putAt 0 [BitVec.ofNat 8 ((ofLe (b.take 1)) / 2 * 2 + 1)] b
    else zeros 4
  (List.range 256).flatMap (entry (adminOps pcie)) ++ (List.range 256).flatMap (entry (ioOps ++ kvOps)) ++ zeros 2048

/-- GET_LOG_PAGE (R237). The pages' bytes that the spec does not give are free. -/
def Dev.getLogPage (d : Dev) (h : Nat) : Dev :=
  d.onAdmin h 0x02 (fun c k =>
    let lid := bitsOf 7 0 (cdw 10 c.sqe)
    let n := (bitsOf 31 16 (cdw 10 c.sqe) + 65536 * bitsOf 15 0 (cdw 11 c.sqe) + 1) * 4
    let off := leAt 48 8 c.sqe
    let ids := if k.disc then [0x70] else [0x01, 0x02, 0x03, 0x04, 0x05, 0x80]
    if !ids.contains lid then d.failCmd h 1 0x09 true none
    else if off % 4 ≠ 0 ∨ 1048576 < n then d.invalidField h
    else match lid with
    | 0x04 =>
      let l := amGet [] c.ctrl d.hq.changedNs
      let page := if 1024 < l.length then leBytes 4 0xFFFFFFFF ++ zeros 4092 else sliceB 0 4096 (l.flatMap (leBytes 4))
      let d := if bitOf 15 (cdw 10 c.sqe) then d else { d with hq.changedNs := amDel c.ctrl d.hq.changedNs }
      d.answer c (sliceB off n page) 0 0
    | 0x05 =>
      let (fb, d) := d.drawBytes 1024
      d.answer c (sliceB off n (effectsPage k.pf.isSome fb)) 0 0
    | _ =>
      let (fb, d) := d.drawBytes n
      d.answer c fb 0 0)

/-- Put fields (offset, bytes) into a structure. -/
def putAll : List (Nat × List Byte) → List Byte → List Byte
  | [], b => b
  | (o, x) :: fs, b => putAll fs (putAt o x b)

/-- Identify Controller (R236): 4,096 bytes, those the spec does not give free. -/
def Dev.identifyCtrl (d : Dev) (n : Nat) (x : Ctrl) (fb : List Byte) : List Byte :=
  putAll [(77, [11]), (78, leBytes 2 n), (259, [7]), (522, leBytes 2 0), (528, leBytes 2 255),
    (768, sliceB 0 256 (if x.disc then discoveryNqn else amGet [] x.inst d.hq.nqns))] fb

/-- The LBA format entries of the table LBA formats. -/
def lbaFormats : List Byte :=
  [(0, 12), (0, 9), (8, 12), (16, 12), (8, 9)].flatMap (fun (p : Nat × Nat) => leBytes 2 p.1 ++ leBytes 1 p.2 ++ zeros 1)

/-- Identify Namespace (R235, R236): sizes, formats, extended metadata only, protection types 1 and 3, NAWUPF for 1 MiB,
NABSPF 0, deallocated blocks read as zeros, and a volatile write cache by PACK. -/
def identifyNs (x : Namespace) (fb : List Byte) : List Byte :=
  let nsfeat := ofLe (sliceB 24 1 fb)
  let feat := nsfeat - b2n (bitOf 1 nsfeat) * 2 - b2n (bitOf 5 nsfeat) * 32 + 2 + (if x.pack then 0 else 32)
  putAll [(0, leBytes 8 x.sizeLbas), (8, leBytes 8 x.sizeLbas), (24, leBytes 1 feat), (25, [4]),
    (26, leBytes 1 (x.lbaf + (if x.md = 0 then 0 else 16))), (27, [1]), (28, [5]),
    (29, leBytes 1 (if x.md = 0 then 0 else x.piType)), (33, [1]), (36, leBytes 2 (1048576 / x.lba - 1)),
    (44, leBytes 2 0), (128, lbaFormats)] fb

/-- Namespace identifiers that an instance's controllers see, rising. -/
def Dev.nsidsOf (d : Dev) (inst : Nat) : List Nat :=
  (d.hq.ns.filter (fun p => p.1 / 65536 == inst && decide (p.1 % 65536 < 32768 ∧ p.2.kind ≤ 2))).map (fun p => p.1 % 65536)

/-- IDENTIFY (R235, R236): CNS 0 to 3. -/
def Dev.identify (d : Dev) (h : Nat) : Dev :=
  d.onAdmin h 0x06 (fun c k =>
    let cns := bitsOf 7 0 (cdw 10 c.sqe)
    let ns := if k.disc then none else d.nsOf c
    let bad : Bool := match ns with | none => true | some x => decide (2 < x.kind)
    match cns with
    | 0 =>
      if k.disc then d.invalidField h
      else if sqeNsid c.sqe = 0xFFFFFFFF then let (fb, d) := d.drawBytes 4096; d.answer c fb 0 0
      else match ns with
      | none => d.failCmd h 0 0x0B true none
      | some x =>
        if bad then d.failCmd h 0 0x0B true none
        else let (fb, d) := d.drawBytes 4096; d.answer c (identifyNs x fb) 0 0
    | 1 => let (fb, d) := d.drawBytes 4096; d.answer c (d.identifyCtrl c.ctrl k fb) 0 0
    | 2 =>
      if k.disc ∨ 0xFFFFFFFE ≤ sqeNsid c.sqe then d.invalidField h
      else
        let l := ((d.nsidsOf k.inst).filter (fun n => decide (sqeNsid c.sqe < n))).take 1024
        d.answer c (sliceB 0 4096 (l.flatMap (leBytes 4))) 0 0
    | 3 =>
      if bad then d.failCmd h 0 0x0B true none
      else let (fb, d) := d.drawBytes 4096; d.answer c fb 0 0
    | _ => d.invalidField h)

/-! ## Abort, features, properties (R225, R229, R242, R243, R251) -/

/-- ABORT (R251). -/
def Dev.abort (d : Dev) (h : Nat) : Dev :=
  d.onAdmin h 0x08 (fun c _ =>
    let sqid := bitsOf 15 0 (cdw 10 c.sqe)
    let cid := bitsOf 31 16 (cdw 10 c.sqe)
    match d.hq.cmds.find? (fun x => x.ctrl == c.ctrl && (d.hqueue x.queue).qid == sqid && sqeCid x.sqe == cid && decide (x.stage ≤ 1)) with
    | none => d.succeed h 1 0
    | some x => ((d.abandonWrite x).complete x.handle 0 0x07 true 0 0).succeed h 0 0)

/-- SET_FEATURES (R229, R242, R243). No feature is saveable. -/
def Dev.setFeatures (d : Dev) (h : Nat) : Dev :=
  d.onAdmin h 0x09 (fun c _ =>
    let w := cdw 11 c.sqe
    let fid := bitsOf 7 0 (cdw 10 c.sqe)
    if !([0x01, 0x07, 0x0B, 0x0F, 0xC0] : List Nat).contains fid then d.invalidField h
    else if bitOf 31 (cdw 10 c.sqe) then d.failCmd h 1 0x0D true none
    else match fid with
    | 0x01 => if bitsOf 7 3 w ≠ 0 then d.invalidField h else (d.setCtrl c.ctrl (fun k => { k with arb := w })).succeed h 0 0
    | 0x07 =>
      let a := bitsOf 15 0 w
      let b := bitsOf 31 16 w
      if a = 65535 ∨ b = 65535 then d.invalidField h
      else
        let g := min 127 (min a b)
        (d.setCtrl c.ctrl (fun k => { k with nq := g + 1 })).succeed h (g + 65536 * g) 0
    | 0x0B => (d.setCtrl c.ctrl (fun k => { k with aecfg := w })).succeed h 0 0
    | 0x0F => (match katoOf w with
      | some t => (d.setCtrl c.ctrl (fun k => { k with kato := t })).succeed h 0 0
      | none => d.invalidField h)
    | _ =>
      if bitsOf 31 18 w ≠ 0 then d.invalidField h
      else match d.queueNamed c.ctrl (bitsOf 15 0 w) with
      | none => d.invalidField h
      | some (q, y) =>
        if y.qid = 0 then d.invalidField h
        else ({ d with hq.queues := amAdj q (fun y => { y with clsNext := bitsOf 17 16 w }) d.hq.queues }).succeed h 0 0)

/-- GET_FEATURES: SEL 0 the current value; the other selections, whose values the spec does not give, are free. -/
def Dev.getFeatures (d : Dev) (h : Nat) : Dev :=
  d.onAdmin h 0x0A (fun c k =>
    let fid := bitsOf 7 0 (cdw 10 c.sqe)
    let sel := bitsOf 10 8 (cdw 10 c.sqe)
    if !([0x01, 0x07, 0x0B, 0x0F, 0xC0] : List Nat).contains fid ∨ 3 < sel then d.invalidField h
    else if sel ≠ 0 then let (v, d) := d.draw 32; d.succeed h v 0
    else match fid with
    | 0x01 => d.succeed h k.arb 0
    | 0x07 => d.succeed h ((k.nq - 1) + 65536 * (k.nq - 1)) 0
    | 0x0B => d.succeed h k.aecfg 0
    | 0x0F => d.succeed h k.kato 0
    | _ => match d.queueNamed c.ctrl (bitsOf 15 0 (cdw 11 c.sqe)) with
      | none => d.invalidField h
      | some (_, y) => if y.qid = 0 then d.invalidField h else d.succeed h (y.qid + 65536 * y.clsNext) 0)

/-- ASYNC_EVENT_REQUEST: up to 8 outstanding per controller. -/
def Dev.asyncRequest (d : Dev) (h : Nat) : Dev :=
  d.onAdmin h 0x0C (fun c k =>
    if 8 ≤ k.aers.length then d.failCmd h 1 0x05 true none
    else match k.notices with
    | v :: vs => (d.setCtrl c.ctrl (fun k => { k with notices := vs })).succeed h v 0
    | [] => (d.setCtrl c.ctrl (fun k => { k with aers := k.aers ++ [h] })).setCmd h (fun c => { c with stage := 3, held := true }))

/-- KEEP_ALIVE (R229): its arrival has restarted the timer. -/
def Dev.keepAlive (d : Dev) (h : Nat) : Dev := d.onAdmin h 0x18 (fun _ _ => d.succeed h 0 0)

/-- Run a Fabrics command of a type. -/
def Dev.onFabrics (d : Dev) (h type : Nat) (f : HCmd → Ctrl → Dev) : Dev :=
  match d.cmd h with
  | none => d
  | some c =>
    if leAt 4 1 c.sqe ≠ type then d
    else d.onAdmin h 0x7F (fun c k => if k.pf.isSome then d.failCmd h 0 0x01 true none else f c k)

/-- PROPERTY_GET (R225, R231): CAP, VS, CC and CSTS; bits that the spec does not give are free. -/
def Dev.propertyGet (d : Dev) (h : Nat) : Dev :=
  d.onFabrics h 0x04 (fun c k =>
    match bitsOf 2 0 (leAt 40 1 c.sqe), leAt 44 4 c.sqe with
    | 1, 0x00 =>
      let (v, d) := d.draw 64
      let lo := v % 2 ^ 32
      let ams := lo / 2 ^ 17 % 4
      let lo := lo - lo % 65536 + 1023 - ams * 2 ^ 17 + (ams / 2 * 2 + 1) * 2 ^ 17
      let lo := lo % 2 ^ 24 + 2 * 2 ^ 24
      d.succeed h lo (v / 2 ^ 32)
    | 0, 0x08 => let (v, d) := d.draw 32; d.succeed h v 0
    | 0, 0x14 => d.succeed h k.cc 0
    | 0, 0x1C => d.succeed h (b2n k.ready + 4 * d.shst c.ctrl k) 0
    | _, _ => d.invalidField h)

/-- PROPERTY_SET (R225, R255): Controller Configuration. Clearing EN is the controller reset; SHN asks for shutdown. -/
def Dev.propertySet (d : Dev) (h : Nat) : Dev :=
  d.onFabrics h 0x00 (fun c k =>
    let v := leAt 48 4 c.sqe
    if bitsOf 2 0 (leAt 40 1 c.sqe) ≠ 0 ∨ leAt 44 4 c.sqe ≠ 0x14 then d.invalidField h
    else if bitOf 0 k.cc ∧ !bitOf 0 v then (d.succeed h 0 0).resetController c.ctrl
    else
      let d := d.setCtrl c.ctrl (fun k => { k with cc := v, ready := bitOf 0 v })
      (if bitsOf 15 14 v ≠ 0 then d.setCtrl c.ctrl (fun k => { k with shutdown := 1 }) else d).succeed h 0 0)

/-- Is an opcode supported on a command's queue and namespace? -/
def Dev.supported (d : Dev) (c : HCmd) : Bool :=
  let op := sqeOp c.sqe
  if d.isAdmin c then
    let pcie : Bool := match d.ctrl c.ctrl with | some k => k.pf.isSome | none => false
    (adminOps pcie).contains op && (op != 0x7F || ([0x00, 0x01, 0x04] : List Nat).contains (leAt 4 1 c.sqe))
  else if ([0x81, 0x82, 0x85, 0x86, 0x87, 0x8A] : List Nat).contains op then true
  else match d.nsOf c with
  | some x => if x.kind = 2 then kvOps.contains op else ioOps.contains op
  | none => ioOps.contains op || kvOps.contains op

/-- UNSUPPORTED_OPCODE (R232, R239): Invalid Command Opcode. -/
def Dev.unsupported (d : Dev) (h : Nat) : Dev :=
  match d.cmd h with
  | none => d
  | some c => if c.stage ≠ 2 ∨ d.supported c then d else d.failCmd h 0 0x01 true none

/-! ## Reservations (R237) -/

/-- The reservation state of a namespace. -/
def Dev.resvOf (d : Dev) (key : Nat) : Reservation := (amFind key d.hq.resv).getD ⟨0, [], none⟩

/-- The key that a host has registered. -/
def Reservation.keyOf (r : Reservation) (host : List Byte) : Option Nat := (r.regs.find? (fun p => p.1 == host)).map (·.2)

/-- Run a reservation command on a namespace that is no frame view, once its data are there. -/
def Dev.onResv (d : Dev) (h op n : Nat) (f : HCmd → Reservation → Dev) : Dev :=
  d.onNs h op 1 (fun c x =>
    if x.kind = 2 then d.failCmd h 0 0x01 true none
    else d.withData c n (fun c => if c.stage ≠ 2 then d else f c (d.resvOf c.key)))

/-- Store a reservation state and complete. -/
def Dev.putResv (d : Dev) (c : HCmd) (r : Reservation) : Dev :=
  ({ d with hq.resv := amPut c.key r d.hq.resv }).succeed c.handle 0 0

/-- RESERVATION_REGISTER: register, unregister or replace a key. -/
def Dev.resvRegister (d : Dev) (h : Nat) : Dev :=
  d.onResv h 0x0D 16 (fun c r =>
    let act := bitsOf 2 0 (cdw 10 c.sqe)
    let iekey := bitOf 3 (cdw 10 c.sqe)
    let host := d.hostOf c
    let cr := leAt 0 8 c.data
    let nr := leAt 8 8 c.data
    let others := r.regs.filter (fun p => p.1 != host)
    if 2 < act ∨ bitsOf 29 4 (cdw 10 c.sqe) ≠ 0 then d.invalidField h
    else match act, r.keyOf host with
    | 0, none => d.putResv c { r with gen := r.gen + 1, regs := r.regs ++ [(host, nr)] }
    | 0, some k => if k = nr then d.putResv c r else d.failCmd h 0 0x83 true none
    | 1, some k =>
      if !iekey ∧ k ≠ cr then d.failCmd h 0 0x83 true none
      else d.putResv c ⟨r.gen + 1, others, if r.holder = some host then none else r.holder⟩
    | 2, some k =>
      if !iekey ∧ k ≠ cr then d.failCmd h 0 0x83 true none
      else d.putResv c { r with gen := r.gen + 1, regs := others ++ [(host, nr)] }
    | 2, none => if iekey then d.putResv c { r with gen := r.gen + 1, regs := others ++ [(host, nr)] } else d.failCmd h 0 0x83 true none
    | _, _ => d.failCmd h 0 0x83 true none)

/-- RESERVATION_REPORT: the generation, the type and the registrants. -/
def Dev.resvReport (d : Dev) (h : Nat) : Dev :=
  d.onNs h 0x0E 2 (fun c x =>
    if x.kind = 2 then d.failCmd h 0 0x01 true none
    else
      let r := d.resvOf c.key
      let n := (cdw 10 c.sqe + 1) * 4
      let eds := bitOf 0 (cdw 11 c.sqe)
      let entry := fun (p : List Byte × Nat) =>
        let head := leBytes 2 0xFFFF ++ leBytes 1 (b2n (r.holder == some p.1)) ++ zeros 5
        if eds then head ++ leBytes 8 p.2 ++ sliceB 0 16 p.1 ++ zeros 32 else head ++ sliceB 0 8 p.1 ++ leBytes 8 p.2
      let page := leBytes 4 r.gen ++ leBytes 1 (b2n r.holder.isSome) ++ leBytes 2 r.regs.length ++ zeros (if eds then 57 else 17) ++
        r.regs.flatMap entry
      if cdw 11 c.sqe / 2 ≠ 0 ∨ 1048576 < n then d.invalidField h else d.answer c (sliceB 0 n page) 0 0)

/-- Commands of hosts that lost their registration are aborted by a preempt and abort, unless released. -/
def Dev.abortHosts (d : Dev) (key : Nat) (hosts : List (List Byte)) : Dev :=
  (d.hq.cmds.filter (fun x => x.key == key && decide (x.stage ≤ 1) && !d.isAdmin x && hosts.contains (d.hostOf x))).foldl
    (fun (d : Dev) x => (d.abandonWrite x).complete x.handle 0 0x07 true 0 0) d

/-- RESERVATION_ACQUIRE: Write Exclusive only. -/
def Dev.resvAcquire (d : Dev) (h : Nat) : Dev :=
  d.onResv h 0x11 16 (fun c r =>
    let act := bitsOf 2 0 (cdw 10 c.sqe)
    let host := d.hostOf c
    let cr := leAt 0 8 c.data
    let pr := leAt 8 8 c.data
    if 2 < act ∨ bitsOf 7 3 (cdw 10 c.sqe) ≠ 0 ∨ bitsOf 31 16 (cdw 10 c.sqe) ≠ 0 ∨ bitsOf 15 8 (cdw 10 c.sqe) ≠ 1 then d.invalidField h
    else match r.keyOf host with
    | none => d.failCmd h 0 0x83 true none
    | some k =>
      if k ≠ cr then d.failCmd h 0 0x83 true none
      else if act = 0 then
        (match r.holder with
          | none => d.putResv c { r with holder := some host }
          | some x => if x = host then d.putResv c r else d.failCmd h 0 0x83 true none)
      else
        let gone := (r.regs.filter (fun p => p.2 == pr && p.1 != host)).map (·.1)
        let took : Bool := match r.holder with | some x => r.keyOf x == some pr | none => false
        if gone.isEmpty && !took then d.failCmd h 0 0x83 true none
        else
          let d := if act = 2 then d.abortHosts c.key gone else d
          d.putResv c ⟨r.gen + 1, r.regs.filter (fun p => !gone.contains p.1), if took then some host else r.holder⟩)

/-- RESERVATION_RELEASE: release or clear. -/
def Dev.resvRelease (d : Dev) (h : Nat) : Dev :=
  d.onResv h 0x15 8 (fun c r =>
    let act := bitsOf 2 0 (cdw 10 c.sqe)
    let host := d.hostOf c
    if 1 < act ∨ bitsOf 7 3 (cdw 10 c.sqe) ≠ 0 ∨ bitsOf 31 16 (cdw 10 c.sqe) ≠ 0 ∨ (act = 0 ∧ bitsOf 15 8 (cdw 10 c.sqe) ≠ 1) then
      d.invalidField h
    else match r.keyOf host with
    | none => d.failCmd h 0 0x83 true none
    | some k =>
      if k ≠ leAt 0 8 c.data then d.failCmd h 0 0x83 true none
      else if act = 0 then d.putResv c (if r.holder = some host then { r with holder := none } else r)
      else d.putResv c ⟨r.gen + 1, [], none⟩)

/-! ## Key Value commands on frame views (R238) -/

/-- The key of a catalog record: STREAM, FRAME_TIME and FRAME, big-endian, then two zeros. -/
def kvKey (r : List Byte) : List Byte := beBytes 2 (leAt 12 2 r) ++ beBytes 8 (leAt 0 8 r) ++ beBytes 4 (leAt 8 4 r) ++ zeros 2

/-- The key a Key Value command gives. -/
def sqeKey (sqe : List Byte) : List Byte := sliceB 8 8 sqe ++ sliceB 56 8 sqe

/-- Catalog records of the frames that a view presents. -/
def Dev.viewRecs (d : Dev) (c : HCmd) (x : Namespace) : List (List Byte) :=
  (amGet [] c.inst d.cap.catalog).filter (fun r => leAt 40 4 r == x.view % 65536)

/-- Run a Key Value command on a frame view, after the check of its key length. -/
def Dev.onView (d : Dev) (h op stage : Nat) (f : HCmd → Namespace → Dev) : Dev :=
  d.onNs h op stage (fun c x =>
    if x.kind ≠ 2 then d
    else if bitsOf 7 0 (cdw 11 c.sqe) ≠ 16 then d.failCmd h 0 0x86 true none
    else f c x)

/-- RETRIEVE: the value from its first byte, up to the host buffer's length; the full size in DW0. -/
def Dev.retrieve (d : Dev) (h : Nat) : Dev :=
  d.onView h 0x02 2 (fun c x =>
    match (d.viewRecs c x).find? (fun r => kvKey r == sqeKey c.sqe) with
    | none => d.failCmd h 0 0x87 true none
    | some r => match d.nspace (nsKey c.inst x.view) with
      | none => d.failCmd h 0 0x87 true none
      | some y => d.startRead c { y with lbaf := 0 } (nsKey c.inst x.view) (leAt 32 8 r * 4096) (leAt 48 4 r) [] (cdw 10 c.sqe))

/-- EXIST. -/
def Dev.exist (d : Dev) (h : Nat) : Dev :=
  d.onView h 0x14 2 (fun c x =>
    if (d.viewRecs c x).any (fun r => kvKey r == sqeKey c.sqe) then d.succeed h 0 0 else d.failCmd h 0 0x87 true none)

/-- Keys in rising order, each once. -/
def insertKey (k : Nat) : List Nat → List Nat
  | [] => [k]
  | x :: xs => if k < x then k :: x :: xs else if k = x then x :: xs else x :: insertKey k xs

/-- LIST: the keys from the given one, rising, as many as the host buffer holds. -/
def Dev.list (d : Dev) (h : Nat) : Dev :=
  d.onView h 0x06 2 (fun c x =>
    let from_ := ofBe (sqeKey c.sqe)
    let ks := ((d.viewRecs c x).map (fun r => ofBe (kvKey r))).foldl (fun l k => insertKey k l) []
    let room := (cdw 10 c.sqe - 4) / 20
    let ks := (ks.filter (fun k => decide (from_ ≤ k))).take room
    d.answer c (leBytes 4 ks.length ++ ks.flatMap (fun k => leBytes 2 16 ++ beBytes 16 k ++ zeros 2)) 0 0)

/-- STORE and DELETE: Namespace is Write Protected. -/
def Dev.viewWrite (d : Dev) (h op : Nat) : Dev :=
  d.onNs h op 1 (fun _ x => if x.kind ≠ 2 then d else d.failCmd h 0 0x20 true none)

/-! ## Instance reset (R255, R402) -/

/-- What an instance reset does to its host commands and controllers: unreleased commands complete with 0h/0x08, the
others are fenced without completion, and its controllers end. -/
def Dev.hostInstanceReset (d : Dev) (n : Nat) : Dev :=
  let cs := d.hq.cmds.filter (fun c => c.inst == n)
  let d := cs.foldl (fun (d : Dev) c =>
    if c.stage ≤ 1 then ((d.cnt .HQ_INS_CNT_ABORTED_RESET n).abandonWrite c).complete c.handle 0 0x08 true 0 0
    else (d.abandonWrite c).dropCmd c.handle) d
  let d := (d.hq.ctrls.filter (fun p => p.2.inst == n)).foldl (fun (d : Dev) p => d.endController p.1) d
  let d := (d.hq.conns.filter (fun p => p.2.inst == n && p.2.ctrl.isNone)).foldl (fun (d : Dev) p => d.dropConn p.1 true) d
  d.showLimited

/-- Every connection and link goes down and every command is lost (R255: warm, cold and power-on reset, Hold-up). -/
def Dev.hostLost (d : Dev) : Dev :=
  ({ d with hq.cmds := [], hq.conns := [], hq.queues := [], hq.cqs := [], hq.turn := [], hq.changedNs := []
            hq.ctrls := [] }).showConns

end Sys2Proof.Machine
end

