-- ==== Sys2Proof/Machine/Kfsp.lean ====
section
/-! DEFINITION. Cameras: KFSP sessions and streams, data packets and the assembly of frames, Ethernet frames, trigger
pins (spec/03_capture.md R67–R83, spec/08_gecko.md R261–R263, spec/16_electrical.md R472). -/
namespace Sys2Proof.Machine

/-! ## Control messages (R70, R74–R77) -/

/-- A control message is well-formed up to its body (R75): trailer, TYPE, LENGTH, reserved header field. -/
def Dev.ctrlOk (d : Dev) (p : Nat) (bs : List Byte) : Bool :=
  let len := beAt 6 2 bs
  decide (20 ≤ bs.length) && len + 20 == bs.length && beAt 12 4 bs == 0 &&
  (!d.laneFlag p 0 || beAt (16 + len) 4 bs == crc32c (bs.take (16 + len)))

/-- A dropped control message (R75). -/
def Dev.dropCtrl (d : Dev) : Dev := d.cnt .CAP_CTRL_DROP

/-- A control message of the device: header, body, trailer (R70, R368). -/
def Dev.ctrlMsg (d : Dev) (p ver type seq stream session : Nat) (body : List Byte) : List Byte :=
  let m := beBytes 1 ver ++ beBytes 1 type ++ beBytes 2 seq ++ beBytes 2 stream ++ beBytes 2 body.length ++
    beBytes 4 session ++ zeros 4 ++ body
  m ++ (if d.laneFlag p 1 then beBytes 4 (crc32c m) else zeros 4)

/-- Send a control message to a camera. -/
def Dev.sendCtrl (d : Dev) (p : Nat) (dst : NetAddr) (m : List Byte) : Dev := (d.send (.kfsp p dst m)).sent p m.length

/-- The session of a source address and UDP port. -/
def Dev.sessionOf (d : Dev) (p : Nat) (a : NetAddr) : Option Session :=
  d.cap.sessions.find? (fun s => s.port == p && s.src.v6 == a.v6 && s.src.ip == a.ip && s.src.l4 == a.l4)

/-- A CLOSE from the device; the SEQ is the device's to choose. -/
def Dev.sendClose (d : Dev) (n : Nat) (x : Stream) (reason : Nat) : Dev :=
  let (seq, d) := d.draw 16
  d.sendCtrl x.port x.src
    (d.ctrlMsg x.port (d.rd .CAP_STREAM_CFG_VERSION n) 0x25 seq n x.session (beBytes 1 reason ++ zeros 3))

/-- A stream leaves its windows: a standing window closes, and no later frame joins any (R96, R101). -/
def Dev.leaveWindows (d : Dev) (n : Nat) : Dev := d.endParts n (fun _ => true) (d.cap.windows.map (·.id))

/-- Unbind stream `n` (R86): the reason is the CLOSE reason of 0x2102. -/
def Dev.unbind (d : Dev) (n reason : Nat) : Dev :=
  match d.stream n with
  | none => d
  | some x =>
    if !x.bound then d
    else
      let inst := d.streamOwner n
      let d := d.leaveWindows n
      let d := d.endFull n
      let d := d.modStream n (fun x => { x with
        bound := false, frames := x.frames.filter (fun f => decide (3 ≤ f.state ∧ f.state ≤ 4)), standing := none, thumbLen := 0 })
      let d := (d.wr .CAP_STREAM_CFG_STATE 0 n).wr .CAP_STATUS_STREAMS_BOUND (d.rd .CAP_STATUS_STREAMS_BOUND - 1)
      let d := { d with chk.alive := amDel n d.chk.alive }
      let d := d.raiseI inst 0x2102 [(2, n), (2, reason)]
      (d.settleRegion x.region).forgetStream n

/-- Unbind the streams of a session that a new HELLO replaces: their frames in progress are committed with reason 5
(R76). -/
def Dev.replaceSession (d : Dev) (s : Session) : Dev :=
  let ns := (d.cap.streams.filter (fun p => p.2.bound && p.2.session == s.id)).map (·.1)
  let d := ns.foldl (fun d n => (d.commitAll n 5 true).unbind n 5) d
  { d with cap.sessions := d.cap.sessions.filter (fun t => t.id != s.id) }

/-- The highest common version (R74), from MIN_VER and MAX_VER as version bytes. -/
def commonVersion (lo hi : Nat) : Option Nat := [0x13, 0x12, 0x11, 0x10].find? (fun v => decide (lo ≤ v ∧ v ≤ hi))

/-- Options a version defines: NAK replay from 1.1, raw Ethernet from 1.2, camera trigger from 1.3. -/
def grantedOpts (ver opts : Nat) : Nat :=
  (if 0x11 ≤ ver then opts % 2 else 0) + (if 0x12 ≤ ver then opts / 2 % 2 * 2 else 0) +
  (if 0x13 ≤ ver then opts / 4 % 2 * 4 else 0)

/-- A KFSP control message arrives on a port. -/
def Dev.control (d : Dev) (y : Arrival) (bs : List Byte) (f : Dev → Dev) : Dev :=
  let r := d.receive y bs
  if r.2 then f r.1 else r.1

/-- HELLO (R74–R76). -/
def Dev.hello (d : Dev) (p : Nat) (a : NetAddr) (bs : List Byte) : Dev :=
  if !d.laneFlag p 3 || !d.portUp p then d
  else
    let lo := beAt 16 1 bs
    let hi := beAt 17 1 bs
    let opts := beAt 18 2 bs
    if !d.ctrlOk p bs || beAt 1 1 bs != 0x20 || beAt 6 2 bs != 16 || beAt 4 2 bs != 0xFFFF || beAt 8 4 bs != 0 ||
        decide (7 < opts) || beAt 0 1 bs != hi then d.dropCtrl
    else
      let seq := beAt 2 2 bs
      let answer := fun (d : Dev) (ver res granted sid : Nat) =>
        d.sendCtrl p a (d.ctrlMsg p ver 0x21 seq 0xFFFF sid (beBytes 1 ver ++ beBytes 1 res ++ beBytes 2 granted ++ zeros 4))
      match (d.sessionOf p a).bind (fun s => if s.helloSeq = seq then some s else none) with
      | some s => answer d s.ver 0 s.opts s.id
      | none =>
        match commonVersion lo hi with
        | none =>
          let (v, d) := d.draw 8
          answer d v 1 0 0
        | some v =>
          let d := (d.cap.sessions.filter (fun t => t.port == p && t.src.v6 == a.v6 && t.src.ip == a.ip)).foldl
            (fun d t => d.replaceSession t) d
          let sid := d.cap.nextSession + 1
          let ns : Session := ⟨sid, p, a, v, grantedOpts v opts, beAt 20 4 bs, seq, []⟩
          let d := { d with cap.sessions := d.cap.sessions ++ [ns], cap.nextSession := sid }
          answer d v 0 (grantedOpts v opts) sid

/-- Headers that PAYLOAD_UNIT must leave room for (R491). -/
def kfspHeaders (raw v6 : Bool) : Nat := 14 + 4 + 4 + 32 + 4 + (if raw then 0 else 8 + (if v6 then 40 else 20))

/-- Is the number reserved for another port, or, on a port with reservations, not reserved for it (R69)? -/
def Dev.resOf (d : Dev) (n : Nat) : Nat := match d.sluiceRec n with | some r => leAt 0x0C 1 r | none => 0

/-- The stream number an OPEN on a port gets (R69): none when no number is FREE. -/
def Dev.pickStream (d : Dev) (p : Nat) : Option Nat :=
  let free := fun n => d.streamState n == 0 && (d.stream n).isNone
  let mine := (List.range 4096).filter (fun n => d.resOf n == p + 1)
  if !mine.isEmpty then mine.find? free
  else (List.range 4096).find? (fun n => d.resOf n == 0 && free n)

/-- The stream that an OPEN describes, before its ring is placed; the repair time by R82. -/
def Dev.openStream (d : Dev) (p : Nat) (a : NetAddr) (s : Session) (bs : List Byte) : Stream :=
  let bytes := beAt 24 4 bs
  let rate := beAt 28 4 bs
  let raw := beAt 34 1 bs == 1
  let hold := if bytes * rate = 0 then 0 else s.replayKib * 1024 * 10 ^ 9 / (bytes * rate)
  { bound := true, session := s.id, port := p, src := { a with mac := beAt 36 6 bs }, raw := raw
    width := beAt 16 2 bs, height := beAt 18 2 bs, pixfmt := beAt 20 4 bs, bytes := bytes, rate := rate
    unit := beAt 32 2 bs, repairUs := min (d.rd .CAP_REPAIR_REPAIR_US) hold, nak := bitOf 0 s.opts
    region := 0, base := 0, slots := 0, target := 0, h := none, done := [], frames := [], firstTime := none
    lastTraffic := d.now, idle := false, full := false, refused := 0, nsid := 0, standing := none, paused := none
    thumbBase := 0, thumbLen := 0, thumbNext := 0 }

/-- Parameters in range (refusal code 0x06, R491). -/
def Dev.openParamsOk (d : Dev) (p : Nat) (a : NetAddr) (x : Stream) : Bool :=
  decide (16 ≤ x.width ∧ 16 ≤ x.height) &&
  decide (pixPlanes x.pixfmt * x.height * lineBytes x.pixfmt x.width ≤ x.bytes ∧ x.bytes ≤ 512 * 1024 * 1024) &&
  x.unit % 64 == 0 && decide (256 ≤ x.unit ∧ x.unit ≤ 8960) && decide (x.unit + kfspHeaders x.raw a.v6 ≤ d.maxFrame p) &&
  x.rate != 0

/-- Streams an instance has bound. -/
def Dev.streamsOf (d : Dev) (n : Nat) : Nat :=
  (d.cap.streams.filter (fun p => p.2.bound && d.streamOwner p.1 == n)).length

/-- The refusal of an OPEN, if any (table OPEN refusal codes). A flow-table entry is never lacking: the spec gives the
table no size (notes/assumptions/56). -/
def Dev.openRefusal (d : Dev) (p : Nat) (a : NetAddr) (owner : Nat) (s : Session) (x : Stream) : Option Nat :=
  if decide (4096 ≤ d.rd .CAP_STATUS_STREAMS_BOUND) then some 2
  else if decide (d.rd .INS_QUOTA_STREAMS owner ≤ d.streamsOf owner) then some 3
  else if x.raw && !bitOf 1 s.opts then some 5
  else if !d.openParamsOk p a x then some 6
  else match d.pickStream p with
    | none => some 8
    | some n => if (d.ringRegion owner n x).isNone then some 4 else none

/-- Bind a stream (R67): number, ring, flow entry, registers. -/
def Dev.bind (d : Dev) (n owner ver : Nat) (x : Stream) : Dev :=
  match d.ringRegion owner n x with
  | none => d
  | some r =>
    let x : Stream := { x with region := r.num, target := if d.pol.ringAutosize = 1 then 0 else d.slotsCfg n }
    let d := (d.wr .CAP_STREAM_CFG_STATE 1 n).wr .CAP_STREAM_CFG_INSTANCE owner n
    let d := (d.wr .CAP_STREAM_CFG_VERSION ver n).wr .CAP_STREAM_CFG_GROUP 0 n
    let d := ((d.wr .CAP_STREAM_CFG_THUMB 0 n).wr .CAP_STREAM_CFG_FILTER_EN 0 n).wr .CAP_STREAM_CFG_DEFAULT_VERDICT 0 n
    let d := d.wr .CAP_STATUS_STREAMS_BOUND (d.rd .CAP_STATUS_STREAMS_BOUND + 1)
    let d := (d.setStream n x).fillSluice n
    d.settleRings r

/-- Keep the answer to an OPEN with its session: the same SEQ is answered again with it (R75). -/
def Dev.noteOpen (d : Dev) (id seq : Nat) (m : List Byte) : Dev :=
  { d with cap.sessions := d.cap.sessions.map (fun t : Session =>
      if t.id = id then { t with opens := (seq, m) :: t.opens } else t) }

/-- Slots of a stream's ring now. -/
def Dev.ringSlots (d : Dev) (n : Nat) : Nat := match d.stream n with | some y => y.slots | none => 0

/-- OPEN (R67, R69, R75, R82, R85). -/
def Dev.openCmd (d : Dev) (p : Nat) (a : NetAddr) (bs : List Byte) : Dev :=
  if !d.laneFlag p 3 || !d.portUp p then d
  else if !d.ctrlOk p bs || beAt 1 1 bs != 0x22 || beAt 6 2 bs != 32 || beAt 4 2 bs != 0xFFFF || beAt 35 1 bs != 0 ||
      decide (1 < beAt 34 1 bs) || !allZero (sliceB 42 6 bs) || !pixOk (beAt 20 4 bs) then d.dropCtrl
  else
    let seq := beAt 2 2 bs
    let sid := beAt 8 4 bs
    let answer := fun (d : Dev) (ver code n us slots : Nat) =>
      d.ctrlMsg p ver 0x23 seq n sid (beBytes 1 code ++ zeros 1 ++ beBytes 2 n ++ beBytes 4 us ++ beBytes 4 slots ++ zeros 4)
    match (d.sessionOf p a).bind (fun s => if s.id = sid then some s else none) with
    | none =>
      let d := d.sendCtrl p a (answer d (beAt 0 1 bs) 1 0xFFFF 0 0)
      d.raiseI (d.portOwner p) 0x2103 [(2, p), (2, 1)]
    | some s =>
      match s.opens.find? (fun o => o.1 == seq) with
      | some o => d.sendCtrl p a o.2
      | none =>
        if beAt 0 1 bs ≠ s.ver then d.dropCtrl
        else
          let x := d.openStream p a s bs
          let key := flowKey p (if a.v6 then 2 else 1) 17 (d.rd .CAP_KFSP_PORTS_CTRL_PORT) a.l4
            (NetAddr_source a (if a.v6 then 2 else 1))
          let d := d.countSearch (d.flowPart (d.portOwner p)) 1
          let owner := match d.hgSearch (d.flowPart (d.portOwner p)) key with
            | some (r, _) => if bitsOf 23 21 r = 0 then bitsOf 31 24 r else d.portOwner p
            | none => d.portOwner p
          let remember := fun (d : Dev) (m : List Byte) => (d.noteOpen s.id seq m).sendCtrl p a m
          match d.openRefusal p a owner s x with
          | some c =>
            let d := remember d (answer d s.ver c 0xFFFF 0 0)
            d.raiseI owner 0x2103 [(2, p), (2, c)]
          | none =>
            match d.pickStream p with
            | none => d
            | some n =>
              let d := d.bind n owner s.ver x
              let slots := d.ringSlots n
              let d := d.raiseI owner 0x2101 [(2, n), (1, owner), (2, p)]
              remember d (answer d s.ver 0 n x.repairUs slots)

/-- A control message that names a bound stream of its session: the stream. -/
def Dev.ctrlStream (d : Dev) (p : Nat) (a : NetAddr) (type len : Nat) (bs : List Byte) : Option (Nat × Stream) :=
  let n := beAt 4 2 bs
  if d.ctrlOk p bs && beAt 1 1 bs == type && beAt 6 2 bs == len then
    match d.sessionOf p a, d.stream n with
    | some s, some x => if s.id = beAt 8 4 bs ∧ x.bound ∧ x.session = s.id ∧ beAt 0 1 bs = s.ver then some (n, x) else none
    | _, _ => none
  else none

/-- CLOSE from a camera (R86): the stream is unbound and CLOSE_ACK answers. -/
def Dev.closeCmd (d : Dev) (p : Nat) (a : NetAddr) (bs : List Byte) : Dev :=
  if !d.laneFlag p 3 || !d.portUp p then d
  else match d.ctrlStream p a 0x25 4 bs with
  | none => d.dropCtrl
  | some (n, x) =>
    if 5 < beAt 16 1 bs || !allZero (sliceB 17 3 bs) then d.dropCtrl
    else
      let d := d.unbind n (beAt 16 1 bs)
      d.sendCtrl p a (d.ctrlMsg p (beAt 0 1 bs) 0x26 (beAt 2 2 bs) n x.session (zeros 4))

/-- CLOSE_ACK from a camera: well-formed, it changes nothing; otherwise it is dropped and counted (R75). -/
def Dev.closeAck (d : Dev) (p : Nat) (a : NetAddr) (bs : List Byte) : Dev :=
  if !d.laneFlag p 3 || !d.portUp p then d
  else if !d.ctrlOk p bs || beAt 1 1 bs != 0x26 || beAt 6 2 bs != 4 || !allZero (sliceB 16 4 bs) ||
      (d.sessionOf p a).isNone then d.dropCtrl
  else d

/-- HEARTBEAT (R77): version 1.3; it refreshes the stream's idle time. -/
def Dev.heartbeat (d : Dev) (p : Nat) (a : NetAddr) (bs : List Byte) : Dev :=
  if !d.laneFlag p 3 || !d.portUp p then d
  else match d.ctrlStream p a 0x27 0 bs with
  | none => d.dropCtrl
  | some (n, _) =>
    if d.rd .CAP_STREAM_CFG_VERSION n < 0x13 then d.dropCtrl
    else d.modStream n (fun x => { x with lastTraffic := d.now, idle := false })

/-- STREAM_IDLE (R77). -/
def Dev.streamIdle (d : Dev) (n : Nat) : Dev :=
  match d.stream n with
  | none => d
  | some x =>
    if x.bound && !x.idle && decide (x.lastTraffic + d.rd .CAP_TIMING_IDLE_MS * 1000000 ≤ d.now) then
      let d := (d.commitAll n 3 true).modStream n (fun x => { x with idle := true })
      d.raiseI (d.streamOwner n) 0x2170 [(2, n)]
    else d

/-- STREAM_IDLE_CLOSE (R77). -/
def Dev.streamIdleClose (d : Dev) (n : Nat) : Dev :=
  match d.stream n with
  | none => d
  | some x =>
    if x.bound && x.idle && decide (x.lastTraffic + d.rd .CAP_TIMING_IDLE_MS * 11000000 ≤ d.now) then
      (d.sendClose n x 1).unbind n 1
    else d

/-! ## Data packets (R71–R73, R78–R84, R87) -/

/-- Ranges of missing packets: first index and count, at most 32 (R81). -/
def missingRanges (expected : Nat) (placed : List Nat) : Nat → Nat → List (Nat × Nat)
  | 0, _ => []
  | fuel + 1, k =>
    if expected ≤ k then []
    else if placed.contains k then missingRanges expected placed fuel (k + 1)
    else match missingRanges expected placed fuel (k + 1) with
      | (a, c) :: rs => if a = k + 1 then (k, c + 1) :: rs else (k, 1) :: (a, c) :: rs
      | [] => [(k, 1)]

/-- Send a NAK for the missing ranges of a frame (R81); the SEQ is the device's to choose. -/
def Dev.sendNak (d : Dev) (n : Nat) (x : Stream) (f : Frame) : Dev :=
  let rs := (missingRanges f.expected f.placed f.expected 0).take 32
  let body := beBytes 4 f.num ++ beBytes 2 rs.length ++ zeros 2 ++ rs.flatMap (fun r => beBytes 4 r.1 ++ beBytes 4 r.2)
  let (seq, d) := d.draw 16
  (d.sendCtrl x.port x.src (d.ctrlMsg x.port (d.rd .CAP_STREAM_CFG_VERSION n) 0x24 seq n x.session body)).cnt
    .CAP_STREAM_CNT_NAK_SENT n

/-- Repair of a frame begins (R81): a NAK with the option, an incomplete commit without it. -/
def Dev.beginRepair (d : Dev) (n id : Nat) : Dev :=
  match d.stream n with
  | none => d
  | some x => match x.frame id with
    | none => d
    | some f =>
      if f.state ≠ 1 ∨ f.repair.isSome ∨ f.placed.length = f.expected then d
      else if x.nak then
        (d.setFrame n id (fun f => { f with repair := some (d.now, 1) })).sendNak n x f
      else d.commitFrame n id 1 true

/-- NAK_TIMEOUT (R81): one further NAK for the ranges still missing. -/
def Dev.nakTimeout (d : Dev) (n num : Nat) : Dev :=
  match d.stream n with
  | none => d
  | some x => match x.frames.find? (fun f => f.num == num && f.state == 1) with
    | none => d
    | some f => match f.repair with
      | some (t, 1) =>
        if d.now < t + d.rd .CAP_REPAIR_NAK_TIMEOUT_US * 1000 ∨ f.placed.length = f.expected then d
        else (d.setFrame n f.id (fun f => { f with repair := some (t, 2) })).sendNak n x f
      | _ => d

/-- REPAIR_DEADLINE (R81, R82). -/
def Dev.repairDeadline (d : Dev) (n num : Nat) : Dev :=
  match d.stream n with
  | none => d
  | some x => match x.frames.find? (fun f => f.num == num && f.state == 1) with
    | none => d
    | some f => match f.repair with
      | some (t, _) => if d.now < t + x.repairUs * 1000 then d else d.commitFrame n f.id 1 true
      | none => d

/-- Frames in progress, the older first. -/
def Stream.filling (x : Stream) : List Frame := x.frames.filter (fun f => f.state == 1)

/-- A slot for a new frame (R87): an unused one, else that of the oldest loose frame, which ceases to exist. -/
def Stream.allocSlot (x : Stream) : Option (Nat × List Frame) :=
  match (List.range (min x.slots (x.frames.length + 1))).find? (fun k => !x.frames.any (fun f => f.slot == k)) with
  | some k => some (k, x.frames)
  | none => match oldestFrame (x.frames.filter Frame.loose) with
    | some f => some (f.slot, x.frames.filter (fun g => g.id != f.id))
    | none => none

/-- A refused frame (R87): counted, 0x2140 once per episode, recorded as a yield (point 4). -/
def Dev.refuseFrame (d : Dev) (n : Nat) (x : Stream) : Dev :=
  let inst := d.streamOwner n
  let d := d.cnt .CAP_STREAM_CNT_FRAMES_REFUSED n
  let d := if x.full then d else d.raiseI inst 0x2140 [(2, n)]
  let d := d.modStream n (fun x => { x with full := true, refused := x.refused + 1 })
  (d.fullAny).yieldAt inst 4

/-- The fields of a data packet. -/
structure Packet where
  flags : Nat
  num : Nat
  idx : Nat
  stamp : Nat
  payload : List Byte
deriving DecidableEq, Repr

/-- The frame time of a new frame and whether TS_SUSPECT is set (R84). -/
def Dev.frameTime (d : Dev) (n : Nat) (k : Packet) : Nat × Bool :=
  if d.rd .CAP_STREAM_CFG_TIME_SOURCE n = 0 then (d.now, false)
  else if bitOf 4 k.flags ∧ k.stamp ≤ d.now + 10000000 ∧ d.now ≤ k.stamp + 10000000 then (k.stamp, false)
  else (d.now, true)

/-- Place a packet of a frame in progress (table Packet outcomes), and commit the frame when it was the last. -/
def Dev.placePacket (d : Dev) (n id : Nat) (k : Packet) : Dev :=
  match d.stream n with
  | none => d
  | some x => match x.frame id with
    | none => d
    | some f =>
      if f.placed.contains k.idx then d.cnt .CAP_STREAM_CNT_PKT_DUP n
      else
        let d := d.store (x.slotAddr f.slot + k.idx * x.unit) k.payload
        let d := d.cnt .CAP_STREAM_CNT_PKT_RX n
        let d := if bitOf 2 k.flags then d.cnt .CAP_STREAM_CNT_PKT_REPAIRED n else d
        let d := d.modStream n (fun x => { x with frames := x.frames.map (fun f =>
          if f.id = id then
            { f with
              placed := k.idx :: f.placed
              flags := f.flags ||| (if bitOf 2 k.flags then 2 else 0) ||| (if bitOf 3 k.flags then 8 else 0) }
          else f) })
        if f.placed.length + 1 = f.expected then d.commitFrame n id 0 true
        else if k.idx + 1 = f.expected then d.beginRepair n id
        else d

/-- A packet starts a new frame (R80, R81, R84, R87). -/
def Dev.startFrame (d : Dev) (n : Nat) (k : Packet) : Dev :=
  let d := match d.stream n with
    | some x => match x.filling with
      | f :: _ :: _ => d.commitFrame n f.id 2 true
      | _ => d
    | none => d
  let d := match d.stream n with
    | some x => x.filling.foldl (fun (d : Dev) (f : Frame) => d.beginRepair n f.id) d
    | none => d
  match d.stream n with
  | none => d
  | some x => match x.allocSlot with
    | none => d.refuseFrame n x
    | some (slot, fs) =>
      let (t, suspect) := d.frameTime n k
      let id := d.cap.nextFrame
      let f : Frame := ⟨id, id + 1, slot, 1, k.num, t, d.now, x.packets, 0, 0, none, 0, if suspect then 4 else 0, 0xFF, 0,
        [], none, 0, false, false, false, none⟩
      let d := { d with cap.nextFrame := id + 1 }
      let d := d.setStream n { x with frames := fs ++ [f] }
      let d := d.setFrame n id (fun f => f)
      let d := if suspect then d.raiseSec (d.streamOwner n) 0x2122 n [(2, n), (4, k.num)] else d
      d.placePacket n id k

/-- Frame assembly of one admitted packet (R80). -/
def Dev.assemble (d : Dev) (n : Nat) (k : Packet) : Dev :=
  match d.stream n with
  | none => d
  | some x =>
    match x.filling.find? (fun f => f.num == k.num) with
    | some f => d.placePacket n f.id k
    | none =>
      let setH := fun (d : Dev) => d.modStream n (fun x => { x with
        h := some k.num, done := x.done.filter (fun m => decide (modDiff 32 k.num m < 1024)) })
      match x.h with
      | none => (setH d).startFrame n k
      | some h =>
        let fwd := modDiff 32 k.num h
        let back := modDiff 32 h k.num
        if 1 ≤ fwd ∧ fwd ≤ 1048576 then
          let d := if 2 ≤ fwd then
              (d.cnt .CAP_STREAM_CNT_FRAMES_LOST n (fwd - 1)).raiseI (d.streamOwner n) 0x2121
                [(2, n), (4, (h + 1) % 2 ^ 32), (4, fwd - 1)]
            else d
          (setH d).startFrame n k
        else if back ≤ 1023 then
          if x.done.contains k.num then d.cnt .CAP_STREAM_CNT_PKT_LATE n else d.cnt .CAP_STREAM_CNT_PKT_STALE n
        else if bitOf 0 k.flags then
          let d := d.commitAll n 5 true
          let d := d.raiseI (d.streamOwner n) 0x2123 [(2, n), (4, h), (4, k.num)]
          (d.modStream n (fun x => { x with h := some k.num, done := [] })).startFrame n k
        else d.cnt .CAP_STREAM_CNT_PKT_STALE n

/-- The payload bytes a packet carries: by the UDP length, or by PAYLOAD_LEN in a raw frame (R72). -/
def packetPayload (raw : Bool) (bs : List Byte) : Nat := if raw then beAt 0x1C 2 bs else bs.length - 36

/-- The format check of R72 and R73 against the stream. -/
def Dev.formatOk (d : Dev) (n : Nat) (x : Stream) (bs : List Byte) : Bool :=
  let ver := beAt 0 1 bs
  let fl := beAt 2 2 bs
  let idx := beAt 0xC 4 bs
  let len := beAt 0x1C 2 bs
  ver == d.rd .CAP_STREAM_CFG_VERSION n && beAt 1 1 bs == 1 && decide (fl < 32) && decide (beAt 4 2 bs < 4096) &&
  beAt 0x1E 2 bs == 0 && beAt 0x18 4 bs == x.pixfmt && decide (idx < x.packets) && len == packetPayload x.raw bs &&
  len == x.packetLen idx && decide (36 + len ≤ bs.length) && (!bitOf 3 fl || decide (0x13 ≤ ver)) &&
  (!x.raw || decide (bs.length = 36 + len) || decide (bs.length ≤ 46))

/-- The stream bound to a packet's source on its port (R78). -/
def Dev.flowOf (d : Dev) (p : Nat) (a : NetAddr) (raw : Bool) (n : Nat) : Option (Nat × Stream) :=
  match d.stream n with
  | none => none
  | some x =>
    if x.bound && x.port == p && x.raw == raw &&
        (if raw then x.src.mac == a.mac else x.src.v6 == a.v6 && x.src.ip == a.ip) then some (n, x) else none

/-- KFSP_DATA_PACKET: `bs` is the bytes from VER on (R73, R78–R80, R367, R370). -/
def Dev.dataPacket (d : Dev) (y : Arrival) (a : NetAddr) (raw : Bool) (bs : List Byte) : Dev :=
  let r := d.receive y bs
  let d := r.1
  let p := y.port
  let wire := y.wire
  let end_ := 32 + packetPayload raw bs
  if !r.2 || !d.laneFlag p 3 then d
  else if d.laneFlag p 0 && beAt end_ 4 bs != crc32c (sliceB 0 end_ bs) then
    (d.cnt .CHK_PORT_CNT_CRC_BAD p).countSec 0xB001 p
  else match d.flowOf p a raw (beAt 4 2 bs % 4096) with
  | none =>
    let l3 := if raw then 0 else if a.v6 then 2 else 1
    let key := flowKey p l3 (if raw then 0 else 17) (if raw then 0 else d.rd .CAP_KFSP_PORTS_DATA_PORT) (if raw then 0 else a.l4)
      (NetAddr_source a l3)
    (d.classify p key bs).1.cnt .CAP_PORT_DROP_UNBOUND p
  | some (n, x) =>
    let d := d.modStream n (fun x => { x with lastTraffic := d.now, idle := false })
    if !d.formatOk n x bs then d.cnt .CAP_STREAM_CNT_PKT_FORMAT n
    else
      let fl := beAt 2 2 bs
      let live := if d.laneFlag p 0 && !bitOf 2 fl then d.aliveTest n (beAt 6 2 bs) else (d, true)
      if !live.2 then live.1
      else
        let s := live.1.letPass n wire
        let i := if s.2 then s.1.letPass (4096 + d.streamOwner n) wire else s
        if !i.2 then i.1.cnt .CAP_STREAM_CNT_SLUICE_DROP n
        else if i.1.ingestDown p n then (i.1.refuseParcel).cnt .CAP_PORT_DROP_RXBUF p
        else i.1.assemble n ⟨fl, beAt 8 4 bs, beAt 0xC 4 bs, beAt 0x10 8 bs, sliceB 32 (beAt 0x1C 2 bs) bs⟩

/-- ETHERNET_FRAME: a frame that is not KFSP. `toPort` says that its destination MAC is the port's or a group it joined
(R261); `l3`, `proto`, `dport`, `sport` and `a` are its classification fields (R262, R263). -/
def Dev.ethernetFrame (d : Dev) (y : Arrival) (toPort : Bool) (dmac vlan : Nat) (tagged : Bool) (l3 proto dport sport : Nat)
    (a : NetAddr) (bs : List Byte) : Dev :=
  let r := d.receive y bs
  let d := r.1
  let p := y.port
  let wire := y.wire
  if !r.2 then d
  else if toPort then
    let c := d.classify p (flowKey p l3 (if l3 = 0 ∨ l3 = 3 then 0 else proto) dport sport (NetAddr_source a l3)) bs
    match c.2 with
    | .toInstance n => c.1.send (.deliver n false bs)
    | .toSteward => c.1.send (.deliver 0 true bs)
    | .drop => c.1
  else
    let key := dmac % 2 ^ 48 * 2 ^ 80 + vlan % 2 ^ 12 * 2 ^ 68 + b2n tagged * 2 ^ 67 + p * 2 ^ 60
    let d := d.countSearch (d.hgPart 1 0) 1
    match d.hgSearch (d.hgPart 1 0) key with
    | none => d.cnt .GKO_CNT_FWD_MISS
    | some (res, part, pos) =>
      let eg := bitsOf 29 23 res
      match bitsOf 31 30 res with
      | 0 => if d.portUp eg then (d.send (.frame eg bs)).sent eg wire else d.resultBad p part pos
      | 1 => d.send (.deliver (d.portOwner p) false bs)
      | 2 => d
      | _ => d.resultBad p part pos

/-! ## Trigger pins (R96, R472, table TRIGGERS) -/

/-- The TRIGGERS record of a pin. -/
def Dev.trigRec (d : Dev) (pin : Nat) : Option (List Byte) := (d.secRecs 8).find? (fun r => leAt 0 1 r == pin)

/-- TRIGGER_INPUT_EDGE: an edge of a pulse of at least 20 ns on input `pin` is stamped and its debounce begins; the
setting in force at the stamp governs it (R472, table Section replacement). An edge that comes while the debounce of
the one before it still runs ends that debounce, and the input is back where it was. An edge that the MODE does not
name is debounced too, and fires nothing. -/
def Dev.inputEdge (d : Dev) (pin : Nat) (rising : Bool) : Dev :=
  match d.trigRec pin with
  | none => d
  | some r =>
    let m := leAt 1 1 r
    let live := fun e : Edge => e.pin == pin && decide (d.now < e.until_)
    if m = 0 then d
    else if d.cap.edges.any live then { d with cap.edges := d.cap.edges.filter (fun e => !live e) }
    else
      let fires := (m = 1 ∧ rising) ∨ (m = 2 ∧ !rising) ∨ m = 3
      { d with cap.edges := d.cap.edges ++ [⟨pin, d.now, d.now + leAt 4 4 r, if fires then leAt 8 8 r else 0⟩] }

/-- Submit a trigger to each group of a mask. -/
def Dev.submitMask (d : Dev) (mask source t : Nat) : List Nat → Dev
  | [] => d
  | g :: gs => (if bitOf g mask then (d.submitTrigger g source t).1 else d).submitMask mask source t gs

/-- TRIGGER_DEBOUNCE_EXPIRY: the oldest stamped edge of the pin whose debounce has passed fires its groups (R96). -/
def Dev.debounceExpiry (d : Dev) (pin : Nat) : Dev :=
  match d.cap.edges.find? (fun e => e.pin == pin && decide (e.until_ ≤ d.now)) with
  | none => d
  | some e => { d with cap.edges := d.cap.edges.erase e }.submitMask e.groups 0 e.t (List.range 64)

/-- SW_TRIG: a write of CAP_SW_TRIG.GO; a time of 0 means now (R95). -/
def Dev.swTrig (d : Dev) (g : Nat) : Dev :=
  let t := d.rd64 .CAP_SW_TRIG_TIME_LO .CAP_SW_TRIG_TIME_HI 0
  (d.submitTrigger g 4 (if t = 0 then d.now else t)).1

/-- TRIG_OUT_SECOND_PULSE: outputs in MODE 2 start a pulse at each second of device time (R472). -/
def Dev.secondPulse (d : Dev) : Dev :=
  if d.second ≤ d.cap.lastSecond then d
  else { d with cap.lastSecond := d.second }.pulseOutputs (fun r => leAt 1 1 r == 2) (d.secRecs 8)

/-- TRIG_OUT_PULSE_END: the pulse of output `k` ends (R472). -/
def Dev.pulseEnd (d : Dev) (k : Nat) : Dev :=
  match amFind k d.cap.pulses with
  | none => d
  | some t => if d.now < t then d else { d with cap.pulses := amDel k d.cap.pulses }.send (.pin 0 k false)

end Sys2Proof.Machine
end

