-- ==== Sys2Proof/Machine/HostCapture.lean ====
section
/-! DEFINITION. The vendor capture commands and frame queries (spec/03_capture.md, R85, R95, R101, R105–R109). -/
namespace Sys2Proof.Machine

/-! ## Arm and disarm (R85, R101, R106) -/

/-- Why a command on stream `n` cannot act on it: not bound, or another instance's. The Boolean asks for 0x81. -/
def Dev.streamBad (d : Dev) (inst n : Nat) : Option Bool :=
  if d.streamState n = 0 then some true else if d.streamOwner n ≠ inst then some false else none

/-- Is a trigger group enabled and given to an instance? -/
def Dev.groupReady (d : Dev) (inst g : Nat) : Bool := d.rd .CAP_TG_CFG_ENABLE g == 1 && d.rd .CAP_TG_CFG_INSTANCE g == inst

/-- The window condition of R85 with new PRE_US and POST_US, for every member of a group and for the stream itself when
it joins. -/
def Dev.armFits (d : Dev) (g n pre post : Nat) (joins : Bool) : Bool :=
  let d := (d.wr .CAP_TG_PRE pre g).wr .CAP_TG_POST post g
  ((d.membersOf g).filter (· != n) ++ (if joins then [n] else [])).all (fun k =>
    match d.stream k with
    | some x => d.windowFits g x.rate x.target
    | none => true)

/-- Where a stream's ring of 8 thumbnails lies: top-down in program and work-item memory, below what other streams hold. -/
def Dev.placeThumbs (d : Dev) (n len : Nat) : Option Nat :=
  (d.programRegion (d.streamOwner n)).bind (fun r =>
    let rings := (d.cap.streams.filter (fun p => p.1 != n && p.2.thumbLen != 0)).map (fun p => (p.2.thumbBase, 8 * p.2.thumbLen))
    let ends := (r.base + r.size) :: (rings.map (·.1)).filter (fun a => decide (r.base < a ∧ a ≤ r.base + r.size))
    (ends.filter (fun e => decide (d.blobBase r + 8 * len ≤ e) &&
      rings.all (fun q => decide (e ≤ q.1 ∨ q.1 + q.2 ≤ e - 8 * len)))).foldl
      (fun m e => match m with | none => some (e - 8 * len) | some a => some (max a (e - 8 * len))) none)

/-- Enter the settings of an arming. -/
def Dev.applyArm (d : Dev) (n mode g filter thumb verdict task budget key : Nat) : Dev :=
  match d.stream n with
  | none => d
  | some x =>
    let len := if thumb = 0 then 0 else ceilDiv (thumbBytes x.pixfmt x.width x.height thumb) 64 * 64
    let base := (d.placeThumbs n len).getD 0
    let d := d.modStream n (fun x => { x with nsid := key, thumbBase := base, thumbLen := len, thumbNext := 0 })
    let d := ((d.wr .CAP_STREAM_CFG_STATE (2 + mode) n).wr .CAP_STREAM_CFG_GROUP g n).wr .CAP_STREAM_CFG_THUMB thumb n
    let d := (d.wr .CAP_STREAM_CFG_FILTER_EN filter n).wr .CAP_STREAM_CFG_DEFAULT_VERDICT verdict n
    (d.wr .CAP_STREAM_FILTER_TASK task n).wr .CAP_STREAM_FILTER_BUDGET_US budget n

/-- Open the standing window of an arming in MODE 1 (R101). -/
def Dev.standWindow (d : Dev) (n : Nat) : Dev :=
  let (w, d) := d.takeWindowId
  let win : TrigWindow := ⟨w, none, d.now, d.now, 0, [n], [n], false, 0, 0, 0, false, []⟩
  ({ d with cap.windows := d.cap.windows ++ [win] }).modStream n (fun x => { x with standing := some w })

/-- CAPTURE_ARM (R85, R101, R106). -/
def Dev.captureArm (d : Dev) (h : Nat) : Dev :=
  d.onCmd h false 0x81 2 (fun c =>
    let w0 := cdw 10 c.sqe
    let w1 := cdw 11 c.sqe
    let budget := cdw 12 c.sqe
    let pre := cdw 13 c.sqe
    let post := cdw 14 c.sqe
    let n := bitsOf 11 0 w0
    let g := bitsOf 29 24 w0
    let mode := bitsOf 31 30 w0
    let task := bitsOf 15 0 w1
    if 1 < mode ∨ bitsOf 23 12 w0 ≠ 0 ∨ bitsOf 27 16 w1 ≠ 0 ∨ budget < 10 ∨ 10000 < budget ∨ 10000000 < pre ∨ 10000000 < post then
      d.invalidField h
    else match d.streamBad c.inst n with
    | some true => d.capStatus h 0x81
    | some false => d.invalidField h
    | none =>
      match d.nsOf c with
      | none => d.failCmd h 0 0x0B true none
      | some x =>
        let usesGroup : Bool := mode == 0 || pre != 0 || post != 0
        if x.kind ≠ 1 then d.invalidField h
        else if bitOf 31 w1 ∧ d.rd .EFT_TASK_CFG_STATE task ≠ 0 ∧ d.rd .EFT_TASK_INFO_INSTANCE task ≠ c.inst then d.invalidField h
        else if usesGroup && !d.groupReady c.inst g then d.capStatus h 0x82
        else
          let pre' := if pre = 0 then d.rd .CAP_TG_PRE g else pre
          let post' := if post = 0 then d.rd .CAP_TG_POST g else post
          if usesGroup && !d.armFits g n pre' post' (mode == 0) then d.capStatus h 0x85
          else
            let d := if usesGroup then (d.wr .CAP_TG_PRE pre' g).wr .CAP_TG_POST post' g else d
            let leaves : Bool := decide (2 ≤ d.streamState n) &&
              (d.rd .CAP_STREAM_CFG_GROUP n != g || d.streamState n != 2 + mode || mode == 1)
            let d := if leaves then d.leaveWindows n else d
            let d := d.modStream n (fun x => { x with standing := none })
            let d := d.applyArm n mode g (bitsOf 31 31 w1) (bitsOf 30 29 w1) (bitsOf 28 28 w1) task budget c.key
            (if mode = 1 then d.standWindow n else d).succeed h 0 0)

/-- CAPTURE_DISARM (R96): success also for a stream not armed. -/
def Dev.captureDisarm (d : Dev) (h : Nat) : Dev :=
  d.onCmd h false 0x82 2 (fun c =>
    let n := bitsOf 11 0 (cdw 10 c.sqe)
    if cdw 10 c.sqe / 4096 ≠ 0 then d.invalidField h
    else match d.streamBad c.inst n with
    | some true => d.capStatus h 0x81
    | some false => d.invalidField h
    | none =>
      if d.streamState n < 2 then d.succeed h 0 0
      else
        let d := (d.leaveWindows n).wr .CAP_STREAM_CFG_STATE 1 n
        (d.modStream n (fun x => { x with standing := none })).succeed h 0 0)

/-! ## Freeze Window (R95, R107, R252) -/

/-- FREEZE_WINDOW. -/
def Dev.freezeWindow (d : Dev) (h : Nat) : Dev :=
  d.onCmd h false 0x85 2 (fun c =>
    let g := bitsOf 5 0 (cdw 10 c.sqe)
    let t := cdw 11 c.sqe + 2 ^ 32 * cdw 12 c.sqe
    let t := if t = 0 then c.arrival else t
    if bitsOf 30 6 (cdw 10 c.sqe) ≠ 0 then d.invalidField h
    else if d.rd .CAP_TG_CFG_INSTANCE g ≠ c.inst then d.capStatus h 0x82
    else
      let (d, r) := d.submitTrigger g 3 t
      match r with
      | .refused 0 => d.capStatus h 0x82
      | .refused 1 => d.capStatus h 0x80
      | .refused _ => d.capStatus h 0x86
      | .accepted w ms =>
        if bitOf 31 (cdw 10 c.sqe) then
          ((d.setWin w (fun x => { x with waiting := x.waiting ++ [h] })).setCmd h (fun c => { c with stage := 3, held := true })).checkDrained w
        else d.succeed h w (ms % 2 ^ 16))

/-! ## Frame Query (R105, R108) -/

/-- The aligned prefixes that cover [a, b] of a `w`-bit space, as (value, bits below the prefix): the greatest aligned
block from `a` that fits, and so on. -/
def timePrefixes : Nat → Nat → Nat → List (Nat × Nat)
  | 0, _, _ => []
  | fuel + 1, a, b =>
    if b < a then []
    else
      let k := ((List.range 37).filter (fun k => decide (a % 2 ^ k = 0 ∧ a + 2 ^ k ≤ b + 1))).foldl max 0
      (a, k) :: timePrefixes fuel (a + 2 ^ k) b

/-- The Gecko key and mask of a query for one prefix. -/
def queryKey (q : List Byte) (p : Nat × Nat) : W128 × W128 :=
  let st := leAt 0 2 q
  let fl := leAt 2 2 q
  let key := st % 4096 * 2 ^ 116 + p.1 * 2 ^ 80 + leAt 4 4 q * 2 ^ 48 + leAt 0x20 6 q
  let mask := (if st = 0xFFFF then 0 else 4095 * 2 ^ 116) + (2 ^ 36 - 2 ^ p.2) * 2 ^ 80 +
    (if bitOf 0 fl then leAt 8 4 q * 2 ^ 48 else 0) + (if bitOf 1 fl then leAt 0x28 6 q else 0)
  (BitVec.ofNat 128 key, BitVec.ofNat 128 mask)

/-- Does a catalog record meet a query? -/
def queryFits (q r : List Byte) : Bool :=
  let st := leAt 0 2 q
  let fl := leAt 2 2 q
  (st == 0xFFFF || leAt 0x0C 2 r == st) &&
  decide (leAt 0x10 8 q ≤ leAt 0 8 r ∧ leAt 0 8 r ≤ leAt 0x18 8 q) &&
  (!bitOf 0 fl || (leAt 0x14 4 r &&& leAt 8 4 q) == (leAt 4 4 q &&& leAt 8 4 q)) &&
  (!bitOf 1 fl || (leAt 0x18 6 r &&& leAt 0x28 6 q) == (leAt 0x20 6 q &&& leAt 0x28 6 q)) &&
  (!bitOf 2 fl || bitOf 0 (leAt 0x0F 1 r))

/-- Positions of the catalog log that a query returns, with whether more than one index entry matched (R108): the index
for each prefix, and the log for what is older than the index's oldest entry. -/
def Dev.queryHits (d : Dev) (inst : Nat) (q : List Byte) : Dev × List Nat × Bool :=
  let log := amGet [] inst d.cap.catalog
  let part := d.hgPart 2 inst
  let ps := timePrefixes 73 (leAt 0x10 8 q / 2 ^ 20 % 2 ^ 36) (leAt 0x18 8 q / 2 ^ 20 % 2 ^ 36)
  let found := match part with
    | none => []
    | some p => (ps.flatMap (fun x => d.matches_ p (queryKey q x).1 (queryKey q x).2)).eraseDups
  let d := d.countSearch part (ps.length + found.length)
  let oldest := match part with
    | none => none
    | some p => (d.partEntries p).foldl (fun m e => some (match m with | none => indexTime e.2 | some k => min k (indexTime e.2))) none
  let fromIndex := found.map (fun i => (d.gent i).res.toNat)
  let old := (log.zipIdx.filter (fun p => match oldest with
    | none => true
    | some k => decide (leAt 0 8 p.1 / 2 ^ 20 % 2 ^ 36 ≤ k))).map (·.2)
  let all := (List.range log.length).filter (fun k => (fromIndex.contains (k % 2 ^ 32) || old.contains k) && queryFits q (log.getD k []))
  (d, all, decide (1 < found.length))

/-- FRAME_QUERY (R108). -/
def Dev.frameQuery (d : Dev) (h : Nat) : Dev :=
  d.onCmd h false 0x86 1 (fun c =>
    d.withData c 64 (fun c =>
      if c.stage ≠ 2 then d
      else
        let q := c.data.take 64
        let st := leAt 0 2 q
        let foreign : Bool := st != 0xFFFF && (decide (4096 ≤ st) || (d.streamState st != 0 && d.streamOwner st != c.inst))
        if 8 ≤ leAt 2 2 q ∨ leAt 0x0C 4 q ≠ 0 ∨ leAt 0x26 2 q ≠ 0 ∨ !allZero (sliceB 0x2E 18 q) ∨ foreign ∨
            leAt 0x18 8 q < leAt 0x10 8 q then d.invalidField h
        else if 64 ≤ (d.cap.handles.filter (fun p => p.2.inst == c.inst)).length then d.capRetry h 0x90
        else
          let (d, hits, multi) := d.queryHits c.inst q
          let k := d.cap.nextHandle
          ({ d with
            cap.handles := amPut k (⟨c.inst, hits, d.now⟩ : QueryHandle) d.cap.handles
            cap.nextHandle := (k + 1) % 2 ^ 32 }).succeed h k (b2n multi)))

/-- Has a query handle gone 10 s without a Query Next Match? -/
def Dev.queryOld (d : Dev) (q : QueryHandle) : Bool := decide (q.at_ + 10000000000 ≤ d.now)

/-- QUERY_NEXT_MATCH (R108). -/
def Dev.queryNext (d : Dev) (h : Nat) : Dev :=
  d.onCmd h false 0x87 2 (fun c =>
    let k := cdw 10 c.sqe
    let n := cdw 11 c.sqe
    if n = 0 ∨ 256 < n then d.invalidField h
    else match amFind k d.cap.handles with
    | none => d.capStatus h 0x87
    | some q =>
      if q.inst ≠ c.inst then d.capStatus h 0x87
      else if d.queryOld q then ({ d with cap.handles := amDel k d.cap.handles }).capStatus h 0x87
      else
        let log := amGet [] c.inst d.cap.catalog
        let recs := (q.left.take n).map (fun p => log.getD p [])
        let rest := q.left.drop n
        let d := if rest.isEmpty then { d with cap.handles := amDel k d.cap.handles }
          else { d with cap.handles := amPut k { q with left := rest, at_ := d.now } d.cap.handles }
        d.answer c recs.flatten recs.length (b2n rest.isEmpty))

/-- QUERY_HANDLE_EXPIRY (R108). -/
def Dev.queryExpiry (d : Dev) (k : Nat) : Dev :=
  match amFind k d.cap.handles with
  | none => d
  | some q => if d.queryOld q then { d with cap.handles := amDel k d.cap.handles } else d

/-! ## Frame Read (R109) -/

/-- Distance of two times. -/
def dist (a b : Nat) : Nat := if a ≤ b then b - a else a - b

/-- Is a candidate better: nearer to TIME_NEAR, or more recent when that is 0? -/
def nearer (near a b : Nat) : Bool := if near = 0 then decide (b < a) else decide (dist a near < dist b near)

/-- The best of candidates by their times. -/
def bestBy {α : Type} (near : Nat) (t : α → Nat) : List α → Option α
  | [] => none
  | x :: xs => match bestBy near t xs with
    | none => some x
    | some y => if nearer near (t y) (t x) then some y else some x

/-- The descriptor of a stored frame: what the catalog keeps, the other bytes free. -/
def storedDesc (r fb : List Byte) : List Byte :=
  let fl := leAt 0x0F 1 r
  let flags := (leAt 0x36 2 fb) % 64 / 8 % 2 * 8 + (leAt 0x36 2 fb) % 64 / 32 * 32 + fl % 8 + b2n (bitOf 3 fl) * 16
  leBytes 2 (leAt 0x0C 2 r) ++ leBytes 1 (leAt 0x0E 1 r) ++ leBytes 1 5 ++ leBytes 4 (leAt 8 4 r) ++ leBytes 8 (leAt 0 8 r) ++
  sliceB 0x10 8 fb ++ leBytes 4 (leAt 0x34 4 r) ++ leBytes 4 (leAt 0x30 4 r) ++ sliceB 0x20 8 fb ++ leBytes 4 (leAt 0x14 4 r) ++
  leBytes 4 (leAt 0x10 4 r) ++ leBytes 6 (leAt 0x18 6 r) ++ leBytes 2 flags ++ sliceB 0x38 2 fb ++ zeros 2 ++ sliceB 0x3C 4 fb

/-- FRAME_READ (R109): from the ring while the frame is there, else from its stored blocks. Bytes past the frame's end are
zeros. -/
def Dev.frameRead (d : Dev) (h : Nat) : Dev :=
  d.onCmd h false 0x8A 2 (fun c =>
    let w := cdw 10 c.sqe
    let n := bitsOf 11 0 w
    let num := cdw 11 c.sqe
    let off := cdw 12 c.sqe
    let len := cdw 13 c.sqe
    let near := cdw 14 c.sqe + 2 ^ 32 * cdw 15 c.sqe
    if bitsOf 31 19 w ≠ 0 ∨ bitsOf 15 12 w ≠ 0 ∨ off % 4096 ≠ 0 ∨ 8388608 < 64 + len then d.invalidField h
    else if d.streamState n ≠ 0 ∧ d.streamOwner n ≠ c.inst then d.invalidField h
    else
      let ring := match d.stream n with
        | some x => if d.streamOwner n = c.inst then
            (bestBy near Frame.time (x.frames.filter (fun f => f.num == num && decide (2 ≤ f.state ∧ f.state ≤ 4)))).map (fun f => (x, f))
          else none
        | none => none
      let recs := (amGet [] c.inst d.cap.catalog).filter (fun r => leAt 0x0C 2 r == n && leAt 8 4 r == num)
      let stored := bestBy near (fun r => leAt 0 8 r) recs
      let useRing : Bool := match ring, stored with
        | some (_, f), some r => !nearer near (leAt 0 8 r) f.time
        | some _, none => true
        | none, _ => false
      match useRing, ring, stored with
      | true, some (x, f), _ =>
        if bitOf 6 f.flags then d.capStatus h 0x83
        else if bitOf 16 w ∧ f.state = 2 then d.capStatus h 0x80
        else if f.missing ≠ 0 ∧ !bitOf 17 w then d.capStatus h 0x84
        else
          let body := if bitOf 18 w then [] else sliceB off len ((d.readMem (x.slotAddr f.slot) x.bytes))
          d.answer c (frameDesc n c.inst x f ++ body) 0 0
      | _, _, some r =>
        if !bitOf 0 (leAt 0x0F 1 r) ∧ !bitOf 17 w then d.capStatus h 0x84
        else
          let (fb, d) := d.drawBytes 64
          let desc := storedDesc r fb
          let fbytes := leAt 0x30 4 r
          let m := min len (fbytes - off)
          let key := nsKey c.inst (leAt 0x28 4 r)
          if bitOf 18 w then d.answer c desc 0 0
          else match d.nspace key with
          | none => d.capStatus h 0x83
          | some x =>
            if m = 0 then d.answer c (desc ++ zeros len) 0 0
            else d.startRead c { x with lbaf := 0 } key (leAt 0x20 8 r * 4096 + off) m desc (64 + len)
      | _, _, none => d.capStatus h (if d.streamState n = 0 then 0x81 else 0x83))

end Sys2Proof.Machine
end

