-- ==== Sys2Proof/Machine/Fabric.lean ====
section
/-! DEFINITION. The Flume fabric: poisoned parcels, route changes, retired links, and what their flows do then; and the
ports: their lanes, narrowing and widening (spec/01_architecture.md, R24–R27, R37, R58). -/
namespace Sys2Proof.Machine

/-! ## Flumes, links and routes (R24–R27) -/

/-- Change a flume. -/
def Dev.setFlume (d : Dev) (n : Nat) (g : Flume → Flume) : Dev := { d with sys.flumes := amAdj n g d.sys.flumes }

/-- The links of the route in use. -/
def Flume.route (f : Flume) : List Nat := if f.onAlt then f.altLinks else f.links

/-- Are links clear of every retired link? -/
def Dev.linksClear (d : Dev) (ls : List Nat) : Bool := !ls.any d.sys.retiredLinks.contains

/-- The drains whose flumes are down pause with cause "route" (R27, R104). -/
def Dev.pauseRoutes (d : Dev) : Dev := d.pauseWhere (fun n _ => d.drainDown (d.streamOwner n)) 4

/-- The connections of a port whose receive flume is down close as connection loss (R27, R255). -/
def Dev.closeRoutes (d : Dev) : Dev :=
  (d.hq.conns.filter (fun p => d.portRxDown p.2.port)).foldl (fun (d : Dev) p => d.loseConn p.1 true) d

/-- A flume goes down (R25): 0x0033 once, and its flow behaves as the table Lost transfers and missing routes gives. -/
def Dev.flumeDown (d : Dev) (n : Nat) : Dev :=
  ((d.setFlume n (fun f => { f with down := true, stopped := false, switchTo := false })).raise 0x0033
    [(2, n)]).pauseRoutes.closeRoutes

/-- A flume whose route crosses a retired link stops for its move to the alternate route, or goes down (R25, R26). -/
def Dev.rerouteFlume (d : Dev) (n : Nat) : Dev :=
  match amFind n d.sys.flumes with
  | none => d
  | some f =>
    if f.down ∨ d.linksClear f.route then d
    else if !f.onAlt && f.hasAlt && d.linksClear f.altLinks then
      d.setFlume n (fun f => { f with stopped := true, switchTo := true })
    else d.flumeDown n

/-- Reroute every flume. -/
def Dev.rerouteAll (d : Dev) : Dev := d.sys.flumes.foldl (fun (d : Dev) p => d.rerouteFlume p.1) d

/-- Retire a link (R25): 0x0031, Degraded Service. -/
def Dev.retireLink (d : Dev) (k : Nat) : Dev :=
  if d.sys.retiredLinks.contains k then d
  else
    let d := { d with sys.retiredLinks := d.sys.retiredLinks ++ [k] }
    let d := d.wr .SYS_FABRIC_STATUS_LINKS_UP (d.rd .SYS_FABRIC_STATUS_LINKS_UP - 1)
    ((d.raise 0x0031 [(2, k)]).degrade 0 k).rerouteAll

/-- A lasting fault of a link (R25, R222). -/
def Dev.linkLasting (d : Dev) (k : Nat) : Dev :=
  let n := amGet 0 k d.sys.linkLasting + 1
  let d := { d with sys.linkLasting := amSet 0 k n d.sys.linkLasting
                    sys.suspectLinks := (d.sys.suspectLinks ++ [k]).eraseDups }
  let d := d.lastingFault (0x20000 + k) n
  if Config.linkThreshold ≤ n then d.retireLink k else d

/-- FLUME_ROUTE_SWITCH (R26): once every parcel has left a stopped flume, it takes the alternate route: 0x0032. -/
def Dev.flumeRouteSwitch (d : Dev) (n : Nat) : Dev :=
  match amFind n d.sys.flumes with
  | none => d
  | some f =>
    if !f.stopped ∨ d.sys.poisoned.any (fun x => x.flume == n) then d
    else
      let d := d.setFlume n (fun f => { f with stopped := false, switchTo := false, onAlt := f.onAlt || f.switchTo })
      if f.switchTo then d.raise 0x0032 [(2, n)] else d

/-- Count a poisoned parcel: POISON_SEEN, the counter, 0x0030 (R24). -/
def Dev.countPoison (d : Dev) (n k : Nat) : Dev :=
  ((d.wr .SYS_FABRIC_STATUS_POISON_SEEN 1).cnt .SYS_FABRIC_POISON_CNT).raise 0x0030 [(2, n), (2, k)]

/-- PARCEL_POISON (R24): a beat on a link of a flume's route carries an uncorrectable error. The parcel is not consumed and
its first stage sends it once more. -/
def Dev.parcelPoison (d : Dev) (n k : Nat) (op : FlowOp) : Dev :=
  match amFind n d.sys.flumes with
  | none => d
  | some f =>
    if f.down ∨ !f.route.contains k then d
    else
      let d := d.countPoison n k
      { d with sys.poisoned := d.sys.poisoned ++ [⟨n, k, op⟩] }

/-- A lost packet of a frame (R24, R27): it counts as lost, and the frame is repaired or committed incomplete. -/
def Dev.losePacket (d : Dev) (n num k : Nat) : Dev :=
  match d.stream n with
  | none => d
  | some x => match x.frames.find? (fun f => f.num == num && f.state == 1) with
    | none => d
    | some f => (d.setFrame n f.id (fun f => { f with placed := f.placed.filter (· != k) })).beginRepair n f.id

/-- A lost frame or thumbnail on its way to a filter (R27): no post is made; the default verdict applies at its budget. -/
def Dev.losePost (d : Dev) (n num : Nat) : Dev :=
  match d.stream n with
  | none => d
  | some x => match x.frames.find? (fun f => f.num == num && f.pendingVerdict) with
    | none => d
    | some f =>
      let t := d.rd .CAP_STREAM_FILTER_TASK n
      let y := d.task t
      let keep := y.posts.filter (fun p => p.frame != some (n, f.id))
      let gone := y.posts.length - keep.length
      { (d.setTask t { y with posts := keep }) with eft.pool := d.eft.pool - gone }.refreshTask t

/-- A drain's stage failed (R27, R222): retried once; a lasting failure leaves the frame frozen and pauses the drain. -/
def Dev.loseDrain (d : Dev) (n num : Nat) (retry : Bool) : Dev :=
  match d.dur.txns.find? (fun t => decide (t.stage ≤ 1) && (match t.kind with
      | .frame a b _ _ _ => a == n && (match (d.stream n).bind (fun x => x.frame b) with | some f => f.num == num | none => false)
      | _ => false)) with
  | none => d
  | some t =>
    if !retry then d.transient (0x40000 + n) 1
    else match t.kind with
      | .frame _ b _ _ _ => (d.lastingFault (0x40000 + n) 1).drainFail n b t.cseq 4
      | _ => d

/-- A relocation failed (R27, R222): retried once; a lasting failure leaves the source in place. -/
def Dev.loseRelocation (d : Dev) (sb : Nat) (retry : Bool) : Dev :=
  if !retry then d.transient (0x80000 + sb) 2
  else
    let hit := fun (t : Txn) => t.stage == 0 && (match t.kind with | .relocate o => o.sb == sb | _ => false)
    let cs := (d.dur.txns.filter hit).map (·.cseq)
    let d := d.lastingFault (0x80000 + sb) 2
    ({ d with
        dur.txns := d.dur.txns.map (fun t : Txn => if hit t then { t with stage := 3, stripes := [], todo := 0 } else t)
        fls.staged := d.fls.staged.filter (fun x : Staged => !cs.contains x.block.cseq) }).settle

/-- What a lost operation means to its flow: the table Lost transfers and missing routes, column Operation failed by R24.
`retry` says that the one retry of R222 failed too. -/
def Dev.loseOp (d : Dev) (retry : Bool) : FlowOp → Dev
  | .ingest _ n num k => d.losePacket n num k
  | .thumbnail n num => d.losePost n num
  | .drain n num => d.loseDrain n num retry
  | .host h => d.failWrite h 0 0x06 false none
  | .mirrorWrite h => d.failWrite h 0 0x06 false none
  | .gc sb => d.loseRelocation sb retry
  | .forward _ => d

/-- Take the oldest poisoned parcel of a flume out. -/
def takePoisoned (n : Nat) : List PoisonedParcel → Option (PoisonedParcel × List PoisonedParcel)
  | [] => none
  | x :: xs => if x.flume = n then some (x, xs) else (takePoisoned n xs).map (fun p => (p.1, x :: p.2))

/-- PARCEL_RESEND_ARRIVE (R24): the repeated parcel arrives clean, a transient fault, or poisoned again: the link is suspect
and the operation fails. -/
def Dev.parcelResend (d : Dev) (n : Nat) (clean retry : Bool) : Dev :=
  match takePoisoned n d.sys.poisoned with
  | none => d
  | some (x, rest) =>
    let d := { d with sys.poisoned := rest }
    if clean then d.transient (0x20000 + x.link) 0
    else
      let d := ((d.countPoison n x.link).cnt .SYS_FLUME_LOSS_LOST).loseOp retry x.op
      d.linkLasting x.link

/-! ## Ports and lanes (R37, R48, R58) -/

/-- WIDTH of a port's LANES record. -/
def Dev.portWidth (d : Dev) (p : Nat) : Nat := match d.lanes p with | some r => leAt 1 1 r | none => 0
/-- KIND of a port's LANES record. -/
def Dev.portKind (d : Dev) (p : Nat) : Nat := match d.lanes p with | some r => leAt 2 1 r | none => 0

/-- The lanes of the port, relative to its lowest: eight at most are shown; a PCIe link has its own count. -/
def Dev.portLanes (d : Dev) (p : Nat) : List Nat := List.range (if d.portKind p = 0 then 2 ^ d.portWidth p else 8)

/-- Is lane `j` of a port adapted? -/
def Dev.laneOk (d : Dev) (p j : Nat) : Bool := d.rd .NET_LANE_STATUS_ADAPTED (p * 8 + j) == 1

/-- The widest group of working lanes by R37: its width code and offset. -/
def Dev.runGroup (d : Dev) (p : Nat) : Option (Nat × Nat) :=
  ([3, 2, 1, 0].filter (fun w => decide (w ≤ d.portWidth p))).findSome? (fun w =>
    ((List.range (2 ^ (d.portWidth p - w))).map (· * 2 ^ w)).findSome? (fun o =>
      if (List.range (2 ^ w)).all (fun j => d.laneOk p (o + j)) then some (w, o) else none))

/-- Show a lane as adapted or failed. -/
def Dev.setLane (d : Dev) (p j : Nat) (ok : Bool) : Dev :=
  let d := d.wr .NET_LANE_STATUS_ADAPTED (b2n ok) (p * 8 + j)
  let mask := ((d.portLanes p).map (fun j => if d.laneOk p j then 2 ^ j else 0)).sum
  d.wr .NET_PORT_STATUS_LANES_OK mask p

/-- Every port with lanes in the image. -/
def Dev.ports (d : Dev) : List Nat := (d.secRecs 1).map (leAt 0 1)

/-- Is every lane of a port adapted? -/
def Dev.portWhole (d : Dev) (p : Nat) : Bool := (d.portLanes p).all (d.laneOk p)

/-- The lane reason clears when every lane that the image uses is up again (R435). -/
def Dev.lanesBack (d : Dev) : Dev := if d.ports.all d.portWhole then d.undegrade 1 else d

/-- A port comes up on a group, or goes down (R37). A PCIe link narrows as PCIe 6.0 defines, which the spec does not
give: its running width and offset are then free values. `lane` is the lane that the degraded reason names. -/
def Dev.bringPort (d : Dev) (p lane : Nat) : Dev :=
  if d.portKind p = 0 then
    match d.runGroup p with
    | none => ((((d.wr .NET_PORT_STATUS_UP 0 p).wr .NET_PORT_STATUS_RUN_WIDTH 0 p).wr .NET_PORT_STATUS_RUN_OFFSET 0 p).raise
        0x2191 [(2, p)]).degrade 1 lane
    | some (w, o) =>
      let d := ((d.wr .NET_PORT_STATUS_UP 1 p).wr .NET_PORT_STATUS_RUN_WIDTH w p).wr .NET_PORT_STATUS_RUN_OFFSET o p
      if w = d.portWidth p then d else (d.raise 0x2190 [(2, p), (2, w), (2, o)]).degrade 1 lane
  else if d.portWhole p then
    ((d.wr .NET_PORT_STATUS_UP 1 p).wr .NET_PORT_STATUS_RUN_WIDTH 0 p).wr .NET_PORT_STATUS_RUN_OFFSET 0 p
  else if (d.portLanes p).any (d.laneOk p) then
    let (w, d) := d.draw 2
    let (o, d) := d.draw 3
    let d := ((d.wr .NET_PORT_STATUS_UP 1 p).wr .NET_PORT_STATUS_RUN_WIDTH w p).wr .NET_PORT_STATUS_RUN_OFFSET o p
    (d.raise 0x2190 [(2, p), (2, w), (2, o)]).degrade 1 lane
  else ((d.wr .NET_PORT_STATUS_UP 0 p).raise 0x2191 [(2, p)]).degrade 1 lane

/-- Does a port run on fewer lanes than its record gives, or on none? -/
def Dev.portNarrow (d : Dev) (p : Nat) : Bool :=
  d.rd .NET_PORT_STATUS_UP p == 0 || (d.portKind p == 0 && d.rd .NET_PORT_STATUS_RUN_WIDTH p != d.portWidth p)

/-- Is lane `j` in the group that a port runs on? -/
def Dev.laneRuns (d : Dev) (p j : Nat) : Bool :=
  d.portKind p != 0 ||
  decide (d.rd .NET_PORT_STATUS_RUN_OFFSET p ≤ j ∧ j < d.rd .NET_PORT_STATUS_RUN_OFFSET p + 2 ^ d.rd .NET_PORT_STATUS_RUN_WIDTH p)

/-- LANE_LOCK_LOSS (R37): an adapted lane of a port that is up loses lock; when its one readaptation fails, the port narrows
or goes down, if it ran on that lane. -/
def Dev.laneLockLoss (d : Dev) (p j : Nat) (readapts : Bool) : Dev :=
  if (d.lanes p).isNone ∨ !(d.portLanes p).contains j ∨ d.rd .NET_PORT_STATUS_UP p = 0 ∨ !d.laneOk p j ∨ readapts then d
  else
    let runs := d.laneRuns p j
    let d := (d.cnt .NET_LANE_STATUS_FAILS (p * 8 + j)).setLane p j false
    if runs then d.bringPort p (p + j) else d.degrade 1 (p + j)

/-- The port is at its configured width again: 0x2193 (R37). -/
def Dev.widenPort (d : Dev) (p : Nat) : Dev := ((d.bringPort p p).raise 0x2193 [(2, p)]).lanesBack

/-- Lanes of a port are tried again: those of `ok` adapt, the others fail once more (R37). -/
def Dev.tryLanes (d : Dev) (p : Nat) (ok : Nat → Bool) : Dev :=
  let bad := (d.portLanes p).filter (fun j => !d.laneOk p j)
  if bad.isEmpty then d
  else
    let narrow := d.portNarrow p
    let down := d.rd .NET_PORT_STATUS_UP p = 0
    let d := bad.foldl (fun (d : Dev) j =>
      if ok j then d.setLane p j true else d.cnt .NET_LANE_STATUS_FAILS (p * 8 + j)) d
    if d.portWhole p then
      let d := d.raise 0x2192 [(2, p)]
      if narrow && d.rd .NET_PORT_CTRL_AUTO_WIDEN p == 1 then d.widenPort p
      else if down then d.widenPort p
      else d.lanesBack
    else if down && (d.portLanes p).any (d.laneOk p) then d.bringPort p (p + (bad.headD 0))
    else d

/-- LANE_RETRY (R37): every 10 s the headgate tries each failed lane of a port again. -/
def Dev.laneRetry (d : Dev) (p : Nat) (ok : Nat → Bool) : Dev :=
  if (d.lanes p).isNone then d else d.tryLanes p ok

/-- A write of NET_PORT_CTRL.WIDEN (R37): ignored unless every lane is adapted. -/
def Dev.portWiden (d : Dev) (p : Nat) : Dev :=
  if (d.lanes p).isNone ∨ !d.portWhole p ∨ !d.portNarrow p then d else d.widenPort p

end Sys2Proof.Machine
end

