-- ==== Sys2Proof/Machine/Image.lean ====
section
/-! DEFINITION. The Uzorov structure image (R42–R57, R69, R186, R338): how its bytes are taken apart, and the validation
stages with their causes and offsets. -/
namespace Sys2Proof.Machine

/-! ## Layout (R42–R46) -/

/-- Record size of a section type (the table Section types; R186 for FLASH). -/
def recSize (type : Nat) : Nat :=
  match type with
  | 1 => 16 | 2 => 64 | 3 => 8 | 4 => 48 | 5 => 32 | 6 => 16 | 7 => 16 | 8 => 16 | 9 => 64 | _ => 8

/-- The most records a section holds (R44). -/
def maxRecs (type : Nat) : Nat :=
  match type with
  | 1 => 128 | 2 => 256 | 3 => 256 | 4 => 16384 | 5 => 64 | 6 => 64 | 7 => 4352 | 8 => 16 | 9 => 32 | _ => 4

/-- A format as major × 256 + minor. -/
abbrev Format := Nat

/-- The first format that defines a section type (the table Section types). -/
def fromFormat (type : Nat) : Format :=
  match type with
  | 8 => 0x201 | 9 => 0x202 | 10 => 0x301 | _ => 0x200

/-- Bytes of a section's trailer: PF_MAP of LANES from format 3.2 (R48). -/
def trailerLen (fmt : Format) (type : Nat) : Nat := if type = 1 ∧ 0x302 ≤ fmt then 64 else 0

/-- A field of the image header. -/
def hdr (bs : List Byte) (o n : Nat) : Nat := leAt o n bs

/-- FMT_MAJOR and FMT_MINOR. -/
def imgFormat (bs : List Byte) : Format := hdr bs 5 1 * 256 + hdr bs 4 1

/-- The signature entries of R46 in a signature block, by format major: ALG and signature bytes; none where they are not as
R46 states. -/
def sigEntries (major : Nat) (b : List Byte) : Option (List (Nat × List Byte)) :=
  let one := leAt 0 2 b == 1 && leAt 2 2 b == 96
  if major = 2 then
    if one && b.length == 100 then some [(1, sliceB 4 96 b)] else none
  else
    let c := b.drop 100
    if one && leAt 0 2 c == 2 && leAt 2 2 c == 4627 && b.length == 4731 then
      some [(1, sliceB 4 96 b), (2, sliceB 4 4627 c)]
    else none

/-- Do the signatures verify under one key set that the fuses authorise for a use: bit 0 firmware, bit 1 structure images
(R46, R426)? -/
def Dev.sigsVerify (d : Dev) (use : Nat) (msg : List Byte) (sigs : List (Nat × List Byte)) : Option Nat :=
  let f := d.mgt.fuses
  let authorised := fun (k : KeySet) => (List.range 4).any (fun i =>
    f.hashes.getD i [] == Config.sha384 (k.ecdsa ++ k.mldsa) && bitOf use (f.use.getD i 0) && !f.revoked.getD i true)
  let ks := d.mgt.boot.keySets
  (List.range ks.length).find? (fun j => match ks[j]? with
    | some k => authorised k && sigs.all (fun s => Config.sigOk s.1 (if s.1 = 1 then k.ecdsa else k.mldsa) msg s.2)
    | none => false)

/-- A directory entry with its section (R44). -/
def dirSection (fmt : Format) (bs : List Byte) (i : Nat) : Section :=
  let o := 256 + 32 * i
  let type := leAt o 2 bs
  let off := leAt (o + 4) 4 bs
  let n := leAt (o + 12) 4 bs
  let sz := recSize type
  ⟨type, off, (List.range n).map (fun k => sliceB (off + k * sz) sz bs), sliceB (off + n * sz) (trailerLen fmt type) bs,
    sliceB (o + 16) 16 bs⟩

/-- A fault: cause and byte offset in the image. -/
abbrev ImgFault := Nat × Nat

/-! ## Stages 1 to 4 (R57) -/

/-- Stage 1, envelope: the cause. -/
def envelopeFault (bs : List Byte) : Option Nat :=
  let h := hdr bs
  let zero := fun o n => allZero (sliceB o n bs)
  let sigO := h 0x80 4
  let sigL := h 0x84 4
  if bs.length < 256 ∨ h 0 4 ≠ 0x56525A55 ∨ h 6 2 ≠ 256 ∨ h 8 4 > 16 * 2 ^ 20 ∨ h 8 4 < sigO + sigL ∨ bs.length < h 8 4 ∨
      sigO % 64 ≠ 0 ∨ sigO < 256 ∨ (sigEntries (h 5 1) (sliceB sigO sigL bs)).isNone ∨ leAt 0x18 8 bs = 0 ∨ h 0x0C 2 < 5 ∨
      10 < h 0x0C 2 ∨ !zero 0x0E 2 ∨ !zero 0x15 3 ∨ !zero 0x88 120 then some 0x01
  else if h 0x10 4 ≠ 0x4B440512 ∨ 0xB1 < h 0x14 1 then some 0x02
  else if !decide (h 5 1 ∈ [2, 3]) ∨ 2 < h 4 1 then some 0x03
  else none

/-- Stage 3, digests. -/
def digestFault (bs : List Byte) : Bool :=
  let sigO := hdr bs 0x80 4
  Config.sha384 ((bs.take sigO).drop 256) != sliceB 0x50 48 bs ||
  (List.range (hdr bs 0x0C 2)).any (fun i =>
    let o := 256 + 32 * i
    (Config.sha384 (sliceB (leAt (o + 4) 4 bs) (leAt (o + 8) 4 bs) bs)).take 16 != sliceB (o + 16) 16 bs)

/-- One directory entry (stage 4): order, type, version, alignment, bounds, overlap, count and length. -/
def dirEntryFault (fmt : Format) (bs : List Byte) (n i : Nat) : Option ImgFault :=
  let o := 256 + 32 * i
  let f := fun k w => leAt (o + k) w bs
  let type := f 0 2
  let off := f 4 4
  let len := f 8 4
  let before := (List.range i).map (fun j => (leAt (256 + 32 * j + 4) 4 bs, leAt (256 + 32 * j + 8) 4 bs))
  if type = 0 ∨ 10 < type ∨ fmt < fromFormat type ∨ (0 < i ∧ type ≤ leAt (o - 32) 2 bs) then some (0x06, o)
  else if f 2 1 ≠ 1 then some (0x06, o + 2)
  else if f 3 1 ≠ 0 then some (0x06, o + 3)
  else if off % 64 ≠ 0 ∨ off < 256 + 32 * n ∨ hdr bs 0x80 4 < off + len ∨
      before.any (fun p => decide (off < p.1 + p.2 ∧ p.1 < off + len)) then some (0x06, o + 4)
  else if maxRecs type < f 12 4 then some (0x06, o + 12)
  else if len ≠ f 12 4 * recSize type + trailerLen fmt type then some (0x06, o + 8)
  else none

/-- Stage 4, directory. -/
def directoryFault (bs : List Byte) : Option ImgFault :=
  let n := hdr bs 0x0C 2
  let fmt := imgFormat bs
  match (List.range n).findSome? (dirEntryFault fmt bs n) with
  | some x => some x
  | none =>
    let types := (List.range n).map (fun i => leAt (256 + 32 * i) 2 bs)
    if [1, 2, 3, 4, 5].all types.contains then none else some (0x07, 256)

/-! ## Stage 5, records (R47, R186) -/

/-- One rule of a record: the offset of the field it speaks of, the cause, and when it holds. -/
abbrev FieldRule := Nat × Nat × (List Byte → Bool)

/-- A field is at most `top` (cause 0x09). -/
def upTo (o n top : Nat) : FieldRule := (o, 0x09, fun r => decide (leAt o n r ≤ top))
/-- A field lies in a range (cause 0x09). -/
def within (o n lo hi : Nat) : FieldRule := (o, 0x09, fun r => decide (lo ≤ leAt o n r ∧ leAt o n r ≤ hi))
/-- An enumerated field (cause 0x08). -/
def oneOf (o n : Nat) (vs : List Nat) : FieldRule := (o, 0x08, fun r => vs.contains (leAt o n r))
/-- Reserved bytes (cause 0x08). -/
def rsvd (o n : Nat) : FieldRule := (o, 0x08, fun r => allZero (sliceB o n r))
/-- Only the bits below `k` may be set (cause 0x08). -/
def bitsBelow (o n k : Nat) : FieldRule := (o, 0x08, fun r => decide (leAt o n r < 2 ^ k))
/-- A condition on several fields, reported at one of them. -/
def cond (o cause : Nat) (f : List Byte → Bool) : FieldRule := (o, cause, f)

/-- The rules of a section's records, in field order. -/
def recRules (fmt : Format) (type : Nat) : List FieldRule :=
  match type with
  | 1 => [upTo 0 1 127, oneOf 1 1 [0, 1, 2, 3], oneOf 2 1 [0, 1, 2], oneOf 3 1 [0, 1],
      cond 5 0x09 (fun r => decide (leAt 5 1 r ≤ 127 ∨ leAt 5 1 r = 0xFF)), within 6 2 1518 9216, bitsBelow 8 4 4, rsvd 12 4]
  | 2 => [oneOf 1 1 [0, 1], upTo 2 1 63, rsvd 3 1, upTo 4 2 256, upTo 6 2 1000, upTo 8 2 1000, upTo 10 2 1000, rsvd 0x1E 2,
      within 0x20 4 1 800000, rsvd 0x24 28]
  | 3 => [upTo 0 1 63, upTo 2 2 255, cond 4 0x09 (fun r => decide (1 ≤ leAt 4 2 r ∧ leAt 2 2 r + leAt 4 2 r ≤ 256)), rsvd 6 2]
  | 4 => [upTo 0 2 16383, oneOf 2 1 [0, 1, 2], within 3 1 1 8, rsvd 5 3] ++
      (List.range 8).map (fun j => cond (8 + 2 * j) 0x08 (fun r =>
        if j < leAt 3 1 r then decide (1 ≤ leAt (8 + 2 * j) 2 r / 1024 ∧ leAt (8 + 2 * j) 2 r / 1024 ≤ 15)
        else leAt (8 + 2 * j) 2 r == 0)) ++
      (if fmt < 0x301 then [rsvd 0x20 8] else []) ++ [rsvd 0x28 8]
  | 5 => [upTo 0 1 63, oneOf 1 1 [0, 1, 2, 3, 4, 5, 6, 7, 8], upTo 2 1 8, within 3 1 1 255, bitsBelow 3 1 4,
      cond 4 0x09 (fun r => leAt 4 1 r == 0 || !decide (1 ≤ leAt 1 1 r ∧ leAt 1 1 r ≤ 5)), rsvd 5 3,
      cond 8 0x09 (fun r => leAt 8 8 r % 2 ^ 26 == 0),
      cond 16 0x09 (fun r => leAt 16 8 r % 2 ^ 26 == 0 && leAt 16 8 r != 0 && decide (leAt 8 8 r + leAt 16 8 r ≤ memSize)), rsvd 0x18 8]
  | 6 => [upTo 0 1 63, oneOf 1 1 [0, 1, 2, 3], rsvd 3 1, upTo 4 4 1048575,
      cond 8 0x09 (fun r => decide (1 ≤ leAt 8 4 r ∧ leAt 4 4 r + leAt 8 4 r ≤ 1048576)), rsvd 12 4]
  | 7 => [upTo 0 2 4351, bitsBelow 2 2 1, within 4 4 1 800000, within 8 4 16 1048576] ++
      (if fmt < 0x302 then [rsvd 12 1] else [cond 12 0x09 (fun r =>
        decide (leAt 12 1 r ≤ 128 ∧ (leAt 12 1 r = 0 ∨ leAt 0 2 r < 4096)))]) ++ [rsvd 13 3]
  | 8 => [upTo 0 1 15, oneOf 1 1 [0, 1, 2, 3], upTo 2 1 63, rsvd 3 1,
      cond 4 0x09 (fun r =>
        let t := leAt 4 4 r
        if leAt 0 1 r < 8 then decide (t ≤ 10000) else leAt 1 1 r == 0 || decide (100 ≤ t ∧ t ≤ 1000000)),
      cond 8 0x08 (fun r => decide (leAt 0 1 r < 8) || leAt 8 8 r == 0)]
  | 9 => [upTo 0 1 31, bitsBelow 1 1 2,
      cond 2 0x09 (fun r => decide (800 ≤ leAt 2 2 r ∧ leAt 2 2 r ≤ 4800) && leAt 2 2 r % 200 == 0),
      cond 4 0x09 (fun r => leAt 4 4 r != 0), cond 0x10 0x09 (fun r => leAt 0x10 8 r != 0),
      cond 0x18 0x09 (fun r => decide (8704 ≤ leAt 0x18 4 r ∧ leAt 0x18 4 r ≤ 34816) && leAt 0x18 4 r % 4352 == 0),
      within 0x1C 2 64 4096, oneOf 0x1E 1 [1, 2, 4], oneOf 0x1F 1 [3, 4], within 0x20 2 10 500, within 0x22 2 100 10000,
      within 0x24 2 1 500, within 0x26 1 1 255, within 0x27 1 1 100, within 0x28 2 100 2000, within 0x2A 2 50 1000,
      within 0x2C 2 50 1000, within 0x2E 2 50 1000, within 0x30 1 25 60,
      cond 0x31 0x09 (fun r => leAt 0x31 1 r == 0 || decide (30 ≤ leAt 0x31 1 r ∧ leAt 0x31 1 r ≤ 150)),
      within 0x34 1 40 160, within 0x35 1 1 8, within 0x36 1 1 8, within 0x37 1 1 8, within 0x38 1 1 16, rsvd 0x3C 4]
  | _ => [oneOf 0 2 [1, 2, 3, 4], rsvd 2 2,
      cond 4 0x09 (fun r =>
        let v := leAt 4 4 r
        match leAt 0 2 r with
        | 1 => decide (100 ≤ v ∧ v ≤ 1000000)
        | 3 => decide (v ≤ 500)
        | _ => true),
      cond 4 0x08 (fun r => decide (leAt 0 2 r ∈ [1, 3]) || decide (leAt 4 4 r ≤ 1))]

/-- The first rule that a record breaks: cause and offset in the record. -/
def recFault (rules : List FieldRule) (r : List Byte) : Option (Nat × Nat) :=
  (rules.find? (fun f => !f.2.2 r)).map (fun f => (f.2.1, f.1))

/-- Where a field of a section's record lies in the image. -/
def Section.at_ (s : Section) (i o : Nat) : Nat := s.off + i * recSize s.type + o

/-- The first record of a section that a test finds at fault: its cause and place. -/
def Section.scan (s : Section) (f : Nat → List Byte → Option (Nat × Nat)) : Option ImgFault :=
  s.recs.zipIdx.findSome? (fun p => (f p.2 p.1).map (fun x => (x.1, s.at_ p.2 x.2)))

/-- Stage 5 for one section; byte 0 of PF_MAP holds 0 (R48). -/
def sectionFault (fmt : Format) (s : Section) : Option ImgFault :=
  match s.scan (fun _ r => recFault (recRules fmt s.type) r) with
  | some x => some x
  | none => if !s.trailer.isEmpty && leAt 0 1 s.trailer != 0 then some (0x08, s.at_ s.recs.length 0) else none

/-! ## Stage 6, across sections -/

/-- The section of a type; an empty one where it is absent. -/
def secOf (ss : List Section) (type : Nat) : Section := (ss.find? (fun s => s.type == type)).getD ⟨type, 0, [], [], []⟩

/-- Lanes of a LANES record (R48). -/
def recLanes (r : List Byte) : List Nat :=
  if leAt 2 1 r ≠ 0 then List.range 16 else (List.range (2 ^ leAt 1 1 r)).map (· + leAt 0 1 r)

/-- The two lists share a member. -/
def meet (a b : List Nat) : Bool := a.any b.contains

/-- R48: alignment, span and KIND rules, and lanes covered twice. -/
def lanesFault (s : Section) : Option ImgFault :=
  s.scan (fun i r =>
    let p := leAt 0 1 r
    let w := leAt 1 1 r
    let n := 2 ^ w
    let before := s.recs.take i
    if leAt 2 1 r ≠ 0 then
      if p ≠ 0 then some (0x09, 0)
      else if w ≠ 0 then some (0x09, 1)
      else if before.any (fun q => meet (recLanes q) (recLanes r)) then some (0x0A, 0)
      else none
    else if p % min n 4 ≠ 0 ∨ 128 < p + n ∨ (p < 64 ∧ 64 < p + n) then some (0x09, 0)
    else if before.any (fun q => meet (recLanes q) (recLanes r)) then some (0x0A, 0)
    else none)

/-- Is instance `n` enabled by the INSTANCES section? -/
def enabledIn (s : Section) (n : Nat) : Bool := s.recs.any (fun r => leAt 0 1 r == n && leAt 1 1 r == 1)

/-- The sums of R50: field offset, width and limit. -/
def instSums (userGb : Nat) : List (Nat × Nat × Nat) :=
  [(6, 2, 1000), (8, 2, 1000), (10, 2, 1000), (4, 2, 256), (0x14, 4, 65536), (0x10, 4, 1048576), (0x18, 4, 65536),
   (0x1C, 2, 4096), (0x0C, 4, userGb)]

/-- R50. -/
def instancesFault (ss : List Section) (userGb : Nat) : Option ImgFault :=
  let s := secOf ss 2
  let cores := secOf ss 3
  let dup := s.scan (fun i r => if (s.recs.take i).any (fun q => leAt 0 1 q == leAt 0 1 r) then some (0x0A, 0) else none)
  if dup.isSome then dup
  else if !enabledIn s 0 then
    some (0x0F, s.at_ (s.recs.findIdx (fun r => leAt 0 1 r == 0) % (s.recs.length + 1)) 1)
  else
    let above := s.scan (fun i r =>
      if leAt 1 1 r = 1 ∧ (instSums userGb).any (fun f =>
          decide (f.2.2 < (((s.recs.take (i + 1)).filter (fun q => leAt 1 1 q == 1)).map (leAt f.1 f.2.1)).sum))
      then some (0x0B, 0) else none)
    if above.isSome then above
    else s.scan (fun _ r =>
      let n := leAt 0 1 r
      let mine := cores.recs.filter (fun c => leAt 1 1 c == n)
      if leAt 1 1 r = 1 ∧ !mine.isEmpty ∧ !mine.any (fun c => leAt 0 1 c == leAt 2 1 r) then some (0x0F, 2) else none)

/-- R52: groups of one owner, cores in one group. -/
def coresFault (s : Section) : Option ImgFault :=
  s.scan (fun i r =>
    let before := s.recs.take i
    if before.any (fun q => leAt 0 1 q == leAt 0 1 r && leAt 1 1 q != leAt 1 1 r) then some (0x0A, 0)
    else if before.any (fun q => decide (leAt 2 2 q < leAt 2 2 r + leAt 4 2 r ∧ leAt 2 2 r < leAt 2 2 q + leAt 4 2 q)) then some (0x0A, 0)
    else none)

/-- May block code `c` stand as the `j`-th of `n` stages (the table Stage block codes)? -/
def stagePlace (c j n : Nat) : Bool :=
  match c with
  | 0x01 | 0x08 | 0x0A => j == 0
  | 0x02 | 0x07 | 0x09 => j + 1 == n
  | 0x03 => j != 0
  | 0x05 | 0x06 | 0x0D | 0x0F => j != 0 && j + 1 != n
  | _ => true

/-- The owner of a stage's unit (R53): none where the image has no such unit, 0 where anyone may name it. -/
def stageOwner (ss : List Section) (code unit : Nat) : Option Nat :=
  let owner := fun (type key keyLen own : Nat) =>
    ((secOf ss type).recs.find? (fun r => leAt key keyLen r == unit)).map (fun r => leAt own 1 r)
  match code with
  | 0x01 | 0x02 => owner 1 0 1 4
  | 0x03 => match ((secOf ss 7).recs.find? (fun r => leAt 0 2 r == unit)) with
    | some r => match (secOf ss 1).recs.find? (fun l => leAt 0 1 l + 1 == leAt 12 1 r) with
      | some l => some (leAt 4 1 l)
      | none => some 0
    | none => some 0
  | 0x07 | 0x08 => if unit < 32 then some 0 else none
  | 0x09 | 0x0A => owner 5 0 1 4
  | 0x0C => owner 3 0 1 1
  | 0x0D => owner 6 0 1 2
  | 0x0F => if unit < 16 then some 0 else none
  | _ => if unit = 0 then some 0 else none

/-- R53. -/
def flumesFault (ss : List Section) : Option ImgFault :=
  let s := secOf ss 4
  s.scan (fun i r =>
    let n := leAt 3 1 r
    let stage := fun j => leAt (8 + 2 * j) 2 r
    if (s.recs.take i).any (fun q => leAt 0 2 q == leAt 0 2 r) then some (0x0A, 0)
    else match (List.range n).find? (fun j => !stagePlace (stage j / 1024) j n) with
    | some j => some (0x0E, 8 + 2 * j)
    | none => match (List.range n).find? (fun j => match stageOwner ss (stage j / 1024) (stage j % 1024) with
        | none => true
        | some o => o != 0 && o != leAt 4 1 r) with
      | some j => some (0x0F, 8 + 2 * j)
      | none => if leAt 0x18 8 r &&& leAt 0x20 8 r ≠ 0 then some (0x0D, 0x20) else none)

/-- R55. -/
def regionsFault (s : Section) : Option ImgFault :=
  let kind := fun (r : List Byte) => leAt 1 1 r
  let overlap := s.scan (fun i r => if (s.recs.take i).any (fun q => leAt 0 1 q == leAt 0 1 r ||
      decide (leAt 8 8 q < leAt 8 8 r + leAt 16 8 r ∧ leAt 8 8 r < leAt 8 8 q + leAt 16 8 q)) then some (0x0A, 0) else none)
  if overlap.isSome then overlap
  else
    let copies := s.scan (fun i r =>
      let before := s.recs.take i
      let other := before.find? (fun q => decide (kind q ∈ [1, 2]) && kind q != kind r)
      if kind r ∈ [1, 2] ∧ (leAt 16 8 r > 8 * 2 ^ 30 ∨ before.any (fun q => kind q == kind r) ∨
          (match other with
            | some q => leAt 16 8 q != leAt 16 8 r || leAt 3 1 q &&& leAt 3 1 r != 0
            | none => false) = true) then some (0x0C, 0)
      else none)
    if copies.isSome then copies
    else if [0, 1, 2, 3, 4, 5, 6].all (fun k => s.recs.any (fun r => kind r == k)) then none else some (0x0C, s.at_ 0 0)

/-- R338: the slices on a stack's channels come to at most 2 GiB. -/
def slicesFault (s : Section) : Option ImgFault :=
  let mask := fun (r : List Byte) => leAt 3 1 r
  let slice := fun (r : List Byte) =>
    let n := 32 * ((List.range 4).filter (fun k => bitOf k (mask r))).length
    let g := 256 * 2 ^ leAt 2 1 r
    if n = 0 then 0 else ceilDiv (leAt 16 8 r) (n * g) * g
  s.scan (fun i _ => if (List.range 4).any (fun k => decide (2 * 2 ^ 30 <
      (((s.recs.take (i + 1)).filter (fun q => bitOf k (mask q))).map slice).sum)) then some (0x0B, 0) else none)

/-- R56, and partitions given twice. An instance that is absent or disabled has no quota to break: its partition is a
fault of reference. -/
def geckoFault (ss : List Section) : Option ImgFault :=
  let s := secOf ss 6
  let on := enabledIn (secOf ss 2)
  s.scan (fun i r =>
    let before := s.recs.take i
    let quota := match (secOf ss 2).recs.find? (fun q => leAt 0 1 q == leAt 2 1 r) with | some q => leAt 0x10 4 q | none => 0
    if before.any (fun q => leAt 0 1 q == leAt 0 1 r ||
        decide (leAt 4 4 q < leAt 4 4 r + leAt 8 4 r ∧ leAt 4 4 r < leAt 4 4 q + leAt 8 4 q)) then some (0x0A, 0)
    else if on (leAt 2 1 r) ∧ quota < (((s.recs.take (i + 1)).filter (fun q => leAt 2 1 q == leAt 2 1 r)).map (leAt 8 4)).sum then some (0x0B, 0)
    else none)

/-- R69 and numbers given twice in SLUICES, TRIGGERS, FLASH and POLICY. -/
def numbersFault (ss : List Section) : Option ImgFault :=
  let dup := fun (type n : Nat) =>
    let s := secOf ss type
    s.scan (fun i r => if (s.recs.take i).any (fun q => leAt 0 n q == leAt 0 n r) then some (0x0A, 0) else none)
  let res := (secOf ss 7).scan (fun _ r =>
    let p := leAt 12 1 r
    if p ≠ 0 ∧ !(secOf ss 1).recs.any (fun l => leAt 0 1 l + 1 == p && leAt 2 1 l == 0 && bitOf 3 (leAt 8 4 l)) then some (0x0F, 12) else none)
  ([dup 7 2, res, dup 8 1, dup 9 1, dup 10 2].find? Option.isSome).join

/-- References to instances and ports that are absent or disabled. -/
def referencesFault (ss : List Section) : Option ImgFault :=
  let on := enabledIn (secOf ss 2)
  let ref := fun (type o : Nat) => (secOf ss type).scan (fun _ r => if on (leAt o 1 r) then none else some (0x0F, o))
  let lanes := secOf ss 1
  let mirror := lanes.scan (fun _ r =>
    if leAt 5 1 r ≠ 0xFF ∧ !lanes.recs.any (fun q => leAt 0 1 q == leAt 5 1 r) then some (0x0F, 5) else none)
  let pf := (lanes.trailer.zipIdx.find? (fun p => p.1 != 0xFF && !on p.1.toNat)).map
    (fun p => (0x0F, lanes.at_ lanes.recs.length p.2))
  let sluice := (secOf ss 7).scan (fun _ r => if 4096 ≤ leAt 0 2 r ∧ !on (leAt 0 2 r - 4096) then some (0x0F, 0) else none)
  ([ref 1 4, mirror, pf, ref 3 1, ref 4 4, ref 5 4, ref 6 2, sluice].find? Option.isSome).join

/-- Stage 6, in the order in which R57 names its rules. -/
def crossFault (ss : List Section) (userGb : Nat) : Option ImgFault :=
  ([lanesFault (secOf ss 1), instancesFault ss userGb, coresFault (secOf ss 3), flumesFault ss, regionsFault (secOf ss 5),
    geckoFault ss, numbersFault ss, slicesFault (secOf ss 5), referencesFault ss].find? Option.isSome).join

/-! ## Stage 7, the device -/

/-- The twin of a route (R489): link k XOR 1 in place of each link. -/
def twin (mask : Nat) : Nat :=
  (((List.range 64).filter (fun k => bitOf k mask)).map (fun k => 2 ^ (if k % 2 = 0 then k + 1 else k - 1))).sum

/-- The alternate route of a FLUMES record (R54): the twin below format 3.1, ALT_LINKS from then on. -/
def altMask (fmt : Format) (r : List Byte) : Nat := if fmt < 0x301 then twin (leAt 0x18 8 r) else leAt 0x20 8 r

/-- The links of a mask. -/
def linksOfMask (m : Nat) : List Nat := (List.range 64).filter (fun k => bitOf k m)

/-- Does a route cross a retired link? -/
def Dev.crosses (d : Dev) (mask : Nat) : Bool := (linksOfMask mask).any d.sys.retiredLinks.contains

/-- Is a clutch retired: every core of it? -/
def Dev.clutchRetired (d : Dev) (k : Nat) : Bool := (List.range 8).all (fun j =>
  match amFind (8 * k + j) d.cor.cores with | some x => x.retired | none => false)

/-- Stage 7: retired clutches, and flumes with no route clear of retired links. -/
def Dev.deviceFault (d : Dev) (fmt : Format) (ss : List Section) : Option ImgFault :=
  let cores := (secOf ss 3).scan (fun _ r =>
    if (List.range (leAt 4 2 r)).any (fun j => d.clutchRetired ((leAt 2 2 r + j) / 8)) then some (0x10, 0) else none)
  if cores.isSome then cores
  else (secOf ss 4).scan (fun _ r =>
    let alt := altMask fmt r
    if d.crosses (leAt 0x18 8 r) ∧ (alt = 0 ∨ d.crosses alt) then some (0x0D, 0x18) else none)

/-! ## Validation (R57) -/

/-- An accepted image, or the stage, cause and offset of its rejection. -/
inductive Checked
  | ok (i : Image)
  | bad (stage cause off : Nat)
deriving DecidableEq, Repr

/-- Stages 1 to 7 of R57. -/
def Dev.checkImage (d : Dev) (bs : List Byte) : Checked :=
  let fmt := imgFormat bs
  let sigO := hdr bs 0x80 4
  let ss := (List.range (hdr bs 0x0C 2)).map (dirSection fmt bs)
  match envelopeFault bs with
  | some c => .bad 1 c 0
  | none =>
    if (d.sigsVerify 1 (bs.take sigO) ((sigEntries (hdr bs 5 1) (sliceB sigO (hdr bs 0x84 4) bs)).getD [])).isNone then .bad 2 0x04 0
    else if digestFault bs then .bad 3 0x05 0
    else match directoryFault bs with
    | some (c, o) => .bad 4 c o
    | none => match ss.findSome? (sectionFault fmt) with
      | some (c, o) => .bad 5 c o
      | none => match crossFault ss d.userCapacity with
        | some (c, o) => .bad 6 c o
        | none => match d.deviceFault fmt ss with
          | some (c, o) => .bad 7 c o
          | none => .ok ⟨hdr bs 5 1, hdr bs 4 1, leAt 0x18 8 bs, ss, bs.take (hdr bs 8 4)⟩

/-- A rejection: STI_REJECT, STI_REJECT_OFFSET, event 0x1001 (R57). -/
def Dev.rejectImage (d : Dev) (stage cause off : Nat) : Dev :=
  (((d.wr .STI_REJECT_STAGE stage).wr .STI_REJECT_CAUSE cause).wr .STI_REJECT_OFFSET off).raise 0x1001
    [(1, cause), (1, stage), (4, off)]

/-- An acceptance: event 0x1002. -/
def Dev.acceptImage (d : Dev) (i : Image) : Dev :=
  d.raise 0x1002 [(8, i.serial), (2, i.major * 256 + i.minor)]

end Sys2Proof.Machine
end

