-- ==== Sys2Proof/Machine/Cores.lean ====
section
/-! DEFINITION. Pypoiz cores: their registers, exceptions and halts (R280, R306–R311), and the retirement of cores (R309,
R446, R447). -/
namespace Sys2Proof.Machine

/-! ## Registers of a core (R280) -/

/-- General register; g0 reads 0. -/
def PCore.gr (x : PCore) (r : BitVec 6) : W64 := if r = 0 then 0 else amGet 0 r.toNat x.g
/-- Write a general register; a write to g0 is discarded. -/
def PCore.setG (x : PCore) (r : BitVec 6) (v : W64) : PCore := if r = 0 then x else { x with g := amSet 0 r.toNat v x.g }
/-- Vector register. -/
def PCore.vr (x : PCore) (r : BitVec 5) : W256 := amGet 0 r.toNat x.v
/-- Write a vector register. -/
def PCore.setV (x : PCore) (r : BitVec 5) (v : W256) : PCore := { x with v := amSet 0 r.toNat v x.v }
/-- Predicate; p0 reads 1. -/
def PCore.pr (x : PCore) (k : BitVec 3) : Bool := k == 0 || x.p.getLsbD k.toNat
/-- Write a predicate; a write to p0 is discarded. -/
def PCore.setP (x : PCore) (k : BitVec 3) (b : Bool) : PCore :=
  if k = 0 then x
  else { x with p := if b then x.p ||| (1#8 <<< k.toNat) else x.p &&& ~~~(1#8 <<< k.toNat) }
/-- st.SUP. -/
def PCore.sup (x : PCore) : Bool := x.st.getLsbD 0
/-- st.IE. -/
def PCore.ie (x : PCore) : Bool := x.st.getLsbD 1
/-- st.EXC. -/
def PCore.exc (x : PCore) : Bool := x.st.getLsbD 2
/-- st.REPA. -/
def PCore.repa (x : PCore) : Bool := x.st.getLsbD 3
/-- st.REPI. -/
def PCore.repi (x : PCore) : Bool := x.st.getLsbD 4
/-- st from its five bits. -/
def stOf (sup ie exc repa repi : Bool) : W64 :=
  BitVec.ofNat 64 (b2n sup + 2 * b2n ie + 4 * b2n exc + 8 * b2n repa + 16 * b2n repi)
/-- Set REPA and REPI. -/
def PCore.setRep (x : PCore) (repa repi : Bool) : PCore := { x with st := stOf x.sup x.ie x.exc repa repi }

/-! ## Exceptions (R306–R311, R446) -/

/-- Core-local registers that an engine reset of the core returns to Reset (R14, R315). -/
def coreResetFlds : List Fld := [.CORE_ID_INSTANCE, .CORE_STATUS_RSVD_WRITE, .CORE_STATUS_IN_WORK, .CORE_EXC_EREP,
  .CORE_EXC_EREPI, .CORE_EXC_PSUP, .CORE_EXC_PIE, .CORE_EXC_ECAUSE, .CORE_EPC, .CORE_ERC, .CORE_VBASE, .CORE_EADDR_LO,
  .CORE_EADDR_HI, .CORE_BUDGET, .CORE_XFER_ERR]

/-- Engine reset of a core: its registers and local memories are lost (R315, R441); the programs of its group are
written again, as to a core that takes over (R336). -/
def Dev.coreReset (d : Dev) (c : Nat) : Dev :=
  let x := d.core c
  let y : PCore := { coreInit with group := x.group, assigned := x.assigned, retired := x.retired,
                                   lastingAt := x.lastingAt, lastInst := x.lastInst }
  let d := (coreResetFlds.filter (fun f => !f.survives .e)).foldl (fun d f => d.wr f 0 c) d
  let d := (List.range 16).foldl (fun d w => d.setWindow c w ⟨0, 0, 0⟩) d
  let d := d.dropPairs (fun f i => (f == .CORE_EADDR_LO && i == c) || (f == .CORE_WIN_BASE_LO && i / 16 == c))
  (d.setCore c y).loadPrograms c d.eft.programs

/-- Cores in service of an owner's groups (R393). -/
def Dev.coresNow (d : Dev) (n : Nat) : Nat :=
  ((List.range 272).filter (fun c => let x := d.core c
    x.assigned && !x.retired && (match x.group with | some g => d.groupOwner g == some n | none => false))).length

/-- The owner furthest below its CORES_MIN, lowest number among equals (R393). -/
def Dev.neediest (d : Dev) : Option Nat :=
  let gap := fun n => d.rd .INS_CORES_CORES_MIN n - d.coresNow n
  let best := (List.range 256).foldl (fun b n => if gap n > gap b then n else b) 0
  if gap best = 0 then none else some best

/-- Programs of a group that hold shared text or data (R447). -/
def Dev.groupShares (d : Dev) (g : Nat) : Bool :=
  d.eft.programs.any (fun p => p.groups.contains g && p.segs.any (fun s => s.kind == 1 || s.kind == 2))

/-- May spare core `s` join group `g` of owner `n` (R447)? -/
def Dev.spareFits (d : Dev) (s g n : Nat) : Bool :=
  !d.groupShares g || (List.range 8).all (fun j =>
    let x := d.core (s / 8 * 8 + j)
    s / 8 * 8 + j == s || !x.assigned || x.retired ||
    (match x.group with | some h => d.groupOwner h == some n | none => false))

/-- The lowest-numbered group of an owner. -/
def Dev.firstGroup (d : Dev) (n : Nat) : Option Nat := (List.range 64).find? (fun g => d.groupOwner g == some n)

/-- Steps 4 to 6 of R446 for a core that left `group`. -/
def Dev.giveSpare (d : Dev) (group owner : Nat) : Dev :=
  let n := (d.neediest).getD owner
  let g := if d.groupOwner group = some n then some group else d.firstGroup n
  let spare := g.bind (fun g => ((List.range 16).map (fun k => 256 + k)).find? (fun s =>
    let x := d.core s
    !x.assigned && !x.retired && d.spareFits s g n))
  match g, spare with
  | some g, some s =>
    let d := d.setCore s { d.core s with assigned := true, group := some g }
    let d := (d.loadPrograms s d.eft.programs).wr .AVL_SPARES_SPARE_CORES (d.rd .AVL_SPARES_SPARE_CORES - 1)
    d.raiseI n 0xE041 [(2, s), (2, g), (1, n)]
  | _, _ =>
    if d.coresNow n < d.rd .INS_CORES_CORES_MIN n then
      (d.raiseI n 0xC301 [(1, n), (4, d.coresNow n)]).yieldAt n 6
    else d

/-- Retire a core (R446): its work item ends by R330, it leaves its group, and a spare takes its place. -/
def Dev.retireCore (d : Dev) (c : Nat) : Dev :=
  let x := d.core c
  if x.retired then d
  else
    let g := x.group
    let owner := (g.bind d.groupOwner).getD 0
    let d := d.setCore c { x with retired := true, halted := true, group := none }
    let d := d.endWork c 3 0x11 x.pc.toNat []
    let d := d.wr .AVL_SPARES_CORES_RETIRED (d.rd .AVL_SPARES_CORES_RETIRED + 1)
    let d := (d.raiseI owner 0xE040 [(2, c), (2, g.getD 0), (1, owner)]).degrade 2 c
    let d := match g with
      | some h => if (d.groupCores h).isEmpty then d.raise 0x9040 [(2, h)] else d
      | none => d
    match g with
    | some h => d.giveSpare h owner
    | none => if 256 ≤ c ∧ !x.assigned then d.wr .AVL_SPARES_SPARE_CORES (d.rd .AVL_SPARES_SPARE_CORES - 1) else d

/-- Retire every core of a clutch in service (R446). -/
def Dev.retireClutch (d : Dev) (k : Nat) : Dev :=
  let cs := (List.range 8).map (fun j => 8 * k + j)
  (cs.foldl (fun d c => if (d.core c).assigned then d.retireCore c else d) d).raise 0xE042 [(2, k)]

/-- A lasting fault of a core (R309, R446). Unit 2 is the clutch's shared memory, whose faults count against the
clutch. -/
def Dev.coreLasting (d : Dev) (c unit : Nat) : Dev :=
  let win := fun ts => ts.filter (fun t => decide (d.now ≤ t + d.rd .AVL_RETIRE_CFG_FAULT_WINDOW_H * 3600000000000))
  let d := (d.cnt .CORE_STATUS_LASTING c).wr .CORE_STATUS_SUSPECT 1 c
  let d := d.raise 0x8011 [(2, c), (2, unit), (4, d.rd .CORE_STATUS_LASTING c)]
  if unit = 2 then
    let k := c / 8
    let ts := win (amGet [] (1024 + k) d.chk.lastingAt) ++ [d.now]
    let d := { d with chk.lastingAt := amSet [] (1024 + k) ts d.chk.lastingAt }
    if ts.length ≥ d.rd .AVL_RETIRE_CFG_CLUTCH_THRESHOLD then d.retireClutch k else d
  else
    let x := d.core c
    let ts := win x.lastingAt ++ [d.now]
    let d := d.setCore c { x with lastingAt := ts }
    if ts.length ≥ d.rd .AVL_RETIRE_CFG_CORE_THRESHOLD then d.retireCore c else d

/-- Exception entry (R308). -/
def Dev.enterHandler (d : Dev) (c cause epc eaddr : Nat) : Dev :=
  let x := d.core c
  let d := (d.wr .CORE_EPC epc c).wr .CORE_EXC_ECAUSE cause c
  let d := d.wr64 .CORE_EADDR_LO .CORE_EADDR_HI eaddr c
  let d := ((d.wr .CORE_ERC x.rc.toNat c).wr .CORE_EXC_EREP (b2n x.repa) c).wr .CORE_EXC_EREPI (b2n x.repi) c
  let d := (d.wr .CORE_EXC_PSUP (b2n x.sup) c).wr .CORE_EXC_PIE (b2n x.ie) c
  d.setCore c { x with st := stOf true false true false false, rc := 0, wait := none,
                       pc := BitVec.ofNat 32 (d.rd .CORE_VBASE c * 64) }

/-- An exception or interrupt: double fault while st.EXC is 1 (R310), else entry (R308), and in user mode the end of
the work item (R311). `status` is the completion status, or none when no completion is written. -/
def Dev.takeException (d : Dev) (c cause epc eaddr : Nat) (status : Option Nat) : Dev :=
  let x := d.core c
  if x.exc then
    let d := d.raise 0x8002 [(2, c), (1, cause), (4, epc)]
    let d := d.setCore c { x with stopped := true }
    (match status with
      | some _ => d.endWork c 2 cause epc []
      | none => d.dropWork c).coreReset c
  else
    let user := !x.sup
    let n := (x.wi.map (·.inst)).getD 0
    let d := d.enterHandler c cause epc eaddr
    if user then
      let d := d.raiseI n 0x8001 [(2, c), (1, n), (1, cause), (4, epc), (8, eaddr)]
      match status with
      | some s => d.endWork c s cause epc []
      | none => d.dropWork c
    else d

/-- The next bundle to execute is the one at the pc: a waiting bundle, or the repeated one, stays there (R299, R304). -/
def Dev.interrupt (d : Dev) (c cause : Nat) (status : Option Nat) : Dev :=
  d.takeException c cause (d.core c).pc.toNat 0 status

/-- Halt (R307, R311, R330): whatever st.IE holds. -/
def Dev.halt (d : Dev) (c : Nat) (why : HaltReason) : Dev :=
  let x := d.core c
  match why with
  | .instanceReset => if x.wi.isNone then d else d.interrupt c 0x11 none
  | .engineReset => ((if x.wi.isNone ∧ !x.sup then d else d.interrupt c 0x11 (some 3)).endWork c 3 0x11 x.pc.toNat []).coreReset c
  | .retirement => (if x.wi.isNone then d else d.interrupt c 0x11 (some 3)).retireCore c

end Sys2Proof.Machine
end

