-- ==== Sys2Proof/Machine/Instances.lean ====
section
/-! DEFINITION. Virtual instances: share writes and arbitration epochs (R386–R392), the second's end (R395, R487),
mailboxes (R396–R400), telemetry (R401), and instance reset (R402–R404). -/
namespace Sys2Proof.Machine

/-! ## Shares and quotas (R391) -/

/-- Fields of the share or quota register at an offset of the instance block. -/
def shareFlds (off : Nat) : List Fld :=
  match off with
  | 0x10 => [.INS_SHARE_CODEC_PM, .INS_SHARE_MEMBW_PM, .INS_SHARE_FLASHBW_PM]
  | 0x14 => [.INS_CORES_CORES_MIN]
  | 0x18 => [.INS_SLUICE]
  | 0x1C => [.INS_CAPACITY]
  | 0x20 => [.INS_QUOTA_GECKO]
  | 0x24 => [.INS_QUOTA_TASKS]
  | 0x28 => [.INS_QUOTA_CONN]
  | 0x2C => [.INS_QUOTA_STREAMS]
  | _ => []

/-- What a field of an instance will hold once the accepted writes have taken effect. -/
def Dev.shareNext (d : Dev) (n : Nat) (f : Fld) : Nat :=
  match (d.shr.waiting.reverse.find? (fun w => w.inst == n && decide (w.fld = f))) with
  | some w => w.value
  | none => d.rd f n

/-- The limit that R50 sets to a field's sum over enabled instances. -/
def Dev.shareSumMax (d : Dev) (f : Fld) : Option Nat :=
  match f with
  | .INS_SHARE_CODEC_PM | .INS_SHARE_MEMBW_PM | .INS_SHARE_FLASHBW_PM => some 1000
  | .INS_CORES_CORES_MIN => some 256
  | .INS_QUOTA_TASKS | .INS_QUOTA_CONN => some 65536
  | .INS_QUOTA_GECKO => some 1048576
  | .INS_QUOTA_STREAMS => some 4096
  | .INS_CAPACITY => some d.userCapacity
  | _ => none

/-- Entries of an instance's partitions. -/
def Dev.partSum (d : Dev) (n : Nat) : Nat :=
  (((List.range 64).filter (fun p => d.pPresent p && d.rd .GKO_PART_BASE_INSTANCE p == n)).map d.pCount).sum

/-- Cores of an instance's groups, by the CORES records. -/
def Dev.groupCoreSum (d : Dev) (n : Nat) : Nat :=
  (((d.secRecs 3).filter (fun r => leAt 1 1 r == n)).map (leAt 4 2)).sum

/-- Is a value of a share or quota rejected (R391)? -/
def Dev.shareRejects (d : Dev) (n : Nat) (f : Fld) (v : Nat) : Bool :=
  !d.insOn n ||
  (match d.shareSumMax f with
    | some m => decide (m < v + (((List.range 256).filter (fun k => k != n && d.insOn k)).map (fun k => d.shareNext k f)).sum)
    | none => false) ||
  (f == .INS_QUOTA_GECKO && decide (v < d.partSum n)) ||
  (f == .INS_CORES_CORES_MIN && decide (d.groupCoreSum n < v))

/-- One field of a share write: kept with 0xC002, or to take effect with 0xC003; nothing where it does not change. -/
def Dev.shareField (d : Dev) (n off : Nat) (f : Fld) (v : Nat) : Dev :=
  let old := d.shareNext n f
  if v = old then d
  else if d.shareRejects n f v then d.raiseI n 0xC002 [(1, n), (2, off)]
  else
    let e : Nat := d.now / 10000 + 1
    ({ d with shr.waiting := d.shr.waiting ++ [(⟨n, f, v⟩ : ShareWrite)] }).raiseI n 0xC003
      [(1, n), (2, off), (4, old), (4, v), (4, e)]

/-- SHARE_WRITE (R391): word `w` to the register at offset `off` of instance `n`'s copy, field by field from the most
significant. Reserved bits and values act as R12 and R13 state. -/
def Dev.shareWrite (d : Dev) (n off w : Nat) : Dev :=
  let fs := shareFlds off
  if fs.isEmpty then d
  else
    let a := Block.ins.base + n * 0x1000 + off
    let all := match Sys2Proof.Machine.resolve 0 a with | .reg _ _ r _ => r.flds | _ => fs
    let val := fun f : Fld => bitsOf f.info.hi f.info.lo w
    let ok := fs.filter (fun f => d.legal f n w (val f))
    let d := ok.foldl (fun (d : Dev) f => d.shareField n off f (val f)) d
    d.noteWrite .ins n a (reservedBits all w) ⟨false, decide (ok.length < fs.length)⟩

/-- Let accepted writes that a test selects take effect, oldest first. -/
def Dev.applyShares (d : Dev) (sel : ShareWrite → Bool) : Dev :=
  let ws := d.shr.waiting.filter sel
  let d := { d with shr.waiting := d.shr.waiting.filter (fun w => !sel w) }
  ws.foldl (fun (d : Dev) w =>
    let d := d.wr w.fld w.value w.inst
    if w.fld = .INS_CAPACITY then d.showStored w.inst else d) d

/-- TOKEN_REFILL (R490): sluice rates written before take effect, then every boundary that has come gains its tokens. -/
def Dev.refillTokens (d : Dev) : Dev :=
  if d.now / 100 ≤ d.cap.lastRefill then d
  else (d.applyShares (fun w => decide (w.fld = .INS_SLUICE))).tokenRefill

/-- Use of an instance in the epoch, per mille of capacity (R387). -/
def Dev.epochUse (d : Dev) (kind n : Nat) : Nat :=
  let k := kind * 256 + n
  if d.epochCap kind = 0 then 0
  else min 1000 ((amGet 0 k d.shr.used + amGet 0 k d.shr.extra) * 1000 / d.epochCap kind)

/-- EPOCH_BOUNDARY (R386, R387, R391): credits start anew, the epoch's use is shown, and share writes take effect. -/
def Dev.epochBoundary (d : Dev) : Dev :=
  let e := d.now / 10000
  if e ≤ d.shr.epoch then d
  else
    let d := ((List.range 256).filter d.insOn).foldl (fun (d : Dev) n =>
      ((d.wr .INS_EPOCH_USE_CODEC_USE_PM (d.epochUse 0 n) n).wr .INS_EPOCH_USE_MEM_USE_PM (d.epochUse 1 n) n).wr
        .INS_EPOCH_USE_FLASH_USE_PM (d.epochUse 2 n) n) d
    let add := fun (m : AMap Nat) (p : Nat × Nat) => amMod 0 p.1 (· + p.2) m
    let sum := d.shr.extra.foldl add (d.shr.used.foldl add d.shr.secUse)
    let d := { d with shr.used := [], shr.extra := [], shr.secUse := sum, shr.epoch := e }
    d.applyShares (fun w => decide (w.fld ≠ .INS_SLUICE))

/-- The event of a counted yield or drop at the end of its second (R487). -/
def Dev.raiseCount (d : Dev) (p : Nat × Nat × Nat) : Dev :=
  let item := p.1 % 2 ^ 24
  if p.1 / 2 ^ 24 = 0xC201 then d.raiseI (item / 16) 0xC201 [(1, item / 16), (2, item % 16), (4, p.2.2)]
  else d.raiseI (d.portOwner item) (p.1 / 2 ^ 24) [(2, item), (4, p.2.2)]

/-- EVENT_SECOND_END (R487): counted events of seconds that have ended are raised with their counts. -/
def Dev.secondEnd (d : Dev) : Dev :=
  let s := d.second
  let due := d.ev.counts.filter (fun p => decide (p.2.1 < s))
  let d := { d with ev.counts := d.ev.counts.filter (fun p : Nat × Nat × Nat => !decide (p.2.1 < s)) }
  let d := due.foldl Dev.raiseCount d
  if s ≤ d.shr.second then d
  else
    let pm := fun p : Nat × Nat => (p.1, if d.epochCap (p.1 / 256) = 0 then 0 else
      min 1000 (p.2 * 1000 / (d.epochCap (p.1 / 256) * 100000)))
    { d with
      shr.lastUse := if s = d.shr.second + 1 then (d.shr.secUse.map pm).filter (fun p => p.2 != 0) else []
      shr.secUse := []
      shr.second := s }

/-! ## Mailboxes (R396–R400) -/

/-- A mailbox message (R396). -/
def mbxMsg (type seq time : Nat) (body : List Byte) : List Byte :=
  leBytes 2 body.length ++ leBytes 2 type ++ leBytes 4 seq ++ leBytes 8 time ++ body

/-- Messages of instance `n`'s inbound mailbox, oldest first. -/
def Dev.mbxIn (d : Dev) (n : Nat) : List (List Byte) := amGet [] n d.ins.inbox
/-- Messages of its outbound mailbox. -/
def Dev.mbxOut (d : Dev) (n : Nat) : List (List Byte) := amGet [] n d.ins.outbox

/-- Set the inbound mailbox. -/
def Dev.setIn (d : Dev) (n : Nat) (ms : List (List Byte)) : Dev :=
  ({ d with ins.inbox := amSet [] n ms d.ins.inbox }).wr .INS_MBX_STATUS_IN_COUNT ms.length n
/-- Set the outbound mailbox. -/
def Dev.setOut (d : Dev) (n : Nat) (ms : List (List Byte)) : Dev :=
  ({ d with ins.outbox := amSet [] n ms d.ins.outbox }).wr .INS_MBX_STATUS_OUT_COUNT ms.length n

/-- MAILBOX_SEND (R397). Instance 0 has no mailbox. -/
def Dev.mailboxSend (d : Dev) (h : Nat) : Dev :=
  d.onAdmin h 0xC0 (fun c _ =>
    let len := bitsOf 9 0 (cdw 10 c.sqe)
    let type := bitsOf 15 0 (cdw 11 c.sqe)
    if c.inst = 0 ∨ cdw 10 c.sqe / 1024 ≠ 0 ∨ cdw 11 c.sqe / 65536 ≠ 0 ∨ len = 0 ∨ 1008 < len then d.invalidField h
    else d.withData c len (fun c =>
      if 16 ≤ (d.mbxIn c.inst).length then (d.raiseI c.inst 0xC104 [(1, c.inst)]).capRetry h 0x91
      else
        let seq := amGet 0 c.inst d.ins.inSeq + 1
        let d := { d with ins.inSeq := amSet 0 c.inst (seq % 2 ^ 32) d.ins.inSeq }
        let d := d.setIn c.inst (d.mbxIn c.inst ++ [mbxMsg type seq d.now (c.data.take len)])
        (d.raiseI c.inst 0xC101 [(1, c.inst), (2, seq), (2, type)]).succeed h seq 0))

/-- MAILBOX_RECEIVE (R398). -/
def Dev.mailboxReceive (d : Dev) (h : Nat) : Dev :=
  d.onAdmin h 0xC1 (fun c _ =>
    if c.inst = 0 then d.invalidField h
    else match d.mbxOut c.inst with
    | [] => d.capRetry h 0x92
    | m :: ms => (d.setOut c.inst ms).answer c (sliceB 0 1024 m) ms.length 0)

/-- MBX_POP (R399). -/
def Dev.mbxPop (d : Dev) (n : Nat) : Dev :=
  match d.mbxIn n with
  | [] => d
  | _ :: ms => d.setIn n ms

/-- MBX_PUSH (R399): LEN above 1,008 is a reserved value (R13). -/
def Dev.mbxPush (d : Dev) (n len type : Nat) : Dev :=
  if 1008 < len then d.raise 0x0022 [(4, Block.ins.base + n * 0x1000 + 0x84)]
  else if n = 0 then d
  else if 16 ≤ (d.mbxOut n).length then d.raiseI n 0xC103 [(1, n)]
  else
    let body := ((List.range 252).flatMap (fun k => leBytes 4 (d.rd .INS_MBX_OUT (n * 256 + k)))).take len
    let seq := amGet 0 n d.ins.outSeq + 1
    let was := d.mbxOut n
    let d := { d with ins.outSeq := amSet 0 n (seq % 2 ^ 32) d.ins.outSeq }
    let d := d.setOut n (was ++ [mbxMsg type seq d.now body])
    if was.isEmpty then
      (d.hq.ctrls.filter (fun p => p.2.inst == n)).foldl (fun (d : Dev) p => d.asyncEvent p.1 7 false) d
    else d

/-! ## Telemetry (R401) -/

/-- Task records of an instance. -/
def Dev.insTasks (d : Dev) (n : Nat) : Nat :=
  (d.regs.filter (fun e => e.1 % 1024 == Fld.EFT_TASK_CFG_STATE.ctorIdx && d.rd .EFT_TASK_INFO_INSTANCE (e.1 / 1024) == n)).length

/-- Valid entries in an instance's partitions. -/
def Dev.insEntries (d : Dev) (n : Nat) : Nat :=
  (d.gk.entries.filter (fun e => e.2.valid && (match d.partAt e.1 with
    | some p => d.rd .GKO_PART_BASE_INSTANCE p == n
    | none => false))).length

/-- Sum of a stream counter over an instance's streams. -/
def Dev.streamSum (d : Dev) (n : Nat) (f : Fld) : Nat :=
  ((d.cap.streams.filter (fun p => d.streamOwner p.1 == n)).map (fun p => d.rd f p.1)).sum

/-- The telemetry page of an instance. -/
def Dev.telemetryPage (d : Dev) (n : Nat) : List Byte :=
  let w4 := fun v : Nat => leBytes 4 (min v (2 ^ 32 - 1))
  let use := fun k : Nat => leBytes 2 (amGet 0 (k * 256 + n) d.shr.lastUse)
  putAll [
    (0x000, leBytes 1 n ++ leBytes 1 1 ++ leBytes 2 (d.gen n)),
    (0x008, leBytes 8 d.now),
    (0x010, leBytes 2 (d.rd .INS_SHARE_CODEC_PM n) ++ leBytes 2 (d.rd .INS_SHARE_MEMBW_PM n) ++
      leBytes 2 (d.rd .INS_SHARE_FLASHBW_PM n) ++ leBytes 2 (d.rd .INS_CORES_CORES_MIN n) ++ leBytes 2 (d.coresNow n)),
    (0x020, w4 (d.rd .INS_CAPACITY n) ++ w4 (d.rd .DUR_INS_STORED n) ++ w4 (d.rd .INS_SLUICE n)),
    (0x030, w4 (d.streamsOf n) ++ w4 (d.rd .INS_QUOTA_STREAMS n) ++ w4 (d.hq.conns.filter (fun p => p.2.inst == n)).length ++
      w4 (d.rd .INS_QUOTA_CONN n) ++ w4 (d.insTasks n) ++ w4 (d.rd .INS_QUOTA_TASKS n) ++ w4 (d.insEntries n) ++
      w4 (d.rd .INS_QUOTA_GECKO n) ++ w4 (d.insWi n) ++ w4 (d.rd .EFT_INS_CFG_WI_QUOTA n)),
    (0x058, use 0 ++ use 1 ++ use 2),
    (0x060, w4 (d.rd .INS_YIELD_COUNT n) ++ w4 (d.streamSum n .CAP_STREAM_CNT_FRAMES_COMMITTED) ++
      w4 (d.streamSum n .CAP_STREAM_CNT_FRAMES_INCOMPLETE) ++ w4 (d.streamSum n .CAP_STREAM_CNT_FRAMES_REFUSED) ++
      w4 (d.streamSum n .CAP_STREAM_CNT_WINDOW_SHORT) ++ w4 (d.rd .HQ_INS_CNT_COMMANDS n) ++
      w4 (d.rd .HQ_INS_CNT_SHARE_REFUSED n) ++ w4 (d.rd .HQ_INS_CNT_GUARD_ERRORS n) ++ w4 (d.rd .HQ_INS_CNT_READ_ERRORS n))]
    (zeros 4096)

/-- INSTANCE_TELEMETRY (R401). -/
def Dev.instanceTelemetry (d : Dev) (h : Nat) : Dev :=
  d.onAdmin h 0xC4 (fun c _ => d.answer c (d.telemetryPage c.inst) 0 0)

/-! ## Instance reset (R402–R404) -/

/-- Does a register that does not survive an instance reset belong to instance `n` (R14 and the chapters' register
introductions)? `cores` run the instance's work. A register whose scope names no owner is reset by any. -/
def Dev.resetsWith (d : Dev) (n : Nat) (cores : List Nat) (f : Fld) (i : Nat) : Bool :=
  match f with
  | .CAP_TG_STATUS_OPEN => d.rd .CAP_TG_CFG_INSTANCE i == n
  | .CAP_STREAM_CFG_STATE | .CAP_STREAM_CFG_GROUP | .CAP_STREAM_CFG_INSTANCE | .CAP_STREAM_CFG_VERSION
  | .CAP_STREAM_CFG_TIME_SOURCE | .CAP_STREAM_CFG_THUMB | .CAP_STREAM_CFG_FILTER_EN | .CAP_STREAM_CFG_DEFAULT_VERDICT
  | .CAP_STREAM_SLOTS | .CAP_STREAM_FILTER_BUDGET_US | .CAP_STREAM_FILTER_TASK | .CAP_STREAM_CNT_PKT_RX
  | .CAP_STREAM_CNT_PKT_FORMAT | .CAP_STREAM_CNT_PKT_DUP | .CAP_STREAM_CNT_PKT_LATE | .CAP_STREAM_CNT_PKT_STALE
  | .CAP_STREAM_CNT_SLUICE_DROP | .CAP_STREAM_CNT_FRAMES_COMMITTED | .CAP_STREAM_CNT_FRAMES_INCOMPLETE
  | .CAP_STREAM_CNT_FRAMES_LOST | .CAP_STREAM_CNT_FRAMES_REFUSED | .CAP_STREAM_CNT_NAK_SENT | .CAP_STREAM_CNT_PKT_REPAIRED
  | .CAP_STREAM_CNT_VERDICT_LATE | .CAP_STREAM_CNT_VERDICT_INVALID | .CAP_STREAM_CNT_WINDOW_SHORT
  | .CHK_ALIVE_CNT_GAP | .CHK_ALIVE_CNT_REPEAT | .CHK_ALIVE_CNT_OLD | .CHK_ALIVE_CNT_RESYNCS => d.streamOwner i == n
  | .CDC_Q_SQ_TAIL | .CDC_Q_SQ_HEAD_HEAD | .CDC_Q_CQ_CQ_TAIL | .CDC_Q_CQ_CQ_HEAD => decide (16 ≤ i) && d.rd .CDC_Q_CFG_INSTANCE i == n
  | .CTX_KEY | .CTX_SMASK | .CTX_VAL | .CTX_CARE => cores.contains (i / 4)
  | .CTX_ERESULT | .SRCH_STATUS_DONE | .SRCH_STATUS_HIT | .SRCH_STATUS_MULTI | .SRCH_STATUS_HANDLE | .SRCH_STATUS_CODE
  | .SRCH_STATUS_POS | .SRCH_RESULT | .UPD_STATUS_DONE | .UPD_STATUS_CODE | .UPD_STATUS_DOWN | .UPD_STATUS_VALID
  | .UPD_STATUS_DISABLED | .UPD_STATUS_POS | .UPD_FREE => cores.contains i
  | .CORE_ID_INSTANCE | .CORE_BUDGET | .CORE_XFER_ERR => cores.contains i
  | .CORE_WIN_BASE_LO | .CORE_WIN_BASE_HI | .CORE_WIN_LEN_W | .CORE_WIN_LEN_R | .CORE_WIN_LEN_LEN64 => cores.contains (i / 16)
  | .EFT_TASK_CFG_DELAY_ON | .EFT_TASK_FLAGS | .EFT_TASK_INFO_RUNNING | .EFT_TASK_QUEUED => d.rd .EFT_TASK_INFO_INSTANCE i == n
  | .EFT_INS_WI | .INS_STATUS_RESET_BUSY | .INS_MBX_STATUS_OUT_COUNT => i == n
  | .INS_MBX_OUT => i / 256 == n
  | .CHK_CTX_CFG_INSTANCE | .CHK_CTX_CFG_MODE | .CHK_CTX_SRC_LO | .CHK_CTX_SRC_HI | .CHK_CTX_LEN | .CHK_CTX_BUSY_CNT =>
    d.rd .CHK_CTX_CFG_INSTANCE i == n
  | _ => true

/-- Cores that run work of an instance. -/
def Dev.coresOf (d : Dev) (n : Nat) : List Nat :=
  (List.range 272).filter (fun c => match (d.core c).wi with | some w => w.inst == n | none => false)

/-- R332: queued posts of an instance's tasks go without a completion; flags, activations and delays clear. -/
def Dev.eftInstanceReset (d : Dev) (n : Nat) : Dev :=
  let mine := fun t : Nat => d.rd .EFT_TASK_INFO_INSTANCE t == n
  let gone := ((d.eft.tasks.filter (fun p => mine p.1)).map (fun p => p.2.posts.length)).sum
  let d := { d with
    eft.pool := d.eft.pool - gone
    eft.tasks := d.eft.tasks.map (fun p : Nat × Task =>
      if mine p.1 then (p.1, { p.2 with posts := [], readyOrd := none, deadline := none }) else p) }
  { d with eft.tasks := d.eft.tasks.filter (fun p : Nat × Task => decide (p.2 ≠ taskInit)) }

/-- The instance's streams, frozen frames and windows (R402, register introduction of Capture): its entries leave the drain
queue, its windows are discarded, and its streams are unbound with CLOSE reason 2. -/
def Dev.capInstanceReset (d : Dev) (n : Nat) : Dev :=
  let mine := fun s : Nat => d.streamOwner s == n
  let ours := fun w : TrigWindow => match w.group with
    | some g => d.rd .CAP_TG_CFG_INSTANCE g == n
    | none => mine (w.members.headD 0)
  let ns := (d.cap.streams.filter (fun p => mine p.1)).map (·.1)
  let gs := (List.range 64).filter (fun g => d.rd .CAP_TG_CFG_INSTANCE g == n)
  let d := { d with
    cap.windows := d.cap.windows.filter (fun w => !ours w)
    cap.queue := d.cap.queue.filter (fun p : Nat × Nat => !mine p.1)
    cap.streams := d.cap.streams.map (fun p : Nat × Stream =>
      if ns.contains p.1 then (p.1, { p.2 with frames := [], paused := none }) else p) }
  let d := (d.wr .CAP_DRAIN_DEPTH d.cap.queue.length).wrAll .CAP_TG_STATUS_OPEN 0 gs
  let d := ns.foldl (fun (d : Dev) s => match d.stream s with
    | some x => if x.bound then (d.sendClose s x 2).unbind s 2 else d.forgetStream s
    | none => d) d
  d.refillDrain

/-- R384: the operations of the instance's check contexts end; they return to IDLE with the initial value. -/
def Dev.chkInstanceReset (d : Dev) (n : Nat) : Dev :=
  let xs := (List.range 1024).filter (fun i => d.rd .CHK_CTX_CFG_INSTANCE i == n && d.rd .CHK_CTX_CFG_STATE i != 3)
  let d := { d with chk.feeds := d.chk.feeds.filter (fun p => !xs.contains p.1)
                    chk.operand := d.chk.operand.filter (fun p => !xs.contains p.1) }
  xs.foldl (fun (d : Dev) i =>
    (d.wr64 .CHK_CTX_VAL_LO .CHK_CTX_VAL_HI (d.ctxAlg i).init i).wr .CHK_CTX_CFG_STATE 0 i) d

/-- INSTANCE_RESET (R402–R404): the steps of the table Instance reset sequence as one command. The time that 0xC010 carries
is free, at most 1 ms. -/
def Dev.instanceReset (d : Dev) (n : Nat) : Dev :=
  if d.rd .INS_STATUS_RESET_BUSY n = 1 ∨ n = 0 ∨ !d.insOn n then d.raiseI n 0xC011 [(1, n)]
  else
    let g := (d.gen n + 1) % 65536
    let d := (d.wr .INS_STATUS_RESET_BUSY 1 n).raiseI n 0xC001 [(1, n), (2, g)]
    let d := d.wr .INS_STATUS_GENERATION g n
    let cores := d.coresOf n
    let lost := d.resetsWith n cores
    let d := ((d.hostInstanceReset n).codecInstanceReset n).eftInstanceReset n
    let d := (d.capInstanceReset n).rebase n
    let d := cores.foldl (fun (d : Dev) c => d.halt c .instanceReset) d
    let d := (d.gkInstanceReset n cores).chkInstanceReset n
    let d := (d.resetRegs .i lost).setOut n []
    let t := d.draw 64
    (t.2.wr .INS_STATUS_RESET_BUSY 0 n).raiseI n 0xC010 [(1, n), (4, t.1 % 1000001)]

end Sys2Proof.Machine
end

