-- ==== Sys2Proof/Machine/Memory.lean ====
section
/-! DEFINITION. The stacked memory controller: requests and their ranks, refresh, row disturb, error correction, scrub,
training, retirement and relief (spec/11_memory.md, R338–R363). -/
namespace Sys2Proof.Machine

/-! ## Banks (R339, R346–R349) -/

/-- A bank at start: no refresh owed, so 8 credits. -/
def bankInit : Bank := ⟨0, none, [], 0⟩
/-- The key of a bank. -/
def bankKey (pc bank : Nat) : Nat := pc * 64 + bank
/-- A bank. -/
def Dev.bank (d : Dev) (k : Nat) : Bank := amGet bankInit k d.mem.banks
/-- Replace a bank. -/
def Dev.setBank (d : Dev) (k : Nat) (b : Bank) : Dev := { d with mem.banks := amSet bankInit k b d.mem.banks }

/-- CREDITS_MIN of a channel: the fewest credits of any of its banks. -/
def Dev.showCredits (d : Dev) (c : Nat) : Dev :=
  let owed := (d.mem.banks.filter (fun p => p.1 / 128 == c)).foldl (fun m p => max m p.2.owed) 0
  d.wr .MEM_CH_STATUS_CREDITS_MIN (8 - owed) c

/-- REFRESH_DUE (R347): refreshes owed that were issued since return their credits; the one that falls due is issued at
once, or owed while a request of rank 2 or 4 keeps the bank, or forced at zero credits. -/
def Dev.refreshDue (d : Dev) (pc bank : Nat) (kept : Bool) (issued : Nat) : Dev :=
  let k := bankKey pc bank
  let b := d.bank k
  let b : Bank := { b with owed := b.owed - issued }
  let d := d.setBank k b
  let d := if !kept then d
    else if b.owed < 8 then d.setBank k { b with owed := b.owed + 1 }
    else d.cnt .MEM_CH_CNT_FORCED_REF (pc / 2)
  d.showCredits (pc / 2)

/-- An entry of the activate-count table takes an activate of row `x` (R348): the table, the spill count and the row's
count where the table holds it now. -/
def Bank.count (b : Bank) (x : Nat) : Bank × Option Nat :=
  match b.table.find? (fun e => e.1 == x) with
  | some e => ({ b with table := b.table.map (fun f => if f.1 = x then (x, f.2 + 1) else f) }, some (e.2 + 1))
  | none =>
    if b.table.length < 32 ∧ b.spill = 0 then ({ b with table := b.table ++ [(x, 1)] }, some 1)
    else match b.table.findIdx? (fun e => e.2 == b.spill) with
      | some i => ({ b with table := b.table.mapIdx (fun j f => if j = i then (x, b.spill + 1) else f) }, some (b.spill + 1))
      | none => ({ b with spill := b.spill + 1 }, none)

/-- Activate a row of a bank: its count rises, and a multiple of NR_THRESHOLD makes the neighbour refresh due, which goes
first (R348, R349). -/
def Dev.activate (d : Dev) (pc bank row : Nat) : Dev :=
  let k := bankKey pc bank
  let b := d.bank k
  if b.openRow = some row then d
  else
    let (b, n) := b.count row
    let d := d.setBank k { b with openRow := some row }
    match n with
    | some m => if m % d.rd .MEM_RD_CFG_NR_THRESHOLD = 0 then d.cnt .MEM_CH_CNT_NEIGHBOUR_REF (pc / 2) else d
    | none => d

/-- ACT_TABLE_CLEAR (R348): the tables of a stack clear. -/
def Dev.actTableClear (d : Dev) (s : Nat) : Dev :=
  { d with mem.banks := (d.mem.banks.map (fun p : Nat × Bank =>
      if p.1 / 4096 = s then (p.1, { p.2 with table := [], spill := 0 }) else p)).filter (fun p => p.2 != bankInit) }

/-- STACK_TEMP_READ (R346): HOT at 85 °C, clear at 83 °C. -/
def Dev.stackTemp (d : Dev) (s t : Nat) : Dev :=
  let d := d.wr .MEM_STACK_TEMP_C t s
  if 85 ≤ t ∧ d.rd .MEM_STACK_HOT s = 0 then (d.wr .MEM_STACK_HOT 1 s).raise 0xA020 [(1, s), (1, t)]
  else if t ≤ 83 ∧ d.rd .MEM_STACK_HOT s = 1 then (d.wr .MEM_STACK_HOT 0 s).raise 0xA021 [(1, s), (1, t)]
  else d

/-! ## Panic (R342) -/

/-! ## Relief (R359, R362) -/

/-- 64 KiB blocks that a ring region can give up now: what no frozen or filling frame needs (R86). -/
def Dev.ringSpare (d : Dev) (r : Region) : Nat :=
  let need := ((d.regionStreams r.num).map (fun p => if p.2.kept = 0 then 0 else ringUnits p.2.slotBytes p.2.kept)).sum * ringUnit
  (r.size - need) / 65536

/-- Take up to `k` blocks from the top end of a region. -/
def Dev.shrinkRegion (d : Dev) (r : Region) (k : Nat) : Dev :=
  let d := { d with mem.regions := d.mem.regions.map (fun q : Region => if q.num = r.num then { q with size := q.size - k * 65536 } else q) }
  if r.kind = 0 ∧ k ≠ 0 then d.settleRegion r.num else d

/-- Give up to `k` blocks for relief from regions of a kind; answers how many are still wanted. -/
def Dev.giveUp (d : Dev) (kind k : Nat) : Dev × Nat :=
  (d.mem.regions.filter (fun r => r.kind == kind)).foldl (fun (p : Dev × Nat) r =>
    let n := min p.2 (if kind = 0 then p.1.ringSpare r else r.size / 65536)
    (p.1.shrinkRegion r n, p.2 - n)) (d, k)

/-- Blocks that a relief still lacks. -/
def Relief.lacks (x : Relief) : Nat := (x.order.map (·.2)).sum - x.covered

/-- MEM_RELIEF shows the relief in use and the blocks without it. -/
def Dev.showRelief (d : Dev) : Dev :=
  let used := (d.mem.relief.map (·.covered)).sum
  let lack := (d.mem.relief.map Relief.lacks).sum
  (d.wr .MEM_RELIEF_RELIEF_USED (min used 0xFFFF)).wr .MEM_RELIEF_UNRELIEVED lack

/-- Relieve one channel's blocks as far as space goes: the read cache, general regions, rings (R359). -/
def Dev.relieveOne (d : Dev) (x : Relief) : Dev :=
  let want := x.lacks
  if want = 0 then d
  else
    let (d, k) := d.giveUp 7 want
    let (d, k) := d.giveUp 8 k
    let (d, k) := d.giveUp 0 k
    { d with mem.relief := d.mem.relief.map (fun y : Relief =>
        if y.chan = x.chan then { y with covered := y.covered + (want - k), switched := if y.readable then y.switched else y.covered + (want - k) } else y)
             mem.reliefNext := d.mem.reliefNext + (want - k) }

/-- Relieve what waits, the oldest retirement first. -/
def Dev.relieve (d : Dev) : Dev := (d.mem.relief.foldl Dev.relieveOne d).showRelief

/-! ## What a retirement loses (R361) -/

/-- Transactions whose blocks are not all programmed start again (kind 5 of the table Retirement by region kind): a frame
is compressed again from its ring, host writes from their slots, relocations are dropped. -/
def Dev.loseStaging (d : Dev) : Dev :=
  let ids := (d.fls.stripes.filter (fun s => !s.programmed && !s.dump)).map (·.id)
  let hit := d.dur.txns.filter (fun t => decide (t.stage ≤ 1) &&
    (t.stripes.any (fun i => ids.contains i) || d.fls.staged.any (fun x => x.block.cseq == t.cseq)))
  let d := { d with
    fls.staged := []
    fls.stripes := d.fls.stripes.map (fun s : Stripe => if ids.contains s.id then
      { s with blocks := [], used := 0, tweaks := [], issued := false, units := [], retried := none } else s) }
  let d := hit.foldl (fun (d : Dev) t =>
    let slots := d.dur.slots.filter (fun p => p.2.cseq == some t.cseq)
    let d := d.setTxn t.cseq (fun t => { t with stage := 3, parts := [], stripes := [], todo := 0 })
    match t.kind with
    | .write .. => d.resubmit slots
    | .frame n id _ _ _ => (d.noteFrame n id (fun f => { f with cseq := none, queued := false })).enqueueDrain n id
    | _ => d) d
  d.settle

/-- Programs whose blob touches a lost range are unloaded by the steward. -/
def Dev.losePrograms (d : Dev) (hit : Nat → Nat → Bool) : Dev :=
  (d.eft.programs.filter (fun p => p.blobLen != 0 && !p.unloading && hit p.blobBase p.blobLen)).foldl
    (fun (d : Dev) p => d.unloadProgram p.inst p.id) d

/-- Does a range have a byte on a channel, by the region's grain? -/
def Dev.rangeOnChan (d : Dev) (c a n : Nat) : Bool :=
  match d.regionAt a 1 with
  | none => false
  | some r =>
    let g := r.grainBytes
    if n = 0 then false
    else (List.range ((a + n - 1 - r.base) / g + 1 - (a - r.base) / g)).any (fun k =>
      match d.chanOf (max a (r.base + ((a - r.base) / g + k) * g)) with | some (x, _) => x == c | none => false)

/-- Does any region of a kind lie on a channel? -/
def Dev.kindOnChan (d : Dev) (kind c : Nat) : Bool := d.mem.regions.any (fun r => r.kind == kind && r.chans.contains c)

/-- The consequences of losing an address set. -/
def Dev.loseRange (d : Dev) (hit : Nat → Nat → Bool) (staging : Bool) : Dev :=
  let d := (d.loseFrames hit).losePrograms hit
  if staging then d.loseStaging else d

/-! ## Retirement (R358–R360) -/

/-- Channels in service among those of a list. -/
def Dev.chansUp (d : Dev) (cs : List Nat) : List Nat := cs.filter (fun c => d.rd .MEM_CH_STATUS_RETIRED c == 0)

/-- The blocks of a channel in the order of R359, with those that relieved other channels. -/
def Dev.reliefOrder (d : Dev) (c : Nat) : List (Nat × Nat) :=
  let of := fun (ks : List Nat) => ((d.mem.regions.filter (fun r => ks.contains r.kind && r.chans.contains c)).map
    (fun r => (r.num, ceilDiv r.slice 65536)))
  of [6] ++ of [4, 5] ++ of [3] ++ of [0] ++ of [8] ++
  (d.mem.relief.map (fun x => (64 + x.chan, ((List.range x.covered).filter (fun i => x.target i == some c)).length))).filter (fun p => p.2 != 0)

/-- Retire a memory channel. Causes: 0 retraining, 1 lasting faults, 2 self-test. -/
def Dev.retireMemChannel (d : Dev) (c cause : Nat) (readable : Bool) : Dev :=
  if d.rd .MEM_CH_STATUS_RETIRED c = 1 then d
  else
    let before := fun (r : Region) => (d.chansUp r.chans).length
    let buffers := (d.mem.regions.filter (fun r => (r.kind == 1 || r.kind == 2) && r.chans.contains c)).map (fun r => (r.kind - 1, before r))
    let order := d.reliefOrder c
    let d := ((d.wr .MEM_CH_STATUS_RETIRED 1 c).wr .MEM_CH_STATUS_TRAINING 0 c)
    let left := d.rd .MEM_STATUS_CHANNELS - 1
    let d := { d.wr .MEM_STATUS_CHANNELS left with mem.retrain := amDel c d.mem.retrain }
    let d := (d.raise 0xA004 [(2, c), (1, Config.causeCode (0xA004 * 256 + cause)), (4, left)]).degrade 7 c
    let d := buffers.foldl (fun (d : Dev) b => d.shrinkBuffer b.1 c b.2 (b.2 - 1)) d
    let d := (d.mem.regions.filter (fun r => r.kind == 7 && r.chans.contains c)).foldl (fun (d : Dev) r =>
      d.shrinkRegion r (min (ceilDiv r.slice 65536) (r.size / 65536))) d
    let up := d.chansUp (List.range 128)
    let lost := if readable then [] else (c, none) :: (d.mem.relief.filter (fun x => (List.range x.covered).any (fun i => x.target i == some c))).map (fun x => (x.chan, some c))
    let d := { d with
      mem.relief := d.mem.relief ++ [(⟨c, readable, order, 0, d.mem.reliefNext, up, 0, 0, 0⟩ : Relief)]
      mem.lost := d.mem.lost ++ lost
      mem.healed := d.mem.healed.filter (fun l => !d.lineLost l lost) }
    let d := d.relieve
    let lack : Nat := match d.mem.relief.find? (fun (x : Relief) => x.chan == c) with | some x => x.lacks | none => 0
    let d := if lack = 0 then d else d.raise 0xA006 [(2, c), (4, lack)]
    if readable then d.wr .MEM_CH_STATUS_MIGRATING (b2n (!order.isEmpty)) c
    else d.loseRange (d.rangeOnChan c) (d.kindOnChan 5 c)

/-- MIGRATION_STEP (R360): the next 4 KiB of a block is copied; the lines that fail take the poison code. -/
def Dev.migrationStep (d : Dev) (c : Nat) (failed : List Nat) : Dev :=
  match d.mem.relief.find? (fun x => x.chan == c) with
  | none => d
  | some x =>
    if !x.readable ∨ x.covered ≤ x.switched ∨ d.rd .AVL_STATUS_MODE = 6 then d
    else
      let bad := failed.filter (fun l => (match d.chanOf (l * 64) with | some (k, _) => k == c | none => false) && !d.mem.poison.contains l)
      let last := decide (x.steps = 15)
      let y : Relief := { x with steps := if last then 0 else x.steps + 1, switched := if last then x.switched + 1 else x.switched, bad := x.bad + bad.length }
      let d := { d with
        mem.relief := d.mem.relief.map (fun z : Relief => if z.chan = c then y else z)
        mem.poison := d.mem.poison ++ bad }
      let staging := bad.any (fun l => match d.regionAt (l * 64) 1 with | some r => r.kind == 5 | none => false)
      let d := if bad.isEmpty then d else d.loseRange (fun a n => bad.any (fun l => decide (a < l * 64 + 64 ∧ l * 64 < a + n))) staging
      if y.switched = y.covered then
        (d.wr .MEM_CH_STATUS_MIGRATING 0 c).raise 0xA005 [(2, c), (4, y.switched), (4, y.bad)]
      else d

/-! ## Errors, row repair, retraining (R352–R358) -/

/-- Full retraining starts, once (R357). -/
def Dev.startRetrain (d : Dev) (c : Nat) : Dev :=
  if d.rd .MEM_CH_STATUS_RETIRED c = 1 ∨ d.rd .MEM_CH_STATUS_TRAINING c = 1 ∨ d.rd .AVL_STATUS_MODE = 6 then d
  else { d.wr .MEM_CH_STATUS_TRAINING 1 c with mem.retrain := amPut c (⟨0, 0, none⟩ : Retrain) d.mem.retrain }

/-- A lasting fault counts toward the retirement of its channel (R358). -/
def Dev.memFaultCount (d : Dev) (c : Nat) (readable : Bool) : Dev :=
  let ts := d.recent (d.rd .MEM_RETIRE_CFG_FAULT_WINDOW_H) (amGet [] c d.mem.lastingAt) ++ [d.now]
  let d := { d with mem.lastingAt := amSet [] c ts d.mem.lastingAt }
  if d.rd .MEM_RETIRE_CFG_LASTING_THRESHOLD ≤ ts.length then d.retireMemChannel c 1 readable else d

/-- Repair a row onto a spare one (R355). The Boolean says that a spare was there. -/
def Dev.repairRow (d : Dev) (pc bank row : Nat) : Dev × Bool :=
  let k := bankKey pc bank
  let c := pc / 2
  let used := amGet 0 k d.mem.spares
  if d.rd .AVL_STATUS_MODE = 6 then (d, true)
  else if used < Config.spareRows k then
    let d := { d with mem.spares := amSet 0 k (used + 1) d.mem.spares }
    let d := d.wr .MEM_STACK_SPARE_ROWS (d.rd .MEM_STACK_SPARE_ROWS (c / 32) - 1) (c / 32)
    ((d.cnt .MEM_CH_CNT_ROWS_REPAIRED c).raise 0xA013 [(2, c), (1, bank), (4, row)], true)
  else (d.raise 0xA014 [(2, c), (1, bank)], false)

/-- A line is uncorrectable at first (R353): transient, or lasting with the poison code, a suspect channel, retraining and
row repair. -/
def Dev.lineFault (d : Dev) (line : Nat) (f : FaultClass) (readable : Bool) : Dev :=
  match f, d.chanOf (line * 64) with
  | .none, _ => d
  | _, none => d
  | .transient, some (c, o) =>
    let (pc, bank, row, _) := bankOf c o
    (d.cnt .MEM_CH_CNT_TRANSIENT c).raise 0xA011 [(2, c), (2, pc), (1, bank), (4, row)]
  | .lasting, some (c, o) =>
    let (pc, bank, row, _) := bankOf c o
    let d := { d with mem.poison := if d.mem.poison.contains line then d.mem.poison else d.mem.poison ++ [line] }
    let d := ((d.cnt .MEM_CH_CNT_LASTING c).wr .MEM_CH_STATUS_SUSPECT 1 c).raise 0xA012 [(2, c), (8, line * 64)]
    (((d.startRetrain c).repairRow pc bank row).1).memFaultCount c readable

/-- TRACKING_STEP (R357): the margin and the temperature against the last full training. -/
def Dev.trackingStep (d : Dev) (c margin : Nat) : Dev :=
  if d.rd .MEM_TRAIN_CFG_TRACK_EN = 0 ∨ d.rd .AVL_STATUS_MODE = 6 then d
  else
    let t := d.rd .MEM_STACK_TEMP_C (c / 32)
    let moved := dist t (amGet 0 c d.mem.trainTemp)
    if margin < d.rd .MEM_TRAIN_CFG_MARGIN_MIN ∨ d.rd .MEM_TRAIN_CFG_DELTA_C < moved then d.startRetrain c else d

/-- Is an RT port whose ring region uses the channel panicking (R357)? -/
def Dev.panicOn (d : Dev) (c : Nat) : Bool :=
  d.cap.streams.any (fun p => p.2.bound && d.rd .MEM_PORT_STAT_PANIC p.2.port == 1 &&
    d.mem.regions.any (fun r => r.num == p.2.region && r.chans.contains c))

/-- RETRAIN_STEP (R357): a step waits for a panic to clear, for at most 1 ms. -/
def Dev.retrainStep (d : Dev) (c : Nat) : Dev :=
  match amFind c d.mem.retrain with
  | none => d
  | some r =>
    if d.rd .AVL_STATUS_MODE = 6 ∨ 64 ≤ r.stepsDone then d
    else
      let waits : Bool := d.panicOn c && (match r.waitSince with | none => true | some t => decide (d.now < t + 1000000))
      let r : Retrain := if waits then { r with waitSince := some (r.waitSince.getD d.now) } else { r with waitSince := none, stepsDone := r.stepsDone + 1 }
      { d with mem.retrain := amPut c r d.mem.retrain }

/-- RETRAIN_END (R357, R358): a setting was found with a margin, or none; the second failure in a row retires the
channel. -/
def Dev.retrainEnd (d : Dev) (c : Nat) (margin : Option Nat) (readable : Bool) : Dev :=
  match amFind c d.mem.retrain with
  | none => d
  | some r => match margin with
    | some m =>
      let d := { d with
        mem.retrain := amDel c d.mem.retrain
        mem.trainTemp := amSet 0 c (d.rd .MEM_STACK_TEMP_C (c / 32)) d.mem.trainTemp }
      (d.wr .MEM_CH_STATUS_TRAINING 0 c).raise 0xA002 [(2, c), (1, m)]
    | none =>
      if r.failures = 0 then
        ({ d with mem.retrain := amPut c (⟨0, 1, none⟩ : Retrain) d.mem.retrain }).raise 0xA003 [(2, c), (1, 1)]
      else d.retireMemChannel c 0 readable

/-- MEM_PATROL_SCRUB (R354, R355). `written` says that a write reached the line since the scrub read. -/
def Dev.memScrub (d : Dev) (line : Nat) (r : ScrubRead) (written readable : Bool) : Dev :=
  match d.chanOf (line * 64) with
  | none => d
  | some (c, o) =>
    if d.rd .MEM_CH_STATUS_RETIRED c = 1 ∨ d.rd .AVL_STATUS_MODE = 6 then d
    else
      let d := { d with mem.scrubPos := line + 1 }
      match r with
      | .good => d
      | .faulty f => d.lineFault line f readable
      | .corrected =>
        let (pc, bank, row, _) := bankOf c o
        let d := d.cnt .MEM_CH_CNT_CORRECTED c
        let d := if written then d else d.cnt .MEM_CH_CNT_SCRUB_FIXED c
        let k := bankKey pc bank * 16384 + row
        let ts := d.recent (d.rd .MEM_RETIRE_CFG_FAULT_WINDOW_H) (amGet [] k d.mem.rowFixes) ++ [d.now]
        if ts.length < d.rd .MEM_RETIRE_CFG_ROW_CE_THRESHOLD then { d with mem.rowFixes := amSet [] k ts d.mem.rowFixes }
        else
          let (d, ok) := { d with mem.rowFixes := amDel k d.mem.rowFixes }.repairRow pc bank row
          if ok then d else d.memFaultCount c readable

/-! ## Requests (R340–R345) -/

/-- TARGET_NS of a port. -/
def Dev.targetNs (d : Dev) (p : Nat) : Nat := d.rd .MEM_PORT_CFG_TARGET_US10 p * 10

/-- Is a request served as real time: its class, while PANIC_EN of its port is set (R342)? -/
def Dev.isRt (d : Dev) (q : MemReq) : Bool := q.cls == 0 && d.rd .MEM_PORT_CFG_PANIC_EN q.port.val == 1

/-- Urgency of an LT request (R343): by how much of TARGET_NS has passed. -/
def Dev.urgency (d : Dev) (q : MemReq) : Nat :=
  let t := d.targetNs q.port.val
  if 4 * q.waited < t then 0 else if 2 * q.waited < t then 1 else if 4 * q.waited < 3 * t then 2 else 3

/-- Order of a request among those that wait (R344, R390): rank, credit, urgency, port. -/
def Dev.memRank (d : Dev) (q : MemReq) : Nat :=
  let credit := b2n (!d.hasCredit 1 q.inst.val)
  let key := fun (rank credit urg : Nat) => ((rank * 2 + credit) * 4 + (3 - urg)) * 256 + q.port.val
  if q.cls = 2 then key 6 0 0
  else if d.isRt q then (if d.rd .MEM_PORT_STAT_PANIC q.port.val = 1 then key 2 0 0 else key 4 0 0)
  else
    let u := d.urgency q
    if u = 3 then key 3 credit 3 else key 5 credit u

/-- Insert a request at its place. -/
def insertReq (f : MemReq → Nat) (q : MemReq) : List MemReq → List MemReq
  | [] => [q]
  | x :: xs => if f q < f x then q :: x :: xs else x :: insertReq f q xs

/-- Bytes of a request. -/
def memReqLen (q : MemReq) : Nat := match q.write with | some bs => bs.length | none => q.len

/-- A request that the protection stage refuses (R340). -/
def Dev.refuseReq (d : Dev) (q : MemReq) : Dev :=
  let d := (d.cnt .MEM_PROT_CNT_REFUSED).raiseSec q.inst.val 0xA040 (q.agent % 2 ^ 24) [(2, q.agent), (1, q.inst.val), (8, q.addr)]
  match q.write with
  | some _ => d
  | none => d.send (.memRead q.port.val q.agent true [])

/-- Serve one request (R340, R343, R345, R352, R353). `starved` says that an LT request of an instance with credit waits
beside it (R395, point 5). -/
def Dev.serveReq (d : Dev) (starved readable : Bool) (q : MemReq) : Dev :=
  let n := memReqLen q
  if q.gen ≠ d.gen q.inst.val then d.cnt .MEM_PROT_CNT_GEN_DROP
  else if n = 0 ∨ !d.memAllowed q.inst.val q.addr n then d.refuseReq q
  else
    let lt : Bool := q.cls != 2 && !d.isRt q
    let late : Bool := lt && decide (d.targetNs q.port.val < q.waited)
    let d := if late then
        (d.cnt .MEM_PORT_STAT_LATE q.port.val).raiseSec 0 0xA031 q.port.val [(2, q.port.val)] else d
    let d := if late && starved && !d.hasCredit 1 q.inst.val then d.yieldAt q.inst.val 5 else d
    let d := d.charge 1 q.inst.val 1
    let ls := linesOf q.addr n
    let d := ls.foldl (fun (d : Dev) l => match d.chanOf (l * 64) with
      | some (c, o) => let (pc, bank, row, _) := bankOf c o; d.activate pc bank row
      | none => d) d
    match q.write with
    | some bs => d.store q.addr bs
    | none =>
      let d := if q.corrected then (match d.chanOf q.addr with | some (c, _) => d.cnt .MEM_CH_CNT_CORRECTED c | none => d) else d
      let d := d.lineFault (q.addr / 64) q.fault readable
      let p := d.poisoned q.addr n
      d.send (.memRead q.port.val q.agent p (if p then [] else d.readMem q.addr n))

/-- MEM_REQUEST (R340, R344): the requests that wait are served by rank; each port's receive-buffer level is told with
them. -/
def Dev.memRequests (d : Dev) (levels : List (Nat × Nat)) (qs : List MemReq) (readable : Bool) : Dev :=
  let d := levels.foldl (fun (d : Dev) p => d.panicLevel p.1 p.2) d
  let sorted := qs.foldl (fun l q => insertReq d.memRank q l) []
  let lts := qs.filter (fun q => q.cls != 2 && !d.isRt q)
  let starved := lts.any (fun q => d.hasCredit 1 q.inst.val)
  sorted.foldl (fun (d : Dev) q => d.serveReq starved readable q) d

/-! ## Resets (table Resets and power states) -/

/-- A warm reset: activate-count tables clear and every bank has its 8 credits; retraining does not go on. -/
def Dev.memWarm (d : Dev) : Dev := { d with mem.banks := [], mem.retrain := [] }

/-- An engine reset of a channel controller: its banks start again. -/
def Dev.memChannelReset (d : Dev) (c : Nat) : Dev :=
  let d := { d with mem.banks := d.mem.banks.filter (fun p => p.1 / 128 != c), mem.retrain := amDel c d.mem.retrain }
  (d.wr .MEM_CH_STATUS_TRAINING 0 c).wr .MEM_CH_STATUS_CREDITS_MIN 8 c

/-- A cold or power-on reset: contents, retirements and relief are lost; a channel that self-test or training rejects is
retired again when the path is built (R356, R358). -/
def Dev.memCold (d : Dev) : Dev :=
  { d with ram := [], mem := ⟨[], [], [], [], [], 0, [], [], [], [], d.mem.spares, [], 0⟩ }

end Sys2Proof.Machine
end

