-- ==== Sys2Proof/Machine/Build.lean ====
section
/-! DEFINITION. Building the data path from the active image, step by step (spec/02_structure_image.md, R39, R54, R58–R60,
the table Data path build). -/
namespace Sys2Proof.Machine

/-! ## Self-test (R25, R58, R356, R383, R446) -/

/-- Resources of one kind that Bring-up found bad. -/
def badLinksOf (f : Found) : List Nat := f.bad.filterMap (fun r => match r with | .link k => some k | _ => none)
/-- Lanes that fail adaptation. -/
def badLanesOf (f : Found) : List Nat := f.bad.filterMap (fun r => match r with | .lane k => some k | _ => none)
/-- Cores that fail self-test. -/
def badCoresOf (f : Found) : List Nat := f.bad.filterMap (fun r => match r with | .core k => some k | _ => none)
/-- Codec engines that fail self-test. -/
def badCodecsOf (f : Found) : List Nat := f.bad.filterMap (fun r => match r with | .codec k => some k | _ => none)
/-- Check engines that fail self-test. -/
def badChecksOf (f : Found) : List Nat := f.bad.filterMap (fun r => match r with | .check k => some k | _ => none)
/-- Flash channels that fail training. -/
def badFlashOf (f : Found) : List Nat := f.bad.filterMap (fun r => match r with | .flash k => some k | _ => none)
/-- Memory channels that fail training or self-test. -/
def badMemoryOf (f : Found) : List Nat := f.bad.filterMap (fun r => match r with | .memory k => some k | _ => none)
/-- Gecko positions that fail self-test. -/
def badGeckoOf (f : Found) : List Nat := f.bad.filterMap (fun r => match r with | .gecko k => some k | _ => none)

/-- A core that self-test rejects is out of service before the groups are written (R446). -/
def Dev.rejectCore (d : Dev) (c : Nat) : Dev :=
  let x := d.core c
  if x.retired ∨ 272 ≤ c then d
  else
    let d := d.setCore c { x with retired := true, halted := true }
    let d := (d.wr .AVL_SPARES_CORES_RETIRED (d.rd .AVL_SPARES_CORES_RETIRED + 1)).degrade 2 c
    if 256 ≤ c then d.wr .AVL_SPARES_SPARE_CORES (d.rd .AVL_SPARES_SPARE_CORES - 1) else d

/-- What self-test rejects before an image is validated: links and cores (stage 7 of R57 asks for them). -/
def Dev.selfTest (d : Dev) (f : Found) : Dev :=
  (badCoresOf f).foldl Dev.rejectCore ((badLinksOf f).foldl Dev.retireLink d)

/-! ## Step 1: regions (R49, R60) -/

/-- The region of a REGIONS record. -/
def regionOf (r : List Byte) : Region :=
  ⟨leAt 0 1 r, leAt 1 1 r, leAt 4 1 r, leAt 3 1 r, leAt 2 1 r, leAt 8 8 r, leAt 0x10 8 r, leAt 0x10 8 r⟩

/-- Spare rows left in a stack. -/
def Dev.spareRowsLeft (d : Dev) (s : Nat) : Nat :=
  ((List.range 4096).map (fun k => Config.spareRows (s * 4096 + k) - amGet 0 (s * 4096 + k) d.mem.spares)).sum

/-- The region map after a cold or power-on reset: every region is zeroed; a channel that training rejected is retired. -/
def Dev.buildRegions (d : Dev) (f : Found) : Dev :=
  let d := { d with ram := [], mem.regions := (d.secRecs 5).map regionOf }
  let d := (List.range 4).foldl (fun (d : Dev) s => d.wr .MEM_STACK_SPARE_ROWS (d.spareRowsLeft s) s) d
  let d := { d with dur.slotCount := match d.mem.regions.find? (fun (r : Region) => r.kind == 1) with | some r => r.size / 4096 | none => 0 }
  let d := (badMemoryOf f).foldl (fun (d : Dev) c => d.retireMemChannel c 2 false) d
  { d with mem.lost := [], mem.poison := [] }

/-- The region map after a warm reset (table Regions across a warm reset): kinds 3 and 7, the work-item pool and the
thumbnail rings are zeroed; all else is held. -/
def Dev.keepRegions (d : Dev) : Dev :=
  let d := (d.mem.regions.filter (fun r => r.kind == 3 || r.kind == 7)).foldl (fun (d : Dev) r => d.zeroMem r.base r.size) d
  let d := d.zeroMem d.poolBase (131072 * 384)
  d.cap.streams.foldl (fun (d : Dev) p =>
    (d.zeroMem p.2.thumbBase (8 * p.2.thumbLen)).modStream p.1 (fun x => { x with thumbNext := 0 })) d

/-! ## Steps 2 to 5: instances, cores, Gecko, sluices -/

/-- Load an INSTANCES record into the instance's registers (R51). -/
def Dev.loadInstance (d : Dev) (r : List Byte) : Dev :=
  let n := leAt 0 1 r
  let d := (d.wr .INS_STATUS_ENABLED (leAt 1 1 r) n).wr .INS_CORES_CORES_MIN (leAt 4 2 r) n
  let d := ((d.wr .INS_SHARE_CODEC_PM (leAt 6 2 r) n).wr .INS_SHARE_MEMBW_PM (leAt 8 2 r) n).wr .INS_SHARE_FLASHBW_PM (leAt 0xA 2 r) n
  let d := ((d.wr .INS_CAPACITY (leAt 0xC 4 r) n).wr .INS_QUOTA_GECKO (leAt 0x10 4 r) n).wr .INS_QUOTA_TASKS (leAt 0x14 4 r) n
  ((d.wr .INS_QUOTA_CONN (leAt 0x18 4 r) n).wr .INS_QUOTA_STREAMS (leAt 0x1C 2 r) n).wr .INS_SLUICE (leAt 0x20 4 r) n

/-- Cores of a CORES record. -/
def coresOfRec (r : List Byte) : List Nat := (List.range (leAt 4 2 r)).map (· + leAt 2 2 r)

/-- Write the core groups to Eft (R52); a core that self-test rejected leaves its group and a spare takes its place
(R446). -/
def Dev.buildCores (d : Dev) : Dev :=
  let recs := d.secRecs 3
  let d := { d with eft.groups := recs.foldl (fun m r => amSet 0 (leAt 0 1 r) (leAt 1 1 r + 1) m) [] }
  let d := recs.foldl (fun (d : Dev) r => (coresOfRec r).foldl (fun (d : Dev) c =>
    let x := d.core c
    if x.retired then d else d.setCore c { x with group := some (leAt 0 1 r), assigned := true }) d) d
  let d := ((List.range 272).filter (fun c => (d.core c).retired)).foldl (fun (d : Dev) c =>
    match recs.find? (fun r => (coresOfRec r).contains c) with
    | some r => (d.raiseI (leAt 1 1 r) 0xE040 [(2, c), (2, leAt 0 1 r), (1, leAt 1 1 r)]).giveSpare (leAt 0 1 r) (leAt 1 1 r)
    | none => d.raise 0xE040 [(2, c), (2, 0), (1, 0)]) d
  recs.foldl (fun (d : Dev) r => if (d.groupCores (leAt 0 1 r)).isEmpty then d.raise 0x9040 [(2, leAt 0 1 r)] else d) d

/-- After a warm reset: program text is written again and the AUTOSTART delays start (R333). -/
def Dev.reloadPrograms (d : Dev) : Dev :=
  let d := (List.range 272).foldl (fun (d : Dev) c => d.loadPrograms c d.eft.programs) d
  (d.eft.programs.flatMap (fun p => if p.unloading then [] else p.autostart)).foldl Dev.startDelay d

/-- Set a Gecko partition (R56). -/
def Dev.loadPart (d : Dev) (r : List Byte) : Dev :=
  let p := leAt 0 1 r
  let d := ((d.wr .GKO_PART_BASE_PRESENT 1 p).wr .GKO_PART_BASE_USER (leAt 1 1 r) p).wr .GKO_PART_BASE_INSTANCE (leAt 2 1 r) p
  (d.wr .GKO_PART_BASE_FIRST (leAt 4 4 r) p).wr .GKO_PART_SIZE (leAt 8 4 r) p

/-! ## Step 6: flumes (R25, R54) -/

/-- The flume of a FLUMES record, along its primary route. Below format 3.1 the twin of that route is the alternate one,
unless it crosses a retired link. -/
def Dev.flumeOf (d : Dev) (fmt : Nat) (r : List Byte) : Flume :=
  let alt := altMask fmt r
  { present := true, cls := leAt 2 1 r, inst := leAt 4 1 r
    stages := (List.range (leAt 3 1 r)).map (fun j => (leAt (8 + 2 * j) 2 r / 1024, leAt (8 + 2 * j) 2 r % 1024))
    links := linksOfMask (leAt 0x18 8 r), altLinks := linksOfMask alt
    hasAlt := alt != 0 && !(fmt < 0x301 && d.crosses alt)
    onAlt := false, down := false, stopped := false, switchTo := false }

/-- Format of the active image. -/
def Dev.activeFormat (d : Dev) : Nat := match d.img.active with | some i => i.major * 256 + i.minor | none => 0

/-- Bring a new flume up: on its alternate route where the primary one crosses a retired link, else down (R25). -/
def Dev.settleFlume (d : Dev) (n : Nat) : Dev := (d.rerouteFlume n).flumeRouteSwitch n

/-- Set up every flume; event 0x1007 below format 3.1 (R54). -/
def Dev.buildFlumes (d : Dev) : Dev :=
  let fmt := d.activeFormat
  let recs := d.secRecs 4
  let fl : AMap Flume := recs.foldl (fun (m : AMap Flume) r => amPut (leAt 0 2 r) (d.flumeOf fmt r) m) []
  let d := { d with sys.flumes := fl, sys.poisoned := [] }
  let d := if fmt < 0x301 then d.raise 0x1007 [(4, (fl.filter (fun p => !p.2.hasAlt)).length)] else d
  fl.foldl (fun (d : Dev) p => d.settleFlume p.1) d

/-! ## Step 7: ports (R37, R58, R469) -/

/-- Configure the port of a LANES record and adapt its lanes; `bad` and `swapped` name lanes of the die. -/
def Dev.adaptPort (d : Dev) (bad swapped : List Nat) (p : Nat) : Dev :=
  let lanes := d.portLanes p
  let k := d.portKind p
  let d := (d.wr .NET_PORT_STATUS_CFG_WIDTH (d.portWidth p) p).wr .NET_PORT_STATUS_KIND k p
  let d := d.wr .NET_PORT_STATUS_LANES_CFG ((lanes.map (fun j => 2 ^ j)).sum) p
  let d := lanes.foldl (fun (d : Dev) j =>
    let d := d.wr .NET_LANE_STATUS_RX_SWAPPED (b2n (swapped.contains (p + j))) (p * 8 + j)
    if bad.contains (p + j) then (d.cnt .NET_LANE_STATUS_FAILS (p * 8 + j)).setLane p j false else d.setLane p j true) d
  d.bringPort p (p + ((lanes.find? (fun j => bad.contains (p + j))).getD 0))

/-- A PCIe endpoint of KIND 2 shows its second link in copy 8 (Port registers). -/
def Dev.secondLink (d : Dev) : Dev :=
  if d.portKind 0 ≠ 2 then d
  else
    let d := ((d.wr .NET_PORT_STATUS_KIND 2 8).wr .NET_PORT_STATUS_LANES_CFG 0xFF 8).wr .NET_PORT_STATUS_UP (d.rd .NET_PORT_STATUS_UP 0) 8
    (List.range 8).foldl (fun (d : Dev) j => d.wr .NET_LANE_STATUS_ADAPTED 1 (8 * 8 + j)) (d.wr .NET_PORT_STATUS_LANES_OK 0xFF 8)

/-- Adapt every port of the image. -/
def Dev.buildPorts (d : Dev) (f : Found) : Dev := (d.ports.foldl (fun (d : Dev) p => d.adaptPort (badLanesOf f) f.swapped p) d).secondLink

/-! ## Step 8: flash (R58, R148, R178, R182) -/

/-- Entries of the fullest column map of a channel, shown. -/
def Dev.showCols (d : Dev) (c : Nat) : Dev :=
  let n := (List.range 32).foldl (fun m k => max m (d.die c k).colmap.length) 0
  (d.wr .FLS_CH_COLMAP_ENTRIES n c).wr .FLS_CH_COLMAP_MAP_FULL (b2n (2048 ≤ n)) c

/-- Dies as they are before training: read levels come back from what was saved (R175). -/
def Dev.reloadDies (d : Dev) : Dev :=
  { d with
    fls.dies := d.fls.dies.map (fun p : Nat × Die =>
      let s : AMap Nat × AMap Nat := match amFind p.1 d.fls.savedLevels with | some s => s | none => ([], [])
      (p.1, { p.2 with retired := false, suspect := false, lastingAt := [], suspectBlocks := [], offsets := s.1, spread := s.2,
                       ups := [], downs := [], hist := [], suspended := false }))
    fls.train := [], fls.training := none, fls.lastingAt := [], fls.unavailable := 0 }

/-- One carrier that is present at the build: powered, trained, its record read (R180, R182). -/
def Dev.buildCarrier (d : Dev) (f : Found) (k : Nat) : Dev :=
  let d := ((d.wr .FLS_CARRIER_PRESENT 1 k).setCarState k 1).setCarState k 2
  let rec_ := (f.records.find? (fun r => r.1 == k)).map (fun r => (⟨r.2.1, r.2.2.1, r.2.2.2.1, r.2.2.2.2⟩ : CarrierRec))
  let dies := (f.dies.filter (fun x => x.1 / 2 == k))
  d.carrierTrained k (!(badFlashOf f).contains (2 * k)) (!(badFlashOf f).contains (2 * k + 1)) rec_ dies

/-- Carriers, dies and channels after a cold or power-on reset. -/
def Dev.buildFlash (d : Dev) (f : Found) : Dev :=
  let d := d.wr .FLS_STATUS_CHANNELS 32
  let d := (List.range 32).foldl (fun (d : Dev) c => d.showCols c) d.reloadDies
  let d := f.present.foldl (fun (d : Dev) k => d.buildCarrier f k) d
  let d := ((badFlashOf f).filter (fun c => !f.present.contains (c / 2))).foldl (fun (d : Dev) c => d.retireChan c) d
  (((List.range 32).foldl (fun (d : Dev) c => d.showChan c) d).showOnline).checkCapacity

/-! ## Step 9: policy (R57's table Policy keys) and the whole build -/

/-- The value of a policy key of the image, or its default. -/
def Dev.policyKey (d : Dev) (k def_ : Nat) : Nat :=
  match (d.secRecs 0xA).find? (fun r => leAt 0 2 r == k) with | some r => leAt 4 4 r | none => def_

/-- Apply the POLICY section. -/
def Dev.applyPolicy (d : Dev) : Dev :=
  let t := d.policyKey 1 1000
  let d := { d with pol := ⟨t, d.policyKey 2 1, d.policyKey 3 50, d.policyKey 4 1⟩ }
  if d.rd .EFT_TICK = t then d else d.changeTick t

/-- What the STI_ registers show of the active image. -/
def Dev.showImage (d : Dev) (i : Image) : Dev :=
  let d := d.wr64 .STI_ACTIVE_SERIAL_LO .STI_ACTIVE_SERIAL_HI i.serial
  let d := (d.wr .STI_ACTIVE_FORMAT_MAJOR i.major).wr .STI_ACTIVE_FORMAT_MINOR i.minor
  (List.range 10).foldl (fun (d : Dev) n =>
    let here := i.secs.any (fun s => s.type == n + 1)
    (d.wr .STI_SECTION_STATE_PRESENT (b2n here) n).wr .STI_SECTION_STATE_DEFAULTED (b2n (!here)) n) d

/-- The KIND of lanes 0–15 of the active image: that of its PCIe record, else 0. -/
def Dev.imageKind (d : Dev) : Nat :=
  match (d.secRecs 1).find? (fun r => leAt 2 1 r != 0) with | some r => leAt 2 1 r | none => 0

/-- The table Data path build for an active image. After a warm reset, what survives one is kept (R60, R441). -/
def Dev.buildPath (d : Dev) (f : Found) (warm : Bool) : Dev :=
  match d.img.active with
  | none => d
  | some i =>
    let d := (d.wr .STI_STATUS_STATE 2).showImage i
    let d := if warm then d.keepRegions else d.buildRegions f
    let d := if warm then d else (d.secRecs 2).foldl Dev.loadInstance d
    let d := if warm then d.reloadPrograms else d.buildCores
    let d := if warm then d else (d.secRecs 6).foldl Dev.loadPart d
    let d := d.gkClear 0
    let d := if warm then d.gkRestore else (badGeckoOf f).foldl Dev.gkLose d
    let d := d.sluices.foldl Dev.fillSluice d
    let d := d.buildFlumes
    let d := d.buildPorts f
    let d := if warm then d else d.buildFlash f
    let d := if warm then d else (badChecksOf f).foldl Dev.retireCheck ((badCodecsOf f).foldl Dev.retireEngine d)
    let d := d.applyPolicy
    let d := { d with mgt.boot.kind := some d.imageKind, cap.lastRefill := d.now / 100 }
    (d.wr .STI_STATUS_STATE 3).raise 0x1003 [(8, i.serial)]

end Sys2Proof.Machine
end

