-- ==== Sys2Proof/Machine/Replace.lean ====
section
/-! DEFINITION. Live replacement of the structure image: what stage 8 refuses, the two passes, what each section's change
does, and the reversal (spec/02_structure_image.md, R40, R61–R66). -/
namespace Sys2Proof.Machine

/-! ## What differs between two images -/

/-- What tells records of a section apart: the number a record is for; a CORES record by all of it. -/
def recKey (type : Nat) (r : List Byte) : Nat :=
  match type with
  | 3 => ofLe r
  | 4 | 7 | 0xA => leAt 0 2 r
  | _ => leAt 0 1 r

/-- The record of the same number in a list. -/
def sameRec (type : Nat) (rs : List (List Byte)) (r : List Byte) : Option (List Byte) :=
  rs.find? (fun q => recKey type q == recKey type r)

/-- Records of `a` that `b` does not hold unchanged. -/
def recsOut (a b : List (List Byte)) : List (List Byte) := a.filter (fun r => !b.contains r)

/-- Number of records that differ: added, removed or changed. -/
def recsChanged (type : Nat) (old new : List (List Byte)) : Nat :=
  (recsOut new old).length + ((recsOut old new).filter (fun r => (sameRec type new r).isNone)).length

/-- Does a section differ, by its tag, between two images? -/
def secDiffers (old new : Image) (type : Nat) : Bool :=
  let f := fun (i : Image) => (i.secs.find? (fun s => s.type == type)).map (·.tag)
  f old != f new

/-! ## Stage 8 (R62) -/

/-- Does an instance still own a namespace, stream or connection? -/
def Dev.instInUse (d : Dev) (n : Nat) : Bool :=
  d.hq.ns.any (fun p => p.2.inst == n && p.2.kind < 3) || d.cap.streams.any (fun p => d.streamOwner p.1 == n) ||
  d.hq.conns.any (fun p => p.2.inst == n)

/-- Is a position of a partition at or beyond `count` valid? -/
def Dev.validBeyond (d : Dev) (p count : Nat) : Bool :=
  d.gk.entries.any (fun q => q.2.valid && decide (d.pFirst p + count ≤ q.1 ∧ q.1 < d.pFirst p + d.pCount p))

/-- Would a ring region that ends at `stop` cut a frozen frame? -/
def Dev.cutsFrozen (d : Dev) (num stop : Nat) : Bool :=
  d.cap.streams.any (fun p => p.2.region == num && p.2.frames.any (fun f => f.state == 3 && decide (stop < p.2.slotAddr f.slot + p.2.slotBytes)))

/-- What stage 8 finds against one new record. -/
def Dev.liveRec (d : Dev) (type : Nat) (old : List (List Byte)) (r : List Byte) : Option Nat :=
  match type, sameRec type old r with
  | 1, o =>
    let kind := fun (x : Option (List Byte)) => match x with | some q => leAt 2 1 q | none => 0
    if leAt 0 1 r ≤ 15 && leAt 2 1 r != kind o then some 0x11 else none
  | 2, some o => if leAt 1 1 o == 1 && leAt 1 1 r == 0 && d.instInUse (leAt 0 1 r) then some 0x12 else none
  | 5, o =>
    let live := fun (k : Nat) => k == 0 || k == 7 || k == 8
    match o with
    | none => if live (leAt 1 1 r) then none else some 0x11
    | some q =>
      if q = r then none
      else if !live (leAt 1 1 q) || q.take 0x10 != r.take 0x10 then some 0x11
      else if leAt 1 1 r == 0 && leAt 0x10 8 r < leAt 0x10 8 q && d.cutsFrozen (leAt 0 1 r) (leAt 8 8 r + leAt 0x10 8 r) then some 0x12
      else none
  | 6, some o => if leAt 8 4 r < leAt 8 4 o && d.validBeyond (leAt 0 1 r) (leAt 8 4 r) then some 0x12 else none
  | _, _ => none

/-- What stage 8 finds against a record that is removed. -/
def Dev.liveGone (d : Dev) (type : Nat) (r : List Byte) : Option Nat :=
  match type with
  | 1 => if leAt 2 1 r ≠ 0 then some 0x11 else none
  | 2 => if leAt 1 1 r = 1 ∧ d.instInUse (leAt 0 1 r) then some 0x12 else none
  | 5 => if !(leAt 1 1 r == 0 || leAt 1 1 r == 7 || leAt 1 1 r == 8) then some 0x11
         else if d.cap.streams.any (fun p => p.2.region == leAt 0 1 r && leAt 1 1 r == 0) then some 0x12 else none
  | 6 => if d.validBeyond (leAt 0 1 r) 0 then some 0x12 else none
  | _ => none

/-- Stage 8 for one section: the first record whose change is refused; for a removed one, the section's first place. -/
def Dev.liveSection (d : Dev) (old new : Image) (type : Nat) : Option ImgFault :=
  if !secDiffers old new type then none
  else
    let a := (secOf old.secs type).recs
    let s := secOf new.secs type
    match s.scan (fun _ r => (d.liveRec type a r).map (fun c => (c, 0))) with
    | some x => some x
    | none => ((a.filter (fun r => (sameRec type s.recs r).isNone)).findSome? (d.liveGone type)).map
        (fun c => (c, if s.off = 0 then 256 else s.off))

/-- Stage 8. An image with the active serial is none that a replacement applies. -/
def Dev.liveFault (d : Dev) (old new : Image) : Option ImgFault :=
  if old.serial = new.serial then some (0x11, 0x18)
  else ((List.range 10).map (· + 1)).findSome? (d.liveSection old new)

/-! ## What a section's change does: the device follows the section that is now active -/

/-- LANES: ports whose record went or changed go down, and their connections are lost; ports with a new record come up. -/
def Dev.syncLanes (d : Dev) (bad : List Nat) (old new : List (List Byte)) : Dev :=
  let d := (recsOut old new).foldl (fun (d : Dev) r =>
    let p := leAt 0 1 r
    let fs : List Fld := [.NET_PORT_STATUS_UP, .NET_PORT_STATUS_CFG_WIDTH, .NET_PORT_STATUS_RUN_WIDTH, .NET_PORT_STATUS_RUN_OFFSET,
      .NET_PORT_STATUS_KIND, .NET_PORT_STATUS_LANES_OK, .NET_PORT_STATUS_LANES_CFG]
    let d := fs.foldl (fun (d : Dev) f => d.wr f 0 p) d
    let d := (List.range 8).foldl (fun (d : Dev) j => d.wr .NET_LANE_STATUS_ADAPTED 0 (p * 8 + j)) d
    (d.hq.conns.filter (fun c => c.2.port == p)).foldl (fun (d : Dev) c => d.loseConn c.1 false) d) d
  let d := (recsOut new old).foldl (fun (d : Dev) r => d.adaptPort bad [] (leAt 0 1 r)) d
  (d.hq.ctrls.filter (fun k => match k.2.pf with | some pf => d.pfInst pf != some k.2.inst | none => false)).foldl
    (fun (d : Dev) k => d.endController k.1) d.lanesBack

/-- The fields that an INSTANCES record sets at the next epoch. -/
def shareSet (r : List Byte) : List ShareWrite :=
  let n := leAt 0 1 r
  [⟨n, .INS_SHARE_CODEC_PM, leAt 6 2 r⟩, ⟨n, .INS_SHARE_MEMBW_PM, leAt 8 2 r⟩, ⟨n, .INS_SHARE_FLASHBW_PM, leAt 0xA 2 r⟩]

/-- INSTANCES: new shares from the next epoch, all else at once; a changed record overrides live values (R51, R62). -/
def Dev.syncInstances (d : Dev) (old new : List (List Byte)) : Dev :=
  let d := (recsOut old new).foldl (fun (d : Dev) r => if (sameRec 2 new r).isNone then d.wr .INS_STATUS_ENABLED 0 (leAt 0 1 r) else d) d
  (recsOut new old).foldl (fun (d : Dev) r =>
    let n := leAt 0 1 r
    let c := d.rd .INS_SHARE_CODEC_PM n
    let m := d.rd .INS_SHARE_MEMBW_PM n
    let f := d.rd .INS_SHARE_FLASHBW_PM n
    let d := { d with shr.waiting := d.shr.waiting.filter (fun w : ShareWrite => w.inst != n) }
    let d := d.loadInstance r
    let d := ((d.wr .INS_SHARE_CODEC_PM c n).wr .INS_SHARE_MEMBW_PM m n).wr .INS_SHARE_FLASHBW_PM f n
    ({ d with shr.waiting := d.shr.waiting ++ shareSet r }).showStored n) d

/-- CORES: a core changes its group; its running work item goes on to its end (R62). -/
def Dev.syncCores (d : Dev) (old new : List (List Byte)) : Dev :=
  let before := d
  let d := { d with eft.groups := new.foldl (fun m r => amSet 0 (leAt 0 1 r) (leAt 1 1 r + 1) m) [] }
  let place := fun (rs : List (List Byte)) (c : Nat) => (rs.find? (fun r => (coresOfRec r).contains c)).map (leAt 0 1)
  let d := (List.range 256).foldl (fun (d : Dev) c =>
    let x := d.core c
    let g := place new c
    if x.retired then
      match g with
      | some h => if place old c = g then d else d.giveSpare h ((d.groupOwner h).getD 0)
      | none => d
    else if x.group = g then d
    else (d.setCore c { x with group := g, assigned := g.isSome }).loadPrograms c d.eft.programs) d
  let d := ((List.range 16).map (256 + ·)).foldl (fun (d : Dev) c =>
    let x := d.core c
    match x.group with
    | some g =>
      if !x.retired && (d.groupOwner g).isNone then
        (d.setCore c { x with group := none, assigned := false }).wr .AVL_SPARES_SPARE_CORES (d.rd .AVL_SPARES_SPARE_CORES + 1)
      else d
    | none => d) d
  (List.range 64).foldl (fun (d : Dev) g =>
    if (before.groupCores g).isEmpty || !(d.groupCores g).isEmpty then d else d.raise 0x9040 [(2, g)]) d

/-- FLUMES: a removed flume goes; a changed or new one is set up along its primary route (R26, R62). -/
def Dev.syncFlumes (d : Dev) (old new : List (List Byte)) : Dev :=
  let gone := (recsOut old new).map (leAt 0 2)
  let d := { d with
    sys.flumes := d.sys.flumes.filter (fun p => !gone.contains p.1)
    sys.poisoned := d.sys.poisoned.filter (fun x : PoisonedParcel => !gone.contains x.flume) }
  (recsOut new old).foldl (fun (d : Dev) r =>
    let n := leAt 0 2 r
    ({ d with sys.flumes := amPut n (d.flumeOf d.activeFormat r) d.sys.flumes }).settleFlume n) d

/-- REGIONS of kinds 0, 7 and 8: a region grows, shrinks, comes or goes; rings follow (R62). -/
def Dev.syncRegions (d : Dev) (old new : List (List Byte)) : Dev :=
  let gone := ((recsOut old new).filter (fun r => (sameRec 5 new r).isNone)).map (leAt 0 1)
  let d := { d with mem.regions := d.mem.regions.filter (fun x : Region => !gone.contains x.num) }
  (recsOut new old).foldl (fun (d : Dev) r =>
    let y := regionOf r
    let d := match d.mem.regions.find? (fun (x : Region) => x.num == y.num) with
      | some x => { d with mem.regions := d.mem.regions.map (fun z : Region =>
          if z.num = y.num then { y with size := y.full - (x.full - x.size) } else z) }
      | none => { d with mem.regions := d.mem.regions ++ [y] }
    if y.kind = 0 then d.settleRegion y.num else d) d

/-- GECKO: a partition grows at once, shrinks, moves by block moves, comes or goes (R62, R275). -/
def Dev.syncGecko (d : Dev) (old new : List (List Byte)) : Dev :=
  let d := ((recsOut old new).filter (fun r => (sameRec 6 new r).isNone)).foldl (fun (d : Dev) r =>
    let p := leAt 0 1 r
    let d := { d with gk.handles := d.gk.handles.filter (fun h => h.2.part != p)
                      gk.moves := d.gk.moves.filter (fun m : PartMove => m.part != p) }
    ((d.wr .GKO_PART_BASE_PRESENT 0 p).wr .GKO_PART_BASE_MOVING 0 p).wr .GKO_PART_SIZE 0 p) d
  (recsOut new old).foldl (fun (d : Dev) r =>
    let p := leAt 0 1 r
    if !d.pPresent p then d.loadPart r
    else
      let a := d.pFirst p
      let d := (d.loadPart r).wr .GKO_PART_BASE_FIRST a p
      if a = leAt 4 4 r then d
      else { d.wr .GKO_PART_BASE_MOVING 1 p with gk.moves := d.gk.moves.filter (fun m : PartMove => m.part != p) ++ [⟨p, a, leAt 4 4 r⟩] }) d

/-- SLUICES: an added sluice starts full; a changed one takes its new rate and burst at the next refill (R490). -/
def Dev.syncSluices (d : Dev) (old new : List (List Byte)) : Dev :=
  ((recsOut new old).filter (fun r => (sameRec 7 old r).isNone)).foldl (fun (d : Dev) r => d.fillSluice (leAt 0 2 r)) d

/-- FLASH: each channel that a changed profile names takes it and trains again, one at a time (R62). -/
def Dev.syncFlash (d : Dev) (old new : List (List Byte)) : Dev :=
  let hit := fun (c : Nat) => (recsOut old new ++ recsOut new old).any (fun r => bitOf c (leAt 4 4 r))
  let d := d.fls.dies.foldl (fun (d : Dev) p =>
    let c := p.1 / 32
    if !hit c || p.2.retired then d else d.foundDie c (p.1 % 32) p.2.info) d
  ((List.range 32).filter hit).foldl (fun (d : Dev) c => (d.showChan c).requestTraining c false) d

/-- POLICY: at once. -/
def Dev.syncPolicy (d : Dev) : Dev :=
  let d := d.applyPolicy
  (d.mem.regions.filter (fun r => r.kind == 0)).foldl (fun (d : Dev) r => d.settleRings r) d

/-- Follow a section. -/
def Dev.syncSection (d : Dev) (type : Nat) (bad : List Nat) (old new : List (List Byte)) : Dev :=
  match type with
  | 1 => d.syncLanes bad old new
  | 2 => d.syncInstances old new
  | 3 => d.syncCores old new
  | 4 => d.syncFlumes old new
  | 5 => d.syncRegions old new
  | 6 => d.syncGecko old new
  | 7 => d.syncSluices old new
  | 9 => d.syncFlash old new
  | 10 => d.syncPolicy
  | _ => d

/-! ## The two passes (R61) -/

/-- Take the smaller value of each field (offset, bytes) of two records. -/
def minFields (fs : List (Nat × Nat)) (old new : List Byte) : List Byte :=
  fs.foldl (fun r f => putAt f.1 (leBytes f.2 (min (leAt f.1 f.2 old) (leAt f.1 f.2 new))) r) old

/-- What the first pass leaves of a changed record: its reduction; nothing where it is set up anew. -/
def reduced (type : Nat) (old new : List Byte) : Option (List Byte) :=
  match type with
  | 2 => some (minFields [(1, 1), (4, 2), (6, 2), (8, 2), (0xA, 2), (0xC, 4), (0x10, 4), (0x14, 4), (0x18, 4), (0x1C, 2), (0x20, 4)] old new)
  | 5 => some (minFields [(0x10, 8)] old new)
  | 6 => some (minFields [(8, 4)] old new)
  | 7 => some (minFields [(4, 4), (8, 4)] old new)
  | 9 | 10 => some old
  | _ => none

/-- The first pass on the records of a section toward its target: removals and reductions. A CORES record stays while a
core of it goes to another group, which the second pass does. -/
def firstPass (type : Nat) (cur target : List (List Byte)) : List (List Byte) :=
  cur.filterMap (fun r =>
    if target.contains r then some r
    else if type = 3 then (if target.any (fun t => meet (coresOfRec t) (coresOfRec r)) then some r else none)
    else match sameRec type target r with
      | some t => reduced type r t
      | none => none)

/-- Put a section's records into the active image. -/
def Dev.putSection (d : Dev) (s : Section) : Dev :=
  match d.img.active with
  | none => d
  | some i =>
    let rest := i.secs.filter (fun x => x.type != s.type)
    let secs := if s.recs.isEmpty then rest else rest ++ [s]
    { d with img.active := some { i with secs := secs } }

/-- A section's changes are complete: 0x1004 and CHANGES (R63). -/
def Dev.sectionDone (d : Dev) (type records : Nat) : Dev :=
  (d.raise 0x1004 [(2, type), (4, records), (8, d.now)]).cnt .STI_SECTION_STATE_CHANGES (type - 1)

/-- One step toward an image: a pass (first, or second) of a section. `total` is the number of records that differ. -/
def Dev.replaceStep (d : Dev) (bad : List Nat) (target : Image) (total : Nat → Nat) (first : Bool) (type : Nat) : Dev :=
  let cur := secOf ((d.img.active.map Image.secs).getD []) type
  let s := secOf target.secs type
  if cur.recs = s.recs && cur.trailer = s.trailer then d
  else
    let recs := if first then firstPass type cur.recs s.recs else s.recs
    let put := if first then { cur with recs := recs } else s
    let d := (d.putSection put).syncSection type bad cur.recs recs
    if recs = s.recs then (if total type = 0 then d else d.sectionDone type (total type)) else d

/-- The steps in order: the first pass, the second, FLASH and POLICY. -/
def replaceOrder : List (Bool × Nat) :=
  ([1, 8, 4, 7, 3, 6, 5, 2].map (fun t => (true, t))) ++ ([2, 5, 6, 3, 7, 4, 8, 1].map (fun t => (false, t))) ++ [(false, 9), (false, 10)]

/-- Retire a resource that failed meanwhile. -/
def Dev.retire (d : Dev) : Resource → Dev
  | .link k => d.retireLink k
  | .lane k => match (d.secRecs 1).find? (fun r => (recLanes r).contains k) with
    | some r => d.laneLockLoss (leAt 0 1 r) (k - leAt 0 1 r) false
    | none => d
  | .core c => d.retireCore c
  | .codec e => d.retireEngine e
  | .check e => d.retireCheck e
  | .flash c => d.retireChan c
  | .memory c => d.retireMemChannel c 1 true
  | .gecko i => d.gkLose i

/-- The active image is an image with its header, while sections still change. -/
def Dev.headerOf (d : Dev) (i : Image) : Dev :=
  match d.img.active with
  | some a => { d with img.active := some { i with secs := a.secs } }
  | none => d

/-- Reverse the steps already applied, in the opposite order (R64): 0x1006. -/
def Dev.reverseSteps (d : Dev) (bad : List Nat) (old : Image) (done : List (Bool × Nat)) : Dev :=
  let last := done.getLastD (true, 0)
  let d := done.reverse.foldl (fun (d : Dev) s => d.replaceStep bad old (fun _ => 0) (!s.1) s.2) (d.headerOf old)
  ({ d with img.active := some old }).raise 0x1006 [(2, last.2), (2, done.length)]

/-- Apply the steps. `mid` retires a resource after a number of steps; stages 7 and 8 are then repeated (R64). The Boolean
says that the replacement was completed. -/
def Dev.applyImage (d : Dev) (old new : Image) (bad : List Nat) (mid : Option (Nat × Resource)) : Dev × Bool :=
  let total := fun t => if secDiffers old new t then recsChanged t (secOf old.secs t).recs (secOf new.secs t).recs else 0
  let steps := replaceOrder.filter (fun s => secDiffers old new s.2)
  let run := fun (d : Dev) (ss : List (Bool × Nat)) => ss.foldl (fun (d : Dev) s => d.replaceStep bad new total s.1 s.2) d
  let done := match mid with | some (k, _) => steps.take k | none => steps
  let d := run (d.headerOf new) done
  let (d, failed) : Dev × Bool := match mid with
    | none => (d, false)
    | some (_, r) =>
      let d := d.retire r
      (d, (d.deviceFault (new.major * 256 + new.minor) new.secs).isSome || (d.liveFault old new).isSome)
  if failed then (d.reverseSteps bad old done, false)
  else
    let d := run d (steps.drop done.length)
    (({ d with img.active := some new }).showImage new, true)

/-! ## Slots of the boot flash (R38, R40) -/

/-- Write a structure image to the slot that is not the boot slot. -/
def Dev.writeStruct (d : Dev) (bs : List Byte) : Dev :=
  if d.mgt.boot.ptrStruct = 0 then { d with mgt.boot.structB := bs } else { d with mgt.boot.structA := bs }

/-- The boot-slot pointer names the other structure slot. -/
def Dev.flipStruct (d : Dev) : Dev := { d with mgt.boot.ptrStruct := 1 - d.mgt.boot.ptrStruct }

/-- How an activation of a structure image ended. -/
inductive Replaced
  | done
  | rejected (stage cause : Nat)
  | reversed
deriving DecidableEq, Repr

/-- ACTIVATE_STRUCTURE (R57, R61–R65): validation, the inactive slot, both passes, the boot pointer. -/
def Dev.replaceImage (d : Dev) (bs : List Byte) (bad : List Nat) (mid : Option (Nat × Resource)) : Dev × Replaced :=
  let state := d.rd .STI_STATUS_STATE
  let refuse := fun (stage cause off : Nat) =>
    ((d.rejectImage stage cause off).wr .STI_STATUS_STATE state, Replaced.rejected stage cause)
  match d.checkImage bs, d.img.active with
  | .bad stage cause off, _ => refuse stage cause off
  | .ok _, none => refuse 8 0x11 0
  | .ok new, some old =>
    match d.liveFault old new with
    | some (c, o) => refuse 8 c o
    | none =>
      let d := (d.acceptImage new).writeStruct new.raw
      let d := (d.wr .STI_STATUS_STATE 4).setMode 4
      let (d, ok) := d.applyImage old new bad mid
      let d := d.wr .STI_STATUS_STATE 3
      if ok then
        let d := d.flipStruct
        ((d.wr .STI_STATUS_ACTIVE_SLOT d.mgt.boot.ptrStruct).wr .STI_STATUS_PENDING_RESET 0, .done)
      else (d, .reversed)

/-- BOOT_SELECT of a structure image (R62, R425). -/
def Dev.selectStruct (d : Dev) (bs : List Byte) : Dev × Replaced :=
  match d.checkImage bs with
  | .bad stage cause off => (d.rejectImage stage cause off, .rejected stage cause)
  | .ok new => (((d.acceptImage new).writeStruct new.raw).flipStruct.wr .STI_STATUS_PENDING_RESET 1, .done)

end Sys2Proof.Machine
end

