-- ==== Sys2Proof/Machine/Boot.lean ====
section
/-! DEFINITION. Boot, and the power-on, cold and warm resets (spec/02_structure_image.md, R38–R41; spec/14_management.md,
R421, R426, R428, R431; spec/15_availability.md, R438–R441, R448, R449, R452, R455; spec/16_electrical.md). -/
namespace Sys2Proof.Machine

/-! ## Firmware images (R421) -/

/-- The envelope of a firmware image: cause and offset, with the causes of a structure image. -/
def fwEnvelope (bs : List Byte) : Option ImgFault :=
  let h := hdr bs
  let zero := fun o n => allZero (sliceB o n bs)
  let sigO := h 0x50 4
  let sigL := h 0x54 4
  if bs.length < 256 ∨ h 0 4 ≠ 0x5746574C ∨ h 6 2 ≠ 256 ∨ h 8 4 > 32 * 2 ^ 20 ∨ h 8 4 < sigO + sigL ∨ bs.length < h 8 4 ∨
      sigO % 64 ≠ 0 ∨ sigO < 256 ∨ (sigEntries (h 5 1) (sliceB sigO sigL bs)).isNone ∨ !zero 0x12 2 ∨ !zero 0x1A 6 ∨
      !zero 0x58 168 then some (0x01, 0)
  else if h 0x0C 4 ≠ 0x4B440512 ∨ 0xB1 < h 0x10 1 then some (0x02, 0)
  else if !decide (h 5 1 ∈ [2, 3]) ∨ h 4 1 ≠ 0 then some (0x03, 0)
  else none

/-- SVN of a firmware image. -/
def fwSvn (bs : List Byte) : Nat := hdr bs 0x11 1
/-- FW_VERSION of a firmware image. -/
def fwVersion (bs : List Byte) : Nat := hdr bs 0x14 4

/-- The key set that verifies a firmware image (R426). -/
def Dev.fwKeySet (d : Dev) (bs : List Byte) : Option Nat :=
  let sigO := hdr bs 0x50 4
  d.sigsVerify 0 (bs.take sigO) ((sigEntries (hdr bs 5 1) (sliceB sigO (hdr bs 0x54 4) bs)).getD [])

/-- Why a firmware image is not accepted (R421): cause and offset. The spec names no cause for SVN and PROTO_MAX. -/
def Dev.fwFault (d : Dev) (bs : List Byte) : Option ImgFault :=
  match fwEnvelope bs with
  | some x => some x
  | none =>
    if (d.fwKeySet bs).isNone then some (0x04, 0)
    else if Config.sha384 ((bs.take (hdr bs 0x50 4)).drop 256) ≠ sliceB 0x20 48 bs then some (0x05, 0)
    else if 63 < fwSvn bs ∨ fwSvn bs < d.rd .SEC_STATUS_SVN_MIN then some (Config.causeCode (0xD010 * 256) % 256, 0x11)
    else if hdr bs 0x18 2 < 0x0201 then some (Config.causeCode (0xD010 * 256 + 1) % 256, 0x18)
    else none

/-- The firmware image in slot A or B. -/
def Dev.fwSlot (d : Dev) (s : Nat) : List Byte := if s = 0 then d.mgt.boot.fwA else d.mgt.boot.fwB

/-! ## The steward starts (R428, R448, R449) -/

/-- The boot ROM's check of the boot loader (steps 1 and 2). -/
def Dev.loaderGood (d : Dev) : Bool :=
  let f := d.mgt.fuses
  Config.loaderOk d.mgt.boot.loader ((List.range 4).filterMap (fun i =>
    if bitOf 0 (f.use.getD i 0) && !f.revoked.getD i true then some (f.hashes.getD i []) else none))

/-- The firmware slot that boots (step 3): the boot slot, else the other one with the cause; none where both fail. -/
def Dev.fwBoots (d : Dev) : Option (Nat × Option Nat) :=
  let p := d.mgt.boot.ptrFw
  match d.fwFault (d.fwSlot p) with
  | none => some (p, none)
  | some (c, _) => match d.fwFault (d.fwSlot (1 - p)) with
    | none => some (1 - p, some c)
    | some _ => none

/-- A steward pair fails self-test: it is retired (R448). -/
def Dev.retirePair (d : Dev) (p : Nat) : Dev :=
  ((d.wr .AVL_STEWARD_RETIRED_PAIR 1).raise 0xE052 [(1, p)]).degrade 9 p

/-- The steward pairs after self-test: the lowest-numbered that passes is active. The Boolean says that one passes. -/
def Dev.startPairs (d : Dev) (f : Found) : Dev × Bool :=
  let d := { d with avl.pair0 := f.pair0, avl.pair1 := f.pair1 }
  if !f.pair0 && !f.pair1 then (d.raise 0xE053 [], false)
  else
    let d := if f.pair0 then d else d.retirePair 0
    let d := if f.pair1 then d else d.retirePair 1
    ((d.wr .AVL_STEWARD_ACTIVE (b2n (!f.pair0))).wr .AVL_STEWARD_STANDBY_OK (b2n (f.pair0 && f.pair1)), true)

/-- The reference clocks at reset release (R465–R467): the preferred one where it is valid. -/
def Dev.startRefs (d : Dev) (f : Found) : Dev :=
  let d := (d.wr .THM_CLK_REF0_OK (b2n f.ref0)).wr .THM_CLK_REF1_OK (b2n f.ref1)
  let p := d.rd .THM_CLK_PREFER
  let ok := fun r : Nat => if r = 0 then f.ref0 else f.ref1
  let d := { d with avl.refLost := [0, 1].filter (fun r => !ok r) }
  let d := d.wr .THM_CLK_ACTIVE (if ok p || !ok (1 - p) then p else 1 - p)
  let d := if f.ref0 && f.ref1 then d else d.degrade 10 (b2n f.ref0)
  if f.ref0 || f.ref1 then d else (d.wr .THM_CLK_HOLDOVER 1).raise 0xE082 []

/-! ## Keys (R429–R431) -/

/-- What the SEC_KEY_STATE registers show of the key area. -/
def Dev.showKeys (d : Dev) : Dev :=
  (List.range 256).foldl (fun (d : Dev) n =>
    (d.wr .SEC_KEY_STATE_STORED (b2n (amFind n d.mgt.boot.keys).isSome) n).wr .SEC_KEY_STATE_GENERATED
      (b2n (d.mgt.boot.generated.contains n)) n) d

/-- A key enters slot `n`. -/
def Dev.setKey (d : Dev) (n : Nat) (key : List Byte) : Dev :=
  { d with mgt.slots := amPut n key d.mgt.slots }.wr .SEC_KEY_STATE_LOADED 1 n

/-- Every slot is reloaded from the key area once MK is known (R431). -/
def Dev.loadKeys (d : Dev) : Dev :=
  match d.mgt.mgrKey with
  | none => d
  | some m => d.mgt.boot.keys.foldl (fun (d : Dev) p => match Config.kwOpen m p.2 with
    | some key => d.setKey p.1 key
    | none => d) d

/-- MK at boot (R429): unwrapped under the device's key in MODE 0, awaited in MODE 1. -/
def Dev.bootKeys (d : Dev) : Dev :=
  let b := d.mgt.boot
  let m := match b.mkWrapped with | some w => Config.kwOpen (Config.hkdf d.mgt.fuses.duk) w | none => none
  let d := { d with mgt.slots := [], mgt.mgrKey := m }
  (d.wr .SEC_STATUS_MK_STATE (if b.mkMode = 1 then 2 else b2n m.isSome)).showKeys.loadKeys

/-! ## The structure image at Bring-up (R38–R41, R57–R59) -/

/-- The structure image in slot A or B. -/
def Dev.structSlot (d : Dev) (s : Nat) : List Byte := if s = 0 then d.mgt.boot.structA else d.mgt.boot.structB

/-- An image is accepted at Bring-up: Configuration, the data path, and Recovery where AUTO_SERVICE is set. -/
def Dev.bootWith (d : Dev) (f : Found) (slot : Nat) (other : Bool) (i : Image) : Dev :=
  let d := (d.wr .STI_STATUS_ACTIVE_SLOT slot).wr .STI_STATUS_FALLBACK (b2n other)
  let d := (d.acceptImage i).setMode 1
  let d := ({ d with img.active := some i }).buildPath f false
  if d.rd .STI_CTRL = 1 then d.setMode 5 else d

/-- Validate the boot slot, else the other slot; with both rejected the device stays in Configuration (R38, R39). -/
def Dev.bootStructure (d : Dev) (f : Found) : Dev :=
  let p := d.mgt.boot.ptrStruct
  let d := d.wr .STI_STATUS_STATE 1
  match d.checkImage (d.structSlot p) with
  | .ok i => d.bootWith f p false i
  | .bad st c o =>
    let d := d.rejectImage st c o
    match d.checkImage (d.structSlot (1 - p)) with
    | .ok i => (d.raise 0x1005 [(1, 1 - p)]).bootWith f (1 - p) true i
    | .bad st2 c2 o2 =>
      let d := (d.rejectImage st2 c2 o2).wr .STI_STATUS_STATE 5
      let mailbox : Bool := match d.mgt.boot.kind with | some k => k == 1 || k == 2 | none => false
      (d.setMode 1).raise 0x1008 [(1, if p = 0 then c else c2), (1, if p = 0 then c2 else c), (1, b2n mailbox)]

/-- A sanitize that was cut off is pending (R432). -/
def Dev.showSanitize (d : Dev) : Dev := d.wr .SEC_STATUS_SANITIZE_PENDING (b2n (!d.mgt.sanitize.isEmpty))

/-- The table Boot sequence, then the build. The device stays at step 1 while the power-fail input is asserted (R462). -/
def Dev.boot (d : Dev) (f : Found) : Dev :=
  if d.avl.powerFail then d
  else
    let fail := fun (cause : Nat) => (d.wr .SEC_STATUS_BOOT_FAIL 1).send (.uart cause)
    if !d.loaderGood then fail 0
    else match d.fwBoots with
    | none => fail 1
    | some (slot, why) =>
      let (d, up) := d.startPairs f
      if !up then d
      else
        let fw := d.fwSlot slot
        let d := { d with mgt.up := true, avl.mgtMode := f.mgtMode }
        let d := match why with | some c => d.raise 0xD001 [(1, slot), (1, c)] | none => d
        let d := (d.wr .MGT_FW_VERSION (fwVersion fw)).wr .MGT_ACT_FW_SLOT slot
        let d := (d.wr .SEC_STATUS_KEYSET ((d.fwKeySet fw).getD 0)).bootKeys.showSanitize
        let d := ((d.startRefs f).selfTest f).foundDies f.dies
        d.bootStructure f

/-! ## What a reset keeps (R14, R441, table State kept) -/

/-- Copy to the persistent log what is not yet there (R417); 0x0041 where records were lost before. -/
def Dev.logCopy (d : Dev) : Dev :=
  let e := d.ev
  let new := keepLast e.uncopied e.alwaysOn
  let lost := e.lost
  let d := { d with ev := { e with
    plog := keepLast 131072 (e.plog ++ new), plogPos := (e.plogPos + new.length) % 2 ^ 32, uncopied := 0, lost := 0 } }
  if lost = 0 then d else d.raise 0x0041 [(4, lost)]

/-- Ports that are up (R451): link up, in Service, Degraded Service or Activation, outside Standby, its entry and exit. -/
def Dev.upPorts (d : Dev) : List Nat :=
  if decide (d.rd .AVL_STATUS_MODE ∈ [2, 3, 4]) && d.rd .AVL_STATUS_POWER_STATE == 0 then
    d.ports.filter (fun p => d.rd .NET_PORT_STATUS_UP p == 1)
  else []

/-- A reset that the manager did not request stops every port that is up (R452). -/
def Dev.noteStops (d : Dev) (cause : Nat) : Dev :=
  if cause = 1 then d
  else { d with avl.stoppedPorts := d.avl.stoppedPorts ++ d.upPorts, avl.lostAt := some d.now }

/-- The stops of a reset, recorded at the end of Recovery (R452). After a power-on or cold reset the duration is not to be
had from the device time, which began again. -/
def Dev.recordStops (d : Dev) : Dev :=
  let ps := d.avl.stoppedPorts
  let at_ := d.avl.lostAt
  let d := { d with avl.stoppedPorts := [], avl.lostAt := none }
  ps.foldl (fun (d : Dev) p =>
    let (t, d) : Nat × Dev := match at_ with | some _ => (0, d) | none => d.draw 64
    let (s, d) : Nat × Dev := match at_ with | some _ => (0, d) | none => d.draw 32
    let start := at_.getD t
    let dur := match at_ with | some a => d.now - a | none => s
    (d.cnt .AVL_STOPS_COUNT).raise 0xE020 [(2, p), (8, start), (4, dur)]) d

/-- Outputs go low and THERM_ALERT_N is released (R474). Groups: 0 TRIG_OUT, 1 CPWR, 2 GPIO, 3 THERM_ALERT. -/
def Dev.outputsLow (d : Dev) : Dev :=
  let d := d.cap.pulses.foldl (fun (d : Dev) p => d.send (.pin 0 p.1 false)) d
  let d := ((List.range 16).filter (fun k => d.rd .FLS_CARRIER_POWER_EN k == 1)).foldl (fun (d : Dev) k => d.send (.pin 1 k false)) d
  let high := fun k : Nat => bitOf k (d.rd .SYS_GPIO_DIR) && bitOf k (d.rd .SYS_GPIO_OUT)
  let d := ((List.range 16).filter high).foldl (fun (d : Dev) k => d.send (.pin 2 k false)) d
  if d.rd .THM_STATUS_ALERT = 1 then d.send (.pin 3 0 false) else d

/-- Flash after its controllers lost power: dies, records and what the media hold stay. -/
def FlsSt.cold (x : FlsSt) : FlsSt :=
  { FlsSt.blank with
    dies := x.dies, carriers := x.carriers.map (fun p : Nat × Carrier => (p.1, ⟨p.2.record, false, 0, 0, 0, 0, false⟩))
    stripes := x.stripes.filter (fun s => s.programmed || s.dump), nextStripe := x.nextStripe, sbs := x.sbs
    seqNext := x.seqNext, deviceTag := x.deviceTag, savedLevels := x.savedLevels }

/-- Durability after power is lost: what lies on flash. -/
def DurSt.cold (x : DurSt) : DurSt :=
  { DurSt.blank with
    cseqNext := x.cseqNext, pairNext := x.pairNext, journal := x.journal, journalBytes := x.journalBytes, ckpt := x.ckpt
    reserves := x.reserves, dump := x.dump, dumpEnd := x.dumpEnd }

/-- Columns P and C of the table State kept. Device time starts at 0 (R488). -/
def Dev.coldState (d : Dev) (kind : Rst) : Dev :=
  let d := (d.outputsLow).resetRegs kind (fun _ _ => true)
  let p : Bool := kind == .p
  let d := (d.hostLost).memCold
  { d with
    sys := { SysSt.blank with gpioPins := d.sys.gpioPins }
    pol := Policy.blank
    ev := { EvSt.blank with
      next := if p then 0 else d.ev.next, plog := d.ev.plog, plogPos := d.ev.plogPos
      alwaysOn := if p then [] else d.ev.alwaysOn, uncopied := if p then 0 else d.ev.uncopied, lost := if p then 0 else d.ev.lost }
    eft := EftSt.blank, cor := CoreSt.blank, gk := GkSt.blank, chk := ChkSt.blank, img := ⟨none⟩
    cap := { CapSt.blank with catalog := d.cap.catalog, nextFrame := d.cap.nextFrame }
    cdc := CdcSt.blank, fls := d.fls.cold, dur := d.dur.cold
    hq := { HqSt.blank with ns := d.hq.ns, nqns := d.hq.nqns, nextConn := d.hq.nextConn, nextQueue := d.hq.nextQueue, nextCmd := d.hq.nextCmd }
    shr := ShareSt.blank, ins := InsSt.blank
    mgt := { MgtSt.blank with boot := d.mgt.boot, fuses := d.mgt.fuses, nextOp := d.mgt.nextOp, sanitize := d.mgt.sanitize }
    avl := { AvlSt.blank with
      life := if p then d.mgt.boot.life else d.avl.life, lifeSaved := d.avl.lifeSaved, stoppedPorts := d.avl.stoppedPorts
      lostWindows := d.avl.lostWindows, powerFail := d.avl.powerFail, tap := if p then 0 else d.avl.tap } }

/-- AVL_LIFE of the service life: whole equivalent hours, and per mille of 219,000 (R455). -/
def Dev.showLife (d : Dev) : Dev :=
  let h := d.avl.life / 2 ^ 64
  (d.wr .AVL_LIFE_HOURS (h % 2 ^ 22)).wr .AVL_LIFE_LIFE_PM (min 1023 (h * 1000 / 219000))

/-- The reset's own record (table Reset kinds). -/
def Dev.markReset (d : Dev) (kind cause : Nat) : Dev :=
  ((d.wr .AVL_RESET_CAUSE_KIND kind).wr .AVL_RESET_CAUSE_CAUSE cause).raise 0xE010 [(1, kind), (1, cause)]

/-- A power-on reset: everything. -/
def Dev.powerOn (d : Dev) (cause : Nat) (f : Found) : Dev :=
  (((d.noteStops cause).coldState .p).showLife.markReset 0 cause).boot f

/-- A cold reset: Bring-up, with what column C keeps. -/
def Dev.coldReset (d : Dev) (cause : Nat) (f : Found) : Dev :=
  let old := d.rd .AVL_STATUS_MODE
  let d := ((d.noteStops cause).logCopy.coldState .c).markReset 1 cause
  (if old = 0 then d else d.raise 0xE001 [(1, old), (1, 0)]).boot f

/-! ## Warm reset (R440, R441) -/

/-- Capture across a warm reset: frames in progress are committed incomplete with reason 4 and not posted (R83, R94). -/
def Dev.captureWarm (d : Dev) : Dev :=
  let d := d.cap.streams.foldl (fun (d : Dev) p => d.commitAll p.1 4 false) d
  let clear := fun f : Frame => { f with queued := false, cseq := none }
  let d := { d with
    cap.queue := []
    cap.streams := d.cap.streams.map (fun p : Nat × Stream => (p.1, { p.2 with frames := p.2.frames.map clear })) }
  d.wr .CAP_DRAIN_DEPTH 0

/-- Once the streams are rebuilt: verdicts still unknown take their default (R94), and frozen frames wait for their drain
again (R145). -/
def Dev.captureRebuilt (d : Dev) : Dev :=
  let waiting := d.cap.streams.flatMap (fun p => (p.2.frames.filter (fun f => f.pendingVerdict)).map (fun f => (p.1, f.id, f.num)))
  let d := waiting.foldl (fun (d : Dev) x => d.lateVerdict x.1 x.2.1 x.2.2) d
  let frozen := d.cap.streams.flatMap (fun p => (p.2.frames.filter (fun f => f.state == 3)).map (fun f => (p.1, f.id)))
  frozen.foldl (fun (d : Dev) x => d.enqueueDrain x.1 x.2) d

/-- Long operations that a warm reset cuts off end: an activation is abandoned, any other is no longer allowed (DESIGN
CHOICE, notes/assumptions/214). -/
def Dev.cutOps (d : Dev) : Dev :=
  let d := if d.mgt.hold.isSome then ((d.cnt .MGT_ACT_ABANDONED).wr .MGT_ACT_STATE 0).wr .MGT_ACT_STEP 0 else d
  { d with mgt.ops := d.mgt.ops.map (fun o : LongOp =>
      if o.state = 0 then { o with state := 1, status := if o.type = 0x51 then 0x98 else 6 } else o) }

/-- Column W of the table State kept, without the registers. -/
def Dev.warmState (d : Dev) : Dev :=
  let d := ((d.captureWarm).hostLost.codecWarm).memWarm.cutOps
  let task := fun t : Task => { t with posts := [], readyOrd := none, deadline := none }
  let core := fun c : PCore => { coreInit with group := c.group, assigned := c.assigned, retired := c.retired, halted := c.retired,
                                               lastingAt := c.lastingAt }
  { d with
    sys.poisoned := []
    eft.tasks := (d.eft.tasks.map (fun p : Nat × Task => (p.1, task p.2))).filter (fun p => decide (p.2 ≠ taskInit))
    eft.pool := 0, eft.stopped := false
    cor.cores := (d.cor.cores.map (fun p : Nat × PCore => (p.1, core p.2))).filter (fun p => decide (p.2 ≠ coreInit))
    cor.clutchI := [], cor.clutchD := []
    gk.handles := [], gk.updates := [], gk.moves := []
    chk.operand := [], chk.feeds := [], chk.alive := [], hq.resv := d.hq.resv, mgt.slots := [], mgt.entry := none
    mgt.hold := none, avl.thermal := 0, avl.capped := false, avl.capBelow := none
    fls.staged := [], fls.training := none, fls.runs := [], dur.txns := [], dur.page := none, dur.flight := [] }

/-- A warm reset (R440): every port loses its traffic, and the path is built again from the active image. -/
def Dev.warmReset (d : Dev) (cause : Nat) (f : Found) : Dev :=
  let d := d.noteStops cause
  let away := (List.range 16).filter (fun e => d.rd .CHK_CTX_CFG_STATE (e * 64) == 3)
  let d := (d.warmState.resetRegs .w (fun _ _ => true)).markReset 2 cause
  let d := away.foldl (fun (d : Dev) e => d.wrAll .CHK_CTX_CFG_STATE 3 (ctxsOf e)) d
  let (d, up) : Dev × Bool :=
    if cause = 3 then d.startPairs f
    else ((d.wr .AVL_STEWARD_ACTIVE (b2n (!d.avl.pair0))).wr .AVL_STEWARD_STANDBY_OK (b2n (d.avl.pair0 && d.avl.pair1)), true)
  if !up then d.setMode 0
  else
    let d := (d.startRefs f).showKeys.loadKeys
    let d := (d.setMode 1).buildPath f true
    let d := d.captureRebuilt
    if d.img.active.isSome && d.rd .STI_CTRL == 1 then d.setMode 5 else d

end Sys2Proof.Machine
end

