-- ==== Sys2Proof/Machine/Avail.lean ====
section
/-! DEFINITION. Modes, Hold-up, Standby and Maintenance, sanitize, spares and service life (spec/15_availability.md,
R433–R456; spec/06_durability.md, R208–R214; spec/14_management.md, R410, R432). -/
namespace Sys2Proof.Machine

/-! ## Long operations (R410) -/

/-- A new long operation of a TYPE: its identifier. -/
def Dev.newOp (d : Dev) (type : Nat) : Nat × Dev :=
  let id := d.mgt.nextOp + 1
  (id, { d with mgt.nextOp := id, mgt.ops := d.mgt.ops ++ [⟨id, type, 0, 1, 0, 0, []⟩] })

/-- The final statuses of the last 64 operations are kept. -/
def trimOps (ops : List LongOp) : List LongOp :=
  let ended := ops.filter (fun o => o.state == 1)
  let old := (ended.take (ended.length - 64)).map (·.id)
  ops.filter (fun o => !old.contains o.id)

/-- An operation ends with a status, a step and a cause; those that have ended are listed by the order of their end. -/
def Dev.endOp (d : Dev) (id status step cause : Nat) : Dev :=
  match d.mgt.ops.find? (fun o => o.id == id && o.state == 0) with
  | none => d
  | some o => { d with mgt.ops := trimOps (d.mgt.ops.filter (fun o => o.id != id) ++ [{ o with state := 1, status := status, step := step, cause := cause }]) }

/-- The data of an operation's response. -/
def Dev.opData (d : Dev) (id : Nat) (data : List Byte) : Dev :=
  { d with mgt.ops := d.mgt.ops.map (fun o : LongOp => if o.id = id then { o with data := data } else o) }

/-- Does an operation of a TYPE run? -/
def Dev.opRuns (d : Dev) (type : Nat) : Bool := d.mgt.ops.any (fun o => o.type == type && o.state == 0)

/-- The running operation of a TYPE ends. -/
def Dev.endOpOf (d : Dev) (type status : Nat) : Dev :=
  match d.mgt.ops.find? (fun o => o.type == type && o.state == 0) with
  | some o => d.endOp o.id status 0 0
  | none => d

/-! ## Hold-up (R208–R211, R255, R395, R417) -/

/-- Owner of a window. -/
def Dev.windowOwner (d : Dev) (w : TrigWindow) : Nat :=
  match w.group with
  | some g => d.rd .CAP_TG_CFG_INSTANCE g
  | none => d.streamOwner (w.members.headD 0)

/-- Steps 1 to 5 of the table Hold-up sequence, and the log copy that follows them. The owners of windows not yet committed
are noted for the yield that Recovery records (R395, R210). -/
def Dev.flushBuffer (d : Dev) (fl : Flush) : Dev :=
  let lost := (d.cap.windows.filter (fun w => w.left != 0)).map d.windowOwner
  let d := { d with avl.lostWindows := d.avl.lostWindows ++ lost }
  let d := d.raise 0x5001 [(8, d.dirtyBytes)]
  let d := (d.hostLost).codecWarm.resumeDies
  let core := fun c : PCore => { coreInit with group := c.group, assigned := c.assigned, retired := c.retired, halted := true,
                                               lastingAt := c.lastingAt }
  let d := { d with eft.stopped := true, mgt.entry := none, mgt.hold := none
                    cor.cores := d.cor.cores.map (fun p : Nat × PCore => (p.1, core p.2)) }
  let d := d.holdUp fl.ok fl.cut fl.us
  if fl.cut.isNone then d.logCopy else d

/-- Enter Hold-up. -/
def Dev.enterHoldUp (d : Dev) (fl : Flush) : Dev := (d.setMode 6).flushBuffer fl

/-- POWER_FAIL_ASSERT (R208, R433, R462). While the boot waits for the input, nothing is to be flushed. -/
def Dev.powerFailAssert (d : Dev) (fl : Flush) : Dev :=
  if d.avl.powerFail then d
  else
    let d := { d with avl.powerFail := true }
    if d.rd .AVL_STATUS_MODE = 6 then d else d.enterHoldUp fl

/-- POWER_FAIL_DEASSERT (R211, R462): out of Hold-up through a cold reset; a boot that waited for the input goes on. A trip
still holds the cold reset (R478). -/
def Dev.powerFailDeassert (d : Dev) (f : Found) : Dev :=
  let waited := d.avl.powerFail
  let d := { d with avl.powerFail := false }
  if d.avl.tripHold then d
  else if d.rd .AVL_STATUS_MODE = 6 then d.coldReset 2 f
  else if waited ∧ d.rd .AVL_STATUS_MODE = 0 then d.boot f
  else d

/-- RAIL_UNDERVOLT (R461, R484): 0xE090, and Hold-up where it is not under way. -/
def Dev.railUndervolt (d : Dev) (rail : Nat) (fl : Flush) : Dev :=
  if d.rd .AVL_STATUS_MODE = 6 then d.raise 0xE090 [(1, rail)]
  else if d.avl.powerFail then d
  else (d.raise 0xE090 [(1, rail)]).enterHoldUp fl

/-! ## Resets from outside (R438, R464) -/

/-- A cold reset: with the path built and slots dirty, the hold-up steps run first (R438). -/
def Dev.coldRequest (d : Dev) (cause : Nat) (f : Found) (fl : Flush) : Dev :=
  if d.rd .STI_STATUS_STATE = 3 ∧ !d.dirtySlots.isEmpty ∧ d.rd .AVL_STATUS_MODE ≠ 6 then
    (d.flushBuffer fl).coldReset cause f
  else d.coldReset cause f

/-- COLD_RESET_PIN. While a trip holds the device in cold reset there is nothing more to reset. -/
def Dev.coldPin (d : Dev) (f : Found) (fl : Flush) : Dev :=
  if d.avl.tripHold then d else d.coldRequest 0 f fl

/-! ## Sanitize (R432) -/

/-- Nothing stored under a namespace key is found any more. -/
def Dev.forgetStored (d : Dev) (key : Nat) : Dev :=
  let d := { d with dur.map := d.dur.map.filter (fun e => e.nsid != key), hq.ns := amDel key d.hq.ns, hq.resv := amDel key d.hq.resv }
  d.stewardTxn (.dealloc (2 ^ 64) key 0 (2 ^ 52))

/-- Step 3 for an instance: namespaces, catalog log, index entries, buffer slots and ring slots. -/
def Dev.wipeInstance (d : Dev) (n : Nat) : Dev :=
  let mine := fun k : Nat => k / 65536 == n
  let d := { d with
    dur.txns := d.dur.txns.map (fun t : Txn => match t.kind with
      | .write _ ns _ => if mine ns ∧ t.stage ≠ 2 then { t with stage := 3 } else t
      | .frame _ _ ns _ _ => if mine ns ∧ t.stage ≠ 2 then { t with stage := 3 } else t
      | _ => t)
    dur.slots := d.dur.slots.filter (fun p : Nat × Slot => !mine p.2.nsid)
    cap.catalog := amDel n d.cap.catalog }
  let d := match d.hgPart 2 n with
    | some p => { d with gk.entries := d.gk.entries.map (fun e : Nat × GEntry =>
        if d.pFirst p ≤ e.1 ∧ e.1 < d.pFirst p + d.pCount p then (e.1, { e.2 with valid := false }) else e) }
    | none => d
  ((((d.hq.ns.filter (fun p => mine p.1)).map (·.1)).foldl Dev.forgetStored d).showDirty.showStored n).settle

/-- Rings of an instance's streams. -/
def Dev.zeroRings (d : Dev) (n : Nat) : Dev :=
  d.cap.streams.foldl (fun (d : Dev) p =>
    if d.streamOwner p.1 = n then d.zeroMem p.2.base (ringBytes p.2.slotBytes p.2.slots) else d) d

/-- A key leaves its slot and the key area. -/
def Dev.eraseKey (d : Dev) (n : Nat) : Dev :=
  let d := { d with mgt.slots := amDel n d.mgt.slots, mgt.boot.keys := amDel n d.mgt.boot.keys
                    mgt.boot.generated := d.mgt.boot.generated.filter (fun k => k != n) }
  ((d.wr .SEC_KEY_STATE_LOADED 0 n).wr .SEC_KEY_STATE_STORED 0 n).wr .SEC_KEY_STATE_GENERATED 0 n

/-- The device's own steps: every block erased, stacked memory zeroed, key area and MK cleared. -/
def Dev.wipeDevice (d : Dev) : Dev :=
  let sbs : AMap Superblock := (List.range d.sbTotal).map (fun k => (k, { sbInit with erases := (d.sb k).erases + 1 }))
  let d := { d with
    fls.sbs := sbs, fls.stripes := [], fls.staged := []
    dur.map := [], dur.txns := [], dur.slots := [], dur.page := none, dur.flight := [], dur.journal := [], dur.journalBytes := 0
    dur.tweak := [], dur.reserves := [], dur.dump := [], dur.dumpEnd := false
    ram := [], mem.poison := [], mem.lost := [], mem.healed := [], gk.copy := []
    eft.programs := d.eft.programs.map (fun p : Program =>
      { p with segs := p.segs.map (fun s : Segment => { s with bytes := zeros s.bytes.length }) })
    mgt.slots := [], mgt.mgrKey := none, mgt.boot.keys := [], mgt.boot.generated := [], mgt.boot.mkWrapped := none, mgt.boot.mkMode := 0 }
  let d := { d with dur.ckpt := d.snapshot }
  let d := (List.range 256).foldl (fun (d : Dev) n => d.eraseKey n) d
  ((d.wr .SEC_STATUS_MK_STATE 0).showDirty.showFree).fillReserve

/-- One step of a sanitize, and where it stands then; none when it has ended. -/
def Dev.sanitizeStep (d : Dev) (s : Sanitize) : Dev × Option Sanitize :=
  match s.step with
  | 1 =>
    let d := d.zeroRings s.inst
    (if s.inst ≠ 0 ∧ d.insOn s.inst then d.instanceReset s.inst else d, some { s with step := 2 })
  | 2 => (d.eraseKey s.inst, some { s with step := 3 })
  | 3 => (d.wipeInstance s.inst, some { s with step := 4 })
  | 4 =>
    let d := d.raiseI s.inst 0xD020 [(1, s.inst)]
    if !s.device then (d.endOp s.op 0 4 0, none)
    else match (List.range 256).find? (fun n => decide (s.inst < n) && d.insOn n) with
      | some n => (d, some { s with inst := n, step := 1 })
      | none => (d, some { s with step := 5 })
  | _ => ((d.wipeDevice.raise 0xD021 []).endOp s.op 0 5 0, none)

/-- Steps of the sanitize under way, at most `k` of them. -/
def Dev.runSanitize : Nat → Dev → Dev
  | 0, d => d
  | k + 1, d =>
    match d.mgt.sanitize with
    | [] => d
    | s :: rest =>
      let (d, next) := d.sanitizeStep s
      let d := { d with mgt.sanitize := match next with | some x => x :: rest | none => rest }
      runSanitize k (if d.mgt.sanitize.isEmpty then d.showSanitize else d)

/-- Steps that every journaled sanitize takes at most. -/
def Dev.sanitizeFuel (d : Dev) : Nat := 1100 * d.mgt.sanitize.length

/-! ## Recovery (R212–R214, R434, R435, R452) -/

/-- RECOVERY_RUN: the table Recovery steps, a sanitize that was cut off, the stops of the reset; then Service or Degraded
Service. -/
def Dev.recoveryRun (d : Dev) (bad : Option Nat) (undecoded : List Nat) : Dev :=
  if d.rd .AVL_STATUS_MODE ≠ 5 then d
  else
    let d := d.recover bad undecoded (d.rd .AVL_RESET_CAUSE_KIND == 2)
    let lost := d.avl.lostWindows
    let d := lost.foldl (fun (d : Dev) n => d.yieldAt n 2) { d with avl.lostWindows := [] }
    let d := Dev.runSanitize d.sanitizeFuel d
    ((d.setMode d.serviceMode).recordStops).endOpOf 0x40 0

/-! ## Entering and leaving Maintenance and Standby (R436, R443–R445) -/

/-- No command is left but requests for asynchronous events. -/
def Dev.commandsDone (d : Dev) : Bool :=
  d.hq.cmds.all (fun c => d.hq.ctrls.any (fun p => p.2.aers.contains c.handle))

/-- No window still drains. -/
def Dev.windowsDone (d : Dev) : Bool := d.cap.streams.all (fun p => p.2.frames.all (fun f => f.state != 3 && f.state != 4))

/-- Unbind every stream with a CLOSE reason. -/
def Dev.unbindAll (d : Dev) (reason : Nat) : Dev :=
  d.cap.streams.foldl (fun (d : Dev) p => match d.stream p.1 with
    | some x => if x.bound then (d.sendClose p.1 x reason).unbind p.1 reason else d
    | none => d) d

/-- No work item runs, every codec queue is empty and every engine idle. -/
def Dev.workDone (d : Dev) : Bool :=
  d.cor.cores.all (fun p => p.2.wi.isNone) && d.cdc.engines.isEmpty && (List.range 64).all (fun q => d.qHeld q == 0)

/-- Bits of AVL_STANDBY_LOSS whose kind of state holds anything (R445). -/
def Dev.standbyLoss (d : Dev) (e : Entry) : List Fld :=
  let core := fun x : PCore => { x with group := none, assigned := false, retired := false, halted := false, lastingAt := [] }
  ([(.AVL_STANDBY_LOSS_TIME_HOLDOVER, d.rd .SYS_TIME_STATUS_LOCKED == 1), (.AVL_STANDBY_LOSS_ALIVE, e.alive),
    (.AVL_STANDBY_LOSS_CHECK_CTX, (List.range 1024).any (fun i => decide (d.rd .CHK_CTX_CFG_STATE i ∈ [1, 2]) || d.ctxVal i != 0)),
    (.AVL_STANDBY_LOSS_GECKO, d.gk.entries.any (fun g => g.2.valid)),
    (.AVL_STANDBY_LOSS_CONNECTIONS, !d.hq.conns.isEmpty), (.AVL_STANDBY_LOSS_STREAMS, e.streams),
    (.AVL_STANDBY_LOSS_CORE_STATE, !d.cor.clutchI.isEmpty || !d.cor.clutchD.isEmpty ||
      d.cor.cores.any (fun p => decide (core p.2 ≠ coreInit)))] : List (Fld × Bool)).filterMap (fun p => if p.2 then some p.1 else none)

/-- The fields of AVL_STANDBY_LOSS, whose value the event 0xE031 carries (R436). -/
def standbyLossFields : List Fld :=
  [.AVL_STANDBY_LOSS_ENTRIES, .AVL_STANDBY_LOSS_TIME_HOLDOVER, .AVL_STANDBY_LOSS_ALIVE, .AVL_STANDBY_LOSS_CHECK_CTX,
   .AVL_STANDBY_LOSS_GECKO, .AVL_STANDBY_LOSS_CONNECTIONS, .AVL_STANDBY_LOSS_STREAMS, .AVL_STANDBY_LOSS_CORE_STATE]

/-- Steps 5 and 6 of the table Standby entry. -/
def Dev.standbyDown (d : Dev) (e : Entry) : Dev :=
  let d := (d.standbyLoss e).foldl (fun (d : Dev) f => d.wr f 1) d
  let d := d.cnt .AVL_STANDBY_LOSS_ENTRIES
  let d := ((List.range 16).filter (fun k => d.rd .FLS_CARRIER_POWER_EN k == 1)).foldl (fun (d : Dev) k => d.send (.pin 1 k false)) d
  let d := d.hq.conns.foldl (fun (d : Dev) p => d.send (.tcpClose p.1)) d
  let d := d.hostLost.gkClear 1
  let away := (List.range 16).filter (fun e => d.rd .CHK_CTX_CFG_STATE (e * 64) == 3)
  let core := fun c : PCore => { coreInit with group := c.group, assigned := c.assigned, retired := c.retired, halted := c.retired,
                                               lastingAt := c.lastingAt }
  let d := { d with
    cor.cores := (d.cor.cores.map (fun p : Nat × PCore => (p.1, core p.2))).filter (fun p => decide (p.2 ≠ coreInit))
    cor.clutchI := [], cor.clutchD := [], chk.operand := [], chk.feeds := [], chk.alive := [], cap.sessions := []
    mgt.slots := [], mgt.entry := none, avl.everOnline := [] }
  let d := d.resetRegs .s (fun _ _ => true)
  let d := away.foldl (fun (d : Dev) e => d.wrAll .CHK_CTX_CFG_STATE 3 (ctxsOf e)) d
  let d := d.wr .AVL_STATUS_POWER_STATE 1
  (d.raise 0xE031 [(4, d.wordOf (fun _ _ => none) 0 standbyLossFields)]).endOp e.op 0 6 0

/-- Go on with an entry while what its step waits for has come (R436, table Standby entry). -/
def Dev.pumpEntry : Nat → Dev → Dev
  | 0, d => d
  | k + 1, d =>
    match d.mgt.entry with
    | none => d
    | some e =>
      let jump := fun (d : Dev) (s : Nat) => pumpEntry k { d with mgt.entry := some { e with step := s } }
      match e.step with
      | 1 =>
        if !d.commandsDone || !d.windowsDone then d
        else if e.standby then jump { d.unbindAll 4 with eft.stopped := true } 2
        else
          let d := { d with mgt.entry := none }
          (d.setMode 7).endOp e.op 0 0 0
      | 2 => if d.workDone then jump d 3 else d
      | _ =>
        let d := d.flushJournal.settle
        if !d.dur.slots.isEmpty || !d.dur.txns.isEmpty || d.dur.page.isSome || !d.dur.flight.isEmpty then d
        else ((d.saveLevels true).checkpoint).standbyDown e

/-- Go on with an entry. -/
def Dev.goOnEntry (d : Dev) : Dev := Dev.pumpEntry 4 d

/-- MODE TARGET 1, accepted as an operation: admission closes and every stream is unbound with CLOSE reason 3. -/
def Dev.enterMaintenance (d : Dev) (op : Nat) : Dev :=
  (({ d with mgt.entry := some ⟨false, op, 1, false, false⟩ }).unbindAll 3).goOnEntry

/-- MODE TARGET 3: step 1 of the table Standby entry, and on. -/
def Dev.enterStandby (d : Dev) (op : Nat) : Dev :=
  let e : Entry := ⟨true, op, 1, d.cap.streams.any (fun p => p.2.bound), !d.chk.alive.isEmpty⟩
  ((({ d with mgt.entry := some e }).wr .AVL_STATUS_POWER_STATE 2).raise 0xE030 []).goOnEntry

/-- MODE TARGET 4: the table Standby exit. -/
def Dev.leaveStandby (d : Dev) (op : Nat) (f : Found) : Dev :=
  let d := d.wr .AVL_STATUS_POWER_STATE 3
  let d := d.showKeys.loadKeys
  let d := f.present.foldl (fun (d : Dev) k => d.buildCarrier f k) d
  let d := (d.buildPorts f).showOnline
  let d := d.reloadPrograms.gkRestore
  let d := d.cap.catalog.foldl (fun (d : Dev) p => d.refillIndex p.1 p.2) d
  let d := ({ d with eft.stopped := false }).wr .AVL_STATUS_POWER_STATE 0
  let (t, d) := d.draw 32
  (d.raise 0xE032 [(4, t)]).endOp op 0 7 0

/-- MODE TARGET 2: admission opens again. -/
def Dev.leaveMaintenance (d : Dev) (op : Nat) : Dev := (d.setMode d.serviceMode).endOp op 0 0 0

/-! ## Steward pairs (R448, R449) -/

/-- A pair stops while the other is in service, which takes over where the stopped one was active. -/
def Dev.pairStop (d : Dev) (p : Nat) (passes : Bool) : Dev :=
  let active := d.rd .AVL_STEWARD_ACTIVE = p
  let d := if active then (d.cnt .AVL_STEWARD_FAILOVERS).wr .AVL_STEWARD_ACTIVE (1 - p) else d
  let d := d.raise 0xE050 [(1, p), (1, 1 - p)]
  if passes then (d.wr .AVL_STEWARD_STANDBY_OK 1).raise 0xE051 [(1, p)]
  else
    let d := if p = 0 then { d with avl.pair0 := false } else { d with avl.pair1 := false }
    (d.wr .AVL_STEWARD_STANDBY_OK 0).retirePair p

/-- STEWARD_MISMATCH: a pair in service stops; `passes` is its self-test. The last pair's loss is a warm reset. -/
def Dev.stewardMismatch (d : Dev) (p : Nat) (passes : Bool) (f : Found) : Dev :=
  let on := fun q : Nat => if q = 0 then d.avl.pair0 else d.avl.pair1
  if !d.mgt.up ∨ 1 < p ∨ !on p then d
  else if !on (1 - p) then d.warmReset 3 f
  else
    d.pairStop p passes

/-! ## Stops and service life (R451, R452, R455) -/

/-- STOP_DETECT: an up port has admitted nothing for `ms`; `start` is when that began. -/
def Dev.stopDetect (d : Dev) (p start ms : Nat) : Dev :=
  if ms ≤ 100 ∨ !d.upPorts.contains p then d
  else (d.cnt .AVL_STOPS_COUNT).raise 0xE020 [(2, p), (8, start), (4, ms * 1000000)]

/-- Terms of exp(a / b), at scale 2^96. -/
def expTerms (a b : Nat) : Nat → Nat → Nat → Nat
  | 0, _, _ => 0
  | k + 1, i, t => t + expTerms a b k (i + 1) (if b = 0 then 0 else t * a / (b * i))

/-- AF at `t` °C, at scale 2^96: exp(8,123.5 × (1/353.15 − 1/(t + 273.15))) (R455). -/
def lifeFactor (t : Nat) : Nat :=
  let den := 35315 * (100 * t + 27315)
  if 80 ≤ t then expTerms (81235000 * (t - 80)) den 64 1 (2 ^ 96)
  else 2 ^ 192 / expTerms (81235000 * (80 - t)) den 64 1 (2 ^ 96)

/-- LIFE_TICK: a second of service life at the junction temperature. -/
def Dev.lifeTick (d : Dev) : Dev :=
  let old := d.rd .AVL_LIFE_LIFE_PM
  let add := lifeFactor (d.rd .THM_STATUS_TJ_MAX) / 2 ^ 32 / 3600
  let d := ({ d with avl.life := d.avl.life + add, avl.lifeSaved := d.avl.lifeSaved + 1 }).showLife
  let pm := d.rd .AVL_LIFE_LIFE_PM
  ([800, 1000].filter (fun x => decide (old < x ∧ x ≤ pm))).foldl (fun (d : Dev) _ => d.raise 0xE070 [(2, pm)]) d

/-- LIFE_SAVE: an hour after the last save. -/
def Dev.lifeSave (d : Dev) : Dev :=
  if d.avl.lifeSaved < 3600 then d else { d with mgt.boot.life := d.avl.life, avl.lifeSaved := 0 }

/-- LOG_COPY (R417): by the steward, once it runs. -/
def Dev.copyLog (d : Dev) : Dev := if d.mgt.up then d.logCopy else d

/-! ## Suspects (R222) -/

/-- SUSPECT_CLEAR: a whole fault window without a lasting fault. `k` is the die of a flash channel. -/
def Dev.suspectClear (d : Dev) (r : Resource) (k : Nat) : Dev :=
  match r with
  | .link l => { d with sys.suspectLinks := d.sys.suspectLinks.filter (fun x => x != l), sys.linkLasting := amDel l d.sys.linkLasting }
  | .core c =>
    let x := d.core c
    if (d.recent (d.rd .AVL_RETIRE_CFG_FAULT_WINDOW_H) x.lastingAt).isEmpty then
      (d.setCore c { x with lastingAt := [] }).wr .CORE_STATUS_SUSPECT 0 c
    else d
  | .codec e => d.engineSuspectClear e
  | .check e =>
    if (d.recent 24 (amGet [] e d.chk.lastingAt)).isEmpty then { d with chk.lastingAt := amDel e d.chk.lastingAt } else d
  | .flash c => d.dieSuspectClear c k
  | .memory c =>
    if (d.recent (d.rd .MEM_RETIRE_CFG_FAULT_WINDOW_H) (amGet [] c d.mem.lastingAt)).isEmpty then
      { d with mem.lastingAt := amDel c d.mem.lastingAt }.wr .MEM_CH_STATUS_SUSPECT 0 c
    else d
  | .lane _ | .gecko _ => d

end Sys2Proof.Machine
end

