-- ==== Sys2Proof/Machine/Electrical.lean ====
section
/-! DEFINITION. The electrical interface: reference clocks (R465–R467), sensors, thermal levels and the trip (R267, R450,
R476–R478), the power cap (R458), the PTP servo (R33, R488), PERST (R464) and the TAP (R475). -/
namespace Sys2Proof.Machine

/-! ## Reference clocks -/

/-- Is a reference valid? -/
def Dev.refOk (d : Dev) (r : Nat) : Bool := (if r = 0 then d.rd .THM_CLK_REF0_OK else d.rd .THM_CLK_REF1_OK) == 1

/-- Show a reference's validity. -/
def Dev.setRef (d : Dev) (r v : Nat) : Dev := if r = 0 then d.wr .THM_CLK_REF0_OK v else d.wr .THM_CLK_REF1_OK v

/-- REFCLK_LOSS (R466, R467). -/
def Dev.refLoss (d : Dev) (r : Nat) : Dev :=
  if !d.refOk r then d
  else
    let d := d.setRef r 0
    let d := { d with avl.refLost := r :: d.avl.refLost.filter (fun x => x != r) }
    let o := 1 - r
    if d.refOk o then
      let d := if d.rd .THM_CLK_ACTIVE = r then
          ((d.wr .THM_CLK_ACTIVE o).cnt .THM_CLK_SWITCHES).raise 0xE080 [(1, r), (1, o)]
        else d
      d.degrade 10 r
    else ((d.wr .THM_CLK_HOLDOVER 1).raise 0xE082 []).degrade 10 r

/-- REFCLK_VALID (R466, R467): in holdover the PLLs lock to the reference; otherwise a lost reference counts as valid again,
and with none lost the degraded reason ends. -/
def Dev.refValid (d : Dev) (r : Nat) : Dev :=
  if d.rd .THM_CLK_HOLDOVER = 1 then
    (((d.wr .THM_CLK_HOLDOVER 0).wr .THM_CLK_ACTIVE r).setRef r 1).raise 0xE083 [(1, r)]
  else if d.avl.refLost.contains r then
    let d := ({ d with avl.refLost := d.avl.refLost.filter (fun x => x != r) }.setRef r 1).raise 0xE081 [(1, r)]
    if d.avl.refLost.isEmpty then d.undegrade 10 else d
  else d

/-- REFCLK_REVERT (R466): back to the preferred reference, once it has been valid for 1 s. -/
def Dev.refRevert (d : Dev) : Dev :=
  let p := d.rd .THM_CLK_PREFER
  if d.rd .THM_CLK_REVERT = 1 ∧ p ≠ d.rd .THM_CLK_ACTIVE ∧ d.refOk p ∧ ¬ d.avl.refLost.contains p ∧ d.rd .THM_CLK_HOLDOVER = 0
  then d.wr .THM_CLK_ACTIVE p else d

/-! ## Thermal levels -/

/-- Threshold of a level, °C (table Thermal actions). -/
def thermalThreshold (level : Nat) : Nat := match level with | 0 => 0 | 1 => 85 | 2 => 89 | _ => 93

/-- The highest level whose threshold a temperature reaches. -/
def thermalReached (t : Nat) : Nat := if 93 ≤ t then 3 else if 89 ≤ t then 2 else if 85 ≤ t then 1 else 0

/-- The level after a reading: up to what the temperature reaches; down to the level below while it lies 2 °C under the
threshold of the level (R477; the table's "Below 83" for level 0). -/
def thermalNext (level t : Nat) : Nat :=
  let up := thermalReached t
  if level ≤ up then up
  else if thermalThreshold level ≤ t + 2 then level
  else if 2 ≤ level ∧ thermalThreshold (level - 1) ≤ t + 2 then max up (level - 1)
  else if 3 ≤ level ∧ thermalThreshold (level - 2) ≤ t + 2 then max up (level - 2)
  else up

/-- Put a Gecko level into force (R267). -/
def Dev.geckoLevel (d : Dev) (l : Nat) : Dev :=
  let o := d.rd .GKO_STATUS_LEVEL
  if o = l then d else (d.wr .GKO_STATUS_LEVEL l).raise 0x7010 [(1, o), (1, l), (1, d.rd .THM_STATUS_TJ_MAX)]

/-- Put the levels in force that temperature, power cap, policy and manager call for (R267, R450, R458, R477, R484). -/
def Dev.thermalApply (d : Dev) : Dev :=
  let auto : Bool := d.pol.throttleAutonomy == 1
  let l := if auto then max d.avl.thermal (if d.avl.capped then 2 else 0) else d.rd .THM_CTRL_LEVEL
  let alert : Bool := decide (1 ≤ d.avl.thermal)
  let g := if auto then l else if 93 ≤ d.rd .THM_STATUS_TJ_MAX then 3 else d.rd .GKO_THROTTLE
  let was := d.rd .THM_STATUS_ALERT
  let d := (d.wr .THM_STATUS_LEVEL l).wr .THM_STATUS_ALERT (b2n alert)
  let d := if was = b2n alert then d else d.send (.pin 3 0 alert)
  d.geckoLevel g

/-- 0xE060 for every threshold that the temperature newly reaches. -/
def Dev.noteThresholds (d : Dev) (old new t : Nat) : Dev :=
  ((List.range 4).filter (fun l => decide (old < l ∧ l ≤ new))).foldl
    (fun (d : Dev) l => d.raise 0xE060 [(1, thermalThreshold l), (1, t), (2, Config.causeCode (0xE060 * 256 + l))]) d

/-- The highest report of the stacks (R346, R476). -/
def Dev.stackMax (d : Dev) : Nat := ((List.range 4).map (fun s => d.rd .MEM_STACK_TEMP_C s)).foldl max 0

/-- A trip (R478): TRIPPED, 0xE061 and Hold-up; after it the device stays in cold reset until it has cooled. -/
def Dev.trip (d : Dev) (temp source : Nat) (fl : Flush) : Dev :=
  let d := (d.wr .THM_STATUS_TRIPPED 1).raise 0xE061 [(1, temp), (2, source)]
  let d := if d.rd .AVL_STATUS_MODE = 6 then d else d.enterHoldUp fl
  { d with avl.tripHold := true }

/-- Which sensor or stack a trip names: sensors 0–23, stacks from 24. -/
def Dev.tripSource (d : Dev) (tj : Nat) : Nat :=
  if 98 ≤ tj then ((List.range 24).find? (fun n => d.rd .THM_SENSOR n == tj)).getD 0
  else 24 + ((List.range 4).find? (fun s => d.rd .MEM_STACK_TEMP_C s == d.stackMax)).getD 0

/-- Readings of the sensors, in order. -/
def Dev.setSensors (d : Dev) : Nat → List Nat → Dev
  | _, [] => d
  | n, t :: ts => (d.wr .THM_SENSOR t n).setSensors (n + 1) ts

/-- SENSOR_READ (R476–R478): every 100 µs. -/
def Dev.sensorRead (d : Dev) (temps : List Nat) (f : Found) (fl : Flush) : Dev :=
  let d := d.setSensors 0 (temps.take 24)
  let tj := ((List.range 24).map (fun n => d.rd .THM_SENSOR n)).foldl max 0
  let stack := d.stackMax
  let d := (d.wr .THM_STATUS_TJ_MAX tj).wr .THM_STATUS_STACK_MAX stack
  if d.avl.tripHold then (if tj ≤ 85 then { d with avl.tripHold := false }.coldReset 2 f else d)
  else
    let old := d.avl.thermal
    let new := thermalNext old tj
    let d := ({ d with avl.thermal := new }.noteThresholds old new tj).thermalApply
    if 98 ≤ tj ∨ 100 ≤ stack then d.trip (if 98 ≤ tj then tj else stack) (d.tripSource tj) fl else d

/-- POWER_CAP_CHECK (R458): the power averaged over 10 ms, in 0.1 W. -/
def Dev.powerCapCheck (d : Dev) (dw : Nat) : Dev :=
  let d := d.wr .THM_POWER dw
  let cap := d.rd .THM_CTRL_CAP_W
  let d :=
    if 520 ≤ cap then { d with avl.capped := false, avl.capBelow := none }
    else if cap * 10 < dw then
      let d := if d.avl.capped then d else d.raise 0xE062 [(2, dw), (2, cap)]
      { d with avl.capped := true, avl.capBelow := none }
    else if d.avl.capped ∧ dw < (cap - 20) * 10 then
      match d.avl.capBelow with
      | none => { d with avl.capBelow := some d.now }
      | some t => if t + 100000000 ≤ d.now then { d with avl.capped := false, avl.capBelow := none } else d
    else { d with avl.capBelow := none }
  d.thermalApply

/-! ## PTP -/

/-- Does a port's LANES record set PTP? -/
def Dev.ptpPort (d : Dev) (p : Nat) : Bool := match d.lanes p with | some r => leAt 3 1 r == 1 | none => false

/-- PTP_LOCK (R488): at the first lock the counter steps to TAI. The servo's increment is taken from then on. -/
def Dev.ptpLock (d : Dev) (p tai inc : Nat) : Dev :=
  if !d.ptpPort p ∨ d.rd .SYS_TIME_STATUS_STEPPED = 1 ∨ d.rd .NET_PORT_STATUS_UP p = 0 then d
  else
    let old := d.now
    let d := { d with sys.acc := tai % 2 ^ 64 * 2 ^ 32, sys.inc := inc }
    ((d.wr .SYS_TIME_STATUS_LOCKED 1).wr .SYS_TIME_STATUS_STEPPED 1).raise 0x0040 [(8, old), (8, d.now)]

/-- PTP_LOCK_LOSS (R445): the counter runs free. -/
def Dev.ptpLost (d : Dev) : Dev := d.wr .SYS_TIME_STATUS_LOCKED 0

/-- PTP_RELOCK (R445, R488): LOCKED again, and only the increment changes. -/
def Dev.ptpRelock (d : Dev) (p inc : Nat) : Dev :=
  if !d.ptpPort p ∨ d.rd .SYS_TIME_STATUS_STEPPED = 0 ∨ d.rd .NET_PORT_STATUS_UP p = 0 then d
  else { d with sys.inc := inc }.wr .SYS_TIME_STATUS_LOCKED 1

/-! ## PERST and the TAP -/

/-- The fundamental reset of a PCIe link (R464): its functions' controllers end, and with link 0 the mailbox of physical
function 0 is cleared. -/
def Dev.perst (d : Dev) (link : Nat) : Dev :=
  let split : Bool := (d.secRecs 1).any (fun r => leAt 2 1 r == 2)
  let pfs := (List.range 64).filter (fun n => if split then n % 2 == link else link == 0)
  let d := pfs.foldl (fun (d : Dev) n => d.endController n) d
  if link = 0 then { d with mgt.mbxResp := [], mgt.mbxReady := false } else d

/-- The TAP's instructions that are always available (R475). -/
def tapAlways (i : Nat) : Bool := decide (i ≤ 5)

/-- TAP_INSTRUCTION (R475): 0 EXTEST, 1 SAMPLE/PRELOAD, 2 BYPASS, 3 IDCODE, 4 EXTEST_PULSE, 5 EXTEST_TRAIN; every other number
is an instruction that acts only in Maintenance mode and selects BYPASS otherwise. -/
def Dev.tapInstruction (d : Dev) (i : Nat) : Dev :=
  { d with avl.tap := if tapAlways i ∨ d.rd .AVL_STATUS_MODE = 7 then i else 2 }

/-- IDCODE of the TAP (R475). -/
def idcode : Nat := 0x20512A6D

/-- The levels sampled on the GPIO balls (R475): an output reads the level it drives. -/
def Dev.gpioIn (d : Dev) : Nat :=
  let dir := d.rd .SYS_GPIO_DIR
  (d.rd .SYS_GPIO_OUT &&& dir) ||| (d.sys.gpioPins &&& (65535 - dir))

end Sys2Proof.Machine
end

