-- ==== Sys2Proof/Machine/IO.lean ====
section
/-! DEFINITION. Reads and writes of registers by an agent: routing of an address (R8, R9), pairs (R10), who reaches what (R264,
R316, R379, R405), fields shown from other state, and the effects that writes start. -/
namespace Sys2Proof.Machine

/-! ## Pairs (R10) -/

/-- The _HI partner of a _LO field. -/
def pairHi : Fld → Option Fld
  | .NET_CNT_RX_FRAMES_LO => some .NET_CNT_RX_FRAMES_HI
  | .NET_CNT_TX_FRAMES_LO => some .NET_CNT_TX_FRAMES_HI
  | .NET_CNT_RX_BYTES_LO => some .NET_CNT_RX_BYTES_HI
  | .NET_CNT_TX_BYTES_LO => some .NET_CNT_TX_BYTES_HI
  | .STI_ACTIVE_SERIAL_LO => some .STI_ACTIVE_SERIAL_HI
  | .CAP_SW_TRIG_TIME_LO => some .CAP_SW_TRIG_TIME_HI
  | .CDC_ENG_IN_LO => some .CDC_ENG_IN_HI
  | .CDC_ENG_OUT_LO => some .CDC_ENG_OUT_HI
  | .DUR_DIRTY_LO => some .DUR_DIRTY_HI
  | .DUR_DIRTY_LIMIT_LO => some .DUR_DIRTY_LIMIT_HI
  | .DUR_CSEQ_LO => some .DUR_CSEQ_HI
  | .GKO_SEARCHES_LO => some .GKO_SEARCHES_HI
  | .CORE_EADDR_LO => some .CORE_EADDR_HI
  | .CORE_WIN_BASE_LO => some .CORE_WIN_BASE_HI
  | .CHK_CTX_SRC_LO => some .CHK_CTX_SRC_HI
  | .CHK_CTX_VAL_LO => some .CHK_CTX_VAL_HI
  | .CHK_CTX_RES_LO => some .CHK_CTX_RES_HI
  | _ => none

/-- The _LO partner of a _HI field. -/
def pairLo (f : Fld) : Option Fld :=
  [Fld.NET_CNT_RX_FRAMES_LO, .NET_CNT_TX_FRAMES_LO, .NET_CNT_RX_BYTES_LO, .NET_CNT_TX_BYTES_LO, .STI_ACTIVE_SERIAL_LO,
   .CAP_SW_TRIG_TIME_LO, .CDC_ENG_IN_LO, .CDC_ENG_OUT_LO, .DUR_DIRTY_LO, .DUR_DIRTY_LIMIT_LO, .DUR_CSEQ_LO, .GKO_SEARCHES_LO,
   .CORE_EADDR_LO, .CORE_WIN_BASE_LO, .CHK_CTX_SRC_LO, .CHK_CTX_VAL_LO, .CHK_CTX_RES_LO].find? (fun l => pairHi l == some f)

/-- Does a word belong to an agent's pair? -/
def PairWord.is (p : PairWord) (ag : Agent) (lo : Fld) (i : Nat) : Bool := p.agent == agNum ag && p.lo == lo && p.idx == i

/-- The word an agent holds for a pair in a list of words. -/
def pairWord (ps : List PairWord) (ag : Agent) (lo : Fld) (i : Nat) : Option Nat := (ps.find? (fun p => p.is ag lo i)).map (·.word)

/-- That list without it. -/
def dropPair (ps : List PairWord) (ag : Agent) (lo : Fld) (i : Nat) : List PairWord := ps.filter (fun p => !p.is ag lo i)

/-! ## Fields shown from other state -/

/-- Word `k` of a message, 0 past its end. -/
def msgWord (m : List Byte) (k : Nat) : Nat := leAt (4 * k) 4 m

/-- The value of a field that another part of the state gives. -/
def Dev.liveField (d : Dev) (f : Fld) (i : Nat) : Option Nat :=
  match f with
  | .SYS_GPIO_IN => some d.gpioIn
  | .EFT_STATUS_READY => some ((d.eft.tasks.filter (fun p => d.taskReady p.1)).length)
  | .EFT_TASK_QUEUED => some (d.task i).posts.length
  | .EFT_INS_USE => some (d.insTasks i)
  | .EFT_INS_WI => some (d.insWi i)
  | .EFT_INS_CFG_MAX_PRIO => if i = 0 then some 0 else none
  | .EFT_GROUP_CORES => some ((d.groupCores i).filter (fun c => !(d.core c).retired)).length
  | .EFT_GROUP_IDLE => some ((d.groupCores i).filter (fun c => (d.core c).idle)).length
  | .INS_CORES_CORES_NOW => some (d.coresNow i)
  | .GKO_STATUS_VALID_ENTRIES => some (d.gk.entries.filter (fun e => e.2.valid)).length
  | .GKO_STATUS_MOVING => some (b2n (!d.gk.moves.isEmpty || d.gk.updates.any (fun u => u.op == 3)))
  | .CHK_CTX_RES_LO => some (d.ctxRes i % 2 ^ 32)
  | .CHK_CTX_RES_HI => some (d.ctxRes i / 2 ^ 32)
  | .INS_MBX_IN => some (msgWord ((d.mbxIn (i / 256)).headD []) (i % 256))
  | .FLS_CH_RL_DATA_OFFSET =>
    let x := d.die i (d.rd .FLS_CH_RL_SEL_DIE i)
    some ((x.offset (d.rd .FLS_CH_RL_SEL_GROUP i) (d.rd .FLS_CH_RL_SEL_BOUNDARY i) + 2 ^ 32 - 64) % 2 ^ Fld.FLS_CH_RL_DATA_OFFSET.width)
  | .FLS_CH_RL_DATA_SPREAD => some ((d.die i (d.rd .FLS_CH_RL_SEL_DIE i)).spreadOf (d.rd .FLS_CH_RL_SEL_GROUP i))
  | .HQ_STATUS_INFLIGHT => some d.inflight
  | .CAP_STREAM_SLOTS => if d.streamState i = 0 then none else (d.stream i).map (·.slots)
  | _ => none

/-- The word a register reads as. -/
def Dev.word (d : Dev) (i : Nat) (fs : List Fld) : Nat := d.wordOf (fun f k => d.liveField f k) i fs

/-! ## Reach (R37, R264, R316, R379, R405) -/

/-- Is a copy of the port registers in use (Port registers)? -/
def Dev.portCopyUsed (d : Dev) (p : Nat) : Bool :=
  d.ports.contains p || (p == 8 && (d.secRecs 1).any (fun r => leAt 2 1 r == 2))

/-- What an agent's access to an address meets before the register answers. -/
inductive Gate
  | open_
  | unused
  | refused (d : Dev)
deriving DecidableEq, Repr

/-- The gate of an access. -/
def Dev.gate (d : Dev) (ag : Agent) (b : Block) (copy a : Nat) : Gate :=
  let o := a - b.base
  match b with
  | .net => if d.portCopyUsed copy then .open_ else .unused
  | .gko =>
    let x := (o - 0x100000) / 0x80
    if 0x100000 ≤ o ∧ x < 276 ∧ !ctxMine ag x then .refused (d.gkRefuse ag x) else .open_
  | .chk =>
    let i := (o - 0x100000) / 64
    if 0x100000 ≤ o ∧ i < 1024 ∧ !d.ctxReach ag i then .refused (d.ctxRefuse ag i) else .open_
  | .eft =>
    let t := (o - 0x100000) / 32
    if 0x100000 ≤ o ∧ t < 65536 ∧ !d.taskReach ag t then .refused (d.refuseSignal ag t) else .open_
  | _ => .open_

/-- The table Tenant I/O reach: may a core running work of an instance reach this address? Instance 0 reaches all of I/O
space (R405). -/
def ioAllowed (d : Dev) (c n a : Nat) (write : Bool) : Bool :=
  match blockOf a with
  | none => false
  | some b =>
    let o := a - b.base
    let q := (o - 0x8100) / 16
    let qReg := (o - 0x8100) % 16
    n == 0 ||
    (match b with
      | .gko => decide (0x100000 + 0x80 * c ≤ o ∧ o < 0x100000 + 0x80 * (c + 1))
      | .chk => decide (0x100000 ≤ o ∧ (o - 0x100000) / 64 < 1024) && d.rd .CHK_CTX_CFG_INSTANCE ((o - 0x100000) / 64) == n
      | .eft => o == 0x10 || o == 0x14 || o == 0x18 ||
          (decide (0x100000 ≤ o ∧ (o - 0x100000) / 32 < 65536) && d.rd .EFT_TASK_CFG_STATE ((o - 0x100000) / 32) != 0 &&
            d.rd .EFT_TASK_INFO_INSTANCE ((o - 0x100000) / 32) == n)
      | .cdc => decide (0x8100 ≤ o ∧ 16 ≤ q ∧ q < 64) && d.rd .CDC_Q_CFG_INSTANCE q == n && (!write || qReg == 4 || qReg == 12)
      | .cap => !write && ((decide (0x100000 ≤ o ∧ (o - 0x100000) / 64 < 4096) && d.rd .CAP_STREAM_CFG_INSTANCE ((o - 0x100000) / 64) == n) ||
          (decide (0x200000 ≤ o ∧ (o - 0x200000) / 64 < 4096) && d.rd .CAP_STREAM_CFG_INSTANCE ((o - 0x200000) / 64) == n))
      | .ins => !write && o / 0x1000 == n && decide (o % 0x1000 < 0x80)
      | .sys => !write && d.rd .INS_IOPERM n == 1
      | .avl => !write && d.rd .INS_IOPERM n == 1
      | _ => false)

/-! ## Reading -/

/-- The register index an agent sees: EFT_RESULT has one copy per agent. -/
def agentIdx (ag : Agent) (r : RegDef) (i : Nat) : Nat := if r.flds.contains .EFT_RESULT_VALID then agNum ag else i

/-- Read a register that answers; a pair's low word latches the high word for the agent, and the high word releases it
(R10). -/
def Dev.readReg (d : Dev) (ag : Agent) (i : Nat) (r : RegDef) : Nat × Dev :=
  match r.flds with
  | [f] =>
    match pairHi f, pairLo f with
    | some h, _ =>
      (d.word i [f], { d with sys.pairs := dropPair d.sys.pairs ag f i ++ [(⟨agNum ag, f, i, d.word i [h]⟩ : PairWord)] })
    | none, some lo =>
      match pairWord d.sys.pairs ag lo i with
      | some w => (w, { d with sys.pairs := dropPair d.sys.pairs ag lo i })
      | none => (d.word i [f], d)
    | none, none => (d.word i r.flds, d)
  | fs => (d.word i fs, d)

/-- A read of an I/O address by an agent; `core` selects the copy of the core-local window. -/
def ioRead (d : Dev) (ag : Agent) (core a : Nat) : Nat × Dev :=
  match Sys2Proof.Machine.resolve core a with
  | .nothing => (0, d)
  | .hole b copy => match d.gate ag b copy a with
    | .refused e => (0, e)
    | _ => (0, d)
  | .reg b copy r i => match d.gate ag b copy a with
    | .open_ => d.readReg ag (agentIdx ag r i) r
    | .unused => (0, d)
    | .refused e => (0, e)

/-! ## Writing -/

/-- The value a write presents to a field. -/
def fv (f : Fld) (w : Nat) : Nat := bitsOf f.info.hi f.info.lo w

/-- An access that starts an action: with a reserved value none starts (R13). -/
def Dev.act (d : Dev) (b : Block) (copy a : Nat) (r : RegDef) (w : Nat) (bad : Bool) (f : Dev → Dev) : Dev :=
  let d := d.noteWrite b copy a (reservedBits r.flds w) ⟨false, bad⟩
  if bad then d else f d

/-- A write of a pair's word by an agent (R10): _LO is held, _HI writes both halves. VAL of a check context is the operand of
SET, not the running value, and stays as it is while the context is BUSY (R380, R381). -/
def Dev.writePair (d : Dev) (ag : Agent) (b : Block) (copy a : Nat) (r : RegDef) (i w : Nat) (f : Fld) : Dev :=
  let d := d.noteWrite b copy a (reservedBits r.flds w) ⟨false, false⟩
  let v := fv f w
  match pairHi f, pairLo f with
  | some _, _ => { d with sys.held := dropPair d.sys.held ag f i ++ [(⟨agNum ag, f, i, v⟩ : PairWord)] }
  | none, some lo =>
    let low := pairWord d.sys.held ag lo i
    let d := { d with sys.held := dropPair d.sys.held ag lo i }
    if f = .CHK_CTX_VAL_HI then
      if d.rd .CHK_CTX_CFG_STATE i = 1 then d
      else { d with chk.operand := amMod 0 i (fun x => low.getD (x % 2 ^ 32) + 2 ^ 32 * v) d.chk.operand }
    else (match low with | some l => d.wr lo l i | none => d).wr f v i
  | none, none => d

/-- A signal written to EFT_SIGNAL (table of OP). -/
def Dev.signalOp (d : Dev) (ag : Agent) (op flag t : Nat) : Dev :=
  d.signal ag t (fun d => match op with
    | 0 => d.setFlag t flag
    | 1 => d.clearFlag t flag
    | 2 => d.cancelTask t
    | 3 => if d.taskAccepts t then d.startDelay t else d
    | 4 => d.stopDelay t
    | 5 => d.setEnabled t 2
    | _ => d.setEnabled t 1)

/-- A write of a task's PRIORITY (R317). -/
def Dev.priorityOk (d : Dev) (t v : Nat) : Bool :=
  let n := d.rd .EFT_TASK_INFO_INSTANCE t
  n == 0 || decide (d.rd .EFT_INS_CFG_MAX_PRIO n ≤ v)

/-- A write of EFT_TASK_CFG: a priority above the ceiling keeps its value, with 0x0022 and 0x9031. -/
def Dev.writeTaskCfg (d : Dev) (a t w : Nat) : Dev :=
  let v := fv .EFT_TASK_CFG_PRIORITY w
  if d.priorityOk t v then (d.plainWrite 0 a w).refreshTask t
  else
    let n := d.rd .EFT_TASK_INFO_INSTANCE t
    let keep := w - v * 2 ^ Fld.EFT_TASK_CFG_PRIORITY.info.lo + d.rd .EFT_TASK_CFG_PRIORITY t * 2 ^ Fld.EFT_TASK_CFG_PRIORITY.info.lo
    (((d.raise 0x0022 [(4, a)]).plainWrite 0 a keep).raiseI n 0x9031 [(1, n), (2, t)]).refreshTask t

/-- GPIO outputs that a write of SYS_GPIO changes are driven. -/
def Dev.driveGpio (old : Dev) (d : Dev) : Dev :=
  let on := fun (x : Dev) k => bitOf k (x.rd .SYS_GPIO_DIR) && bitOf k (x.rd .SYS_GPIO_OUT)
  ((List.range 16).filter (fun k => on old k != on d k)).foldl (fun (d : Dev) k => d.send (.pin 2 k (on d k))) d

/-- Commands of FLS_CARRIER_CTRL. -/
def Dev.carrierCmd (d : Dev) (k cmd : Nat) : Dev :=
  (match cmd with
    | 1 => d.prepareRemoval k false
    | 2 => d.cancelRemoval k
    | 3 => d.formatHeld k []
    | 4 => d.powerOnCarrier k
    | _ => d.prepareRemoval k true).settle

/-- Lanes that are not adapted are tried again, each with an outcome the spec does not fix (R37). -/
def Dev.retrainPort (d : Dev) (p : Nat) : Dev :=
  let (m, d) := d.draw 8
  d.tryLanes p (fun j => bitOf j m)

/-- A write to a register that answers, with what it starts. -/
def Dev.writeReg (d : Dev) (ag : Agent) (core a w : Nat) (b : Block) (copy : Nat) (r : RegDef) (i : Nat) : Dev :=
  let plain := d.plainWrite core a w
  let act := d.act b copy a r w
  match r.flds with
  | [] => plain
  | f :: rest =>
    match f with
    | .NET_PORT_CTRL_RETRAIN =>
      let e := if fv .NET_PORT_CTRL_RETRAIN w = 1 then plain.retrainPort copy else plain
      if fv .NET_PORT_CTRL_WIDEN w = 1 then e.portWiden copy else e
    | .CAP_SW_TRIG_GO => act false (fun d => if fv .CAP_SW_TRIG_GO w = 1 then d.swTrig (fv .CAP_SW_TRIG_GROUP w) else d)
    | .CDC_ENG_CTRL => act false (fun d => if fv .CDC_ENG_CTRL w = 1 then d.engReset i else d)
    | .CDC_CTX_FREE_GO => act false (fun d => if fv .CDC_CTX_FREE_GO w = 1 then d.ctxFree (fv .CDC_CTX_FREE_SLOT w) else d)
    | .CDC_Q_CFG_ENABLE =>
      if i < 16 ∧ ag ≠ .steward then
        d.plainWrite core a (w - fv f w * 2 ^ f.info.lo + d.rd f i * 2 ^ f.info.lo)
      else plain
    | .CDC_Q_SQ_TAIL => act false (fun d => d.tailWrite i (fv .CDC_Q_SQ_TAIL w))
    | .CDC_Q_CQ_CQ_TAIL => act false (fun d => d.cqHeadWrite i (fv .CDC_Q_CQ_CQ_HEAD w))
    | .FLS_CH_CTRL_RETRAIN => act false (fun d =>
        let d := if fv .FLS_CH_CTRL_RETRAIN w = 1 then d.requestTraining i false else d
        if fv .FLS_CH_CTRL_ENG_RESET w = 1 then d.channelReset i else d)
    | .FLS_CARRIER_CTRL_CMD =>
      let c := fv .FLS_CARRIER_CTRL_CMD w
      act (decide (c = 0 ∨ 5 < c)) (fun d => d.carrierCmd (fv .FLS_CARRIER_CTRL_CARRIER w) c)
    | .SRCH_CMD_GO =>
      let op := fv .SRCH_CMD_OP w
      act (op == 3) (fun d =>
        if fv .SRCH_CMD_GO w = 0 then d
        else match op with
          | 0 => d.search ag i (fv .SRCH_CMD_PARTITION w) .none
          | 1 => d.searchNext ag i
          | _ => d.searchEnd ag i)
    | .UPD_CMD_GO =>
      let op := fv .UPD_CMD_OP w
      act (decide (5 < op)) (fun d =>
        if fv .UPD_CMD_GO w = 0 then d else d.update ag i op (fv .UPD_CMD_PARTITION w) (fv .UPD_CMD_POSITION w))
    | .CORE_EV_SET => act false (fun d =>
        d.setCore core { d.core core with ev := (d.core core).ev ||| BitVec.ofNat 32 (fv .CORE_EV_SET w * 2 ^ Fld.CORE_EV_SET.info.lo) })
    | .EFT_SIGNAL_OP =>
      let op := fv .EFT_SIGNAL_OP w
      act (op == 7) (fun d => d.signalOp ag op (fv .EFT_SIGNAL_FLAG w) (fv .EFT_SIGNAL_TASK w))
    | .EFT_POST => act false (fun d => d.post ag w)
    | .EFT_TASK_CFG_STATE => d.writeTaskCfg a i w
    | .EFT_TASK_MASK => plain.refreshTask i
    | .CHK_CTX_CFG_INSTANCE =>
      match ag with
      | .core _ => d.plainWrite core a (w - fv f w * 2 ^ f.info.lo + d.rd f i * 2 ^ f.info.lo)
      | _ => plain
    | .CHK_CTX_CMD_GO =>
      let op := fv .CHK_CTX_CMD_OP w
      let note := fv .CHK_CTX_CMD_NOTIFY w == 1
      let fl := fv .CHK_CTX_CMD_FLAG w
      let t := fv .CHK_CTX_CMD_TASK w
      act (decide (2 < op)) (fun d =>
        if fv .CHK_CTX_CMD_GO w = 0 then d
        else d.ctxGo ag i (fun d => match op with
          | 0 => d.ctxInit i note fl t
          | 1 => d.ctxFeed i note fl t
          | _ => d.ctxSet i note fl t))
    | .INS_CTRL => act false (fun d => if fv .INS_CTRL w = 1 then d.instanceReset i else d)
    | .INS_SHARE_CODEC_PM | .INS_CORES_CORES_NOW | .INS_SLUICE | .INS_CAPACITY | .INS_QUOTA_GECKO | .INS_QUOTA_TASKS
    | .INS_QUOTA_CONN | .INS_QUOTA_STREAMS => d.shareWrite copy (a - Block.ins.base - copy * 0x1000) w
    | .INS_MBX_CTRL_POP =>
      let len := fv .INS_MBX_CTRL_LEN w
      act (decide (1008 < len)) (fun d =>
        let d := if fv .INS_MBX_CTRL_POP w = 1 then d.mbxPop i else d
        if fv .INS_MBX_CTRL_PUSH w = 1 then d.mbxPush i len (fv .INS_MBX_CTRL_TYPE w) else d)
    | .GKO_THROTTLE => plain.thermalApply
    | .THM_CTRL_CAP_W => plain.thermalApply
    | .SYS_GPIO_DIR => d.driveGpio plain
    | _ =>
      if rest.isEmpty && f.info.acc == .rw && ((pairHi f).isSome || (pairLo f).isSome) then d.writePair ag b copy a r i w f
      else plain

/-- A write to an I/O address by an agent. -/
def ioWrite (d : Dev) (ag : Agent) (core a w : Nat) : Dev :=
  match Sys2Proof.Machine.resolve core a with
  | .nothing => d
  | .hole b copy => match d.gate ag b copy a with
    | .open_ => d.noteWrite b copy a (w != 0) ⟨false, false⟩
    | .unused => d
    | .refused e => e
  | .reg b copy r i => match d.gate ag b copy a with
    | .open_ => d.writeReg ag core a w b copy r i
    | .unused => d
    | .refused e => e

end Sys2Proof.Machine
end

