-- ==== Sys2Proof/Machine/Mgmt.lean ====
section
/-! DEFINITION. The management protocol, register messages, events and logs, modes, namespaces, programs and the lock
(spec/14_management.md, R406–R420; spec/15_availability.md, R434–R444). -/
namespace Sys2Proof.Machine

/-! ## Messages (R406–R411) -/

/-- The version that defines a TYPE (table Management versions). -/
def mgtSince (type : Nat) : Option Nat :=
  if type ∈ [0x01, 0x02, 0x10, 0x11, 0x20, 0x22, 0x30, 0x40, 0x41, 0x50, 0x51, 0x52] then some 0x100
  else if type ∈ [0x60, 0x61, 0x62, 0x63, 0x70, 0x71] then some 0x101
  else if type ∈ [0x80, 0x81, 0x90, 0x91, 0x92, 0x93, 0x95, 0xA0] then some 0x200
  else if type = 0x21 then some 0x201
  else none

/-- Is a TYPE defined in a version? -/
def mgtDefines (version type : Nat) : Bool := match mgtSince type with | some v => decide (v ≤ version) | none => false

/-- Do lanes 0–15 form a PCIe endpoint: by the active image, or by the recorded KIND where no image is active (R39)? -/
def Dev.pf0Present (d : Dev) : Bool :=
  match d.img.active with
  | some _ => (d.secRecs 1).any (fun r => leAt 2 1 r == 1 || leAt 2 1 r == 2)
  | none => d.mgt.boot.kind == some 1 || d.mgt.boot.kind == some 2

/-- Does the device listen on the way a message came (R406)? -/
def Dev.listens (d : Dev) (via : Via) : Bool :=
  d.mgt.up && (match via with
    | .udp _ port => d.rd .MGT_CFG_UDP_EN == 1 && d.rd .MGT_CFG_UDP_PORT == port
    | .pf0 => d.rd .MGT_CFG_PF0_EN == 1 && d.pf0Present)

/-- CRC of a message: its field is taken as 0 (R407). -/
def msgCrc (msg : List Byte) : Nat := crc32c (putAt 0x1C (zeros 4) msg)

/-- MAGIC and CRC hold (R408). -/
def msgGood (msg : List Byte) : Bool :=
  decide (32 ≤ msg.length) && leAt 0 4 msg == 0x504D574C && leAt 0x1C 4 msg == msgCrc msg

/-- TYPE of a message. -/
def msgType (msg : List Byte) : Nat := leAt 6 2 msg
/-- SEQ of a message. -/
def msgSeq (msg : List Byte) : Nat := leAt 8 4 msg
/-- Version of a message, major in [15:8]. -/
def msgVersion (msg : List Byte) : Nat := leAt 4 1 msg * 256 + leAt 5 1 msg
/-- Body of a message. -/
def msgBody (msg : List Byte) : List Byte := msg.drop 32

/-- The fields of a request's header hold what a request holds, and LEN is the body's length (R407, R408). -/
def headerOk (msg : List Byte) : Bool :=
  leAt 0x0E 1 msg == 0 && leAt 0x0F 1 msg == 0 && leAt 0x10 8 msg == 0 && leAt 0x18 4 msg == 0 &&
    leAt 0x0C 2 msg == (msgBody msg).length && decide ((msgBody msg).length ≤ 1368)

/-- A message as bytes: version, TYPE, SEQ, STATUS, FLAGS, OP_ID, body. -/
def encodeMsg (version type seq status flags op : Nat) (body : List Byte) : List Byte :=
  let m := leBytes 4 0x504D574C ++ leBytes 1 (version / 256) ++ leBytes 1 version ++ leBytes 2 type ++ leBytes 4 seq ++
    leBytes 2 body.length ++ leBytes 1 status ++ leBytes 1 flags ++ leBytes 8 op ++ zeros 8 ++ body
  putAt 0x1C (leBytes 4 (crc32c m)) m

/-- A request as bytes, for a version. -/
def encodeRequest (version type seq : Nat) (body : List Byte) : List Byte := encodeMsg version type seq 0 0 0 body

/-- The answer to a request: status, data and OP_ID. -/
structure Reply where
  status : Nat
  data : List Byte
  op : Nat
deriving DecidableEq, Repr

/-- A status alone. -/
def Reply.of (status : Nat) : Reply := ⟨status, [], 0⟩

/-- Send an answer on the way its request came; the mailbox shows it ready (R406). -/
def Dev.sendAnswer (d : Dev) (via : Via) (m : List Byte) : Dev :=
  let d := d.send (.mgmt via m)
  match via with
  | .udp _ _ => d
  | .pf0 => { d with mgt.mbxResp := m, mgt.mbxReady := true }

/-- Answer a request and keep the answer (R411). Before a session it carries the requester's version (DESIGN CHOICE,
notes/assumptions/207). -/
def Dev.answerReq (d : Dev) (via : Via) (msg : List Byte) (r : Reply) : Dev :=
  let v := d.rd .MGT_STATUS_VERSION
  let m := encodeMsg (if v = 0 then msgVersion msg else v) (msgType msg) (msgSeq msg) r.status 1 r.op r.data
  { d with mgt.replay := keepLast 16 (d.mgt.replay ++ [(msgSeq msg, m)]) }.sendAnswer via m

/-- A request before its meaning: a mailbox submission clears its ready flag. -/
def Dev.submit (d : Dev) (via : Via) : Dev :=
  match via with
  | .udp _ _ => d
  | .pf0 => { d with mgt.mbxReady := false }

/-- The status that stops a request before it is executed: no session, a TYPE or version that is not the session's, a bad
field (R408, R409). -/
def Dev.refusal (d : Dev) (msg : List Byte) : Option Nat :=
  let v := d.rd .MGT_STATUS_VERSION
  let hello := msgType msg == 1
  if v = 0 ∧ !hello then some 2
  else if !hello ∧ (msgVersion msg ≠ v ∨ !mgtDefines v (msgType msg)) then some 3
  else if !headerOk msg then some 4
  else none

/-- A management request (R406–R411). `mine` says which messages are this command's; `run` executes one on its body and
answers; `after` is what follows the answer, given the answer's OP_ID. -/
def Dev.request (d : Dev) (via : Via) (msg : List Byte) (mine : Nat → List Byte → Bool) (run : Dev → List Byte → Dev × Reply)
    (after : Dev → Nat → List Byte → Dev) : Dev :=
  if !d.listens via then d
  else if !msgGood msg then (d.submit via).cnt .MGT_CNT_BAD_MSG
  else if !mine (msgType msg) (msgBody msg) then d
  else
    let d := d.submit via
    match d.mgt.replay.find? (fun p => p.1 == msgSeq msg) with
    | some p => (d.cnt .MGT_CNT_REPLAYED).sendAnswer via p.2
    | none => match d.refusal msg with
      | some st => d.answerReq via msg (Reply.of st)
      | none =>
        let (d, r) := run d (msgBody msg)
        let d := d.answerReq via msg r
        if r.status ≤ 1 then after d r.op (msgBody msg) else d

/-- A request that is done when it is answered. -/
def Dev.short (d : Dev) (via : Via) (msg : List Byte) (type : Nat) (run : Dev → List Byte → Dev × Reply) : Dev :=
  d.request via msg (fun t _ => t == type) run (fun d _ _ => d)

/-- A request of a long type: `check` gives the status that refuses it, `go` runs its operation (R410). -/
def Dev.long (d : Dev) (via : Via) (msg : List Byte) (type : Nat) (mine : List Byte → Bool) (check : Dev → List Byte → Nat)
    (go : Dev → Nat → List Byte → Dev) : Dev :=
  d.request via msg (fun t b => t == type && mine b)
    (fun d b =>
      let st := check d b
      if st = 4 then (d, .of 4)
      else if d.opRuns type then (d, .of 5)
      else if st ≠ 0 then (d, .of st)
      else
        let (op, d) := d.newOp type
        (d, ⟨1, [], op⟩))
    go

/-- UNSUPPORTED_MGMT_TYPE: a TYPE that the negotiated version does not define (R409). -/
def Dev.unsupportedType (d : Dev) (via : Via) (msg : List Byte) : Dev :=
  d.request via msg (fun t _ => t != 1 && !mgtDefines (d.rd .MGT_STATUS_VERSION) t) (fun d _ => (d, .of 3)) (fun d _ _ => d)

/-- MGT_HELLO (R409): the highest version in both ranges. -/
def Dev.mgtHello (d : Dev) (via : Via) (msg : List Byte) : Dev :=
  d.short via msg 1 (fun d b =>
    if b.length ≠ 4 then (d, .of 4)
    else
      match [0x201, 0x200, 0x101, 0x100].find? (fun v => decide (leAt 0 2 b ≤ v ∧ v ≤ leAt 2 2 b)) with
      | none => (d, .of 3)
      | some v => (d.wr .MGT_STATUS_VERSION v,
          ⟨0, leBytes 2 v ++ leBytes 4 (d.rd .SYS_DEV_ID) ++ leBytes 4 (d.rd .MGT_FW_VERSION), 0⟩))

/-- OP_STATUS (R410): the response data of the operation follow its fields. -/
def Dev.opStatus (d : Dev) (via : Via) (msg : List Byte) : Dev :=
  d.short via msg 2 (fun d b =>
    if b.length ≠ 8 then (d, .of 4)
    else match d.mgt.ops.find? (fun o => o.id == leAt 0 8 b) with
      | none => (d, ⟨0, leBytes 1 2 ++ zeros 7, 0⟩)
      | some o => (d, ⟨0, leBytes 1 o.state ++ leBytes 1 o.status ++ leBytes 2 o.step ++ leBytes 4 o.cause ++ o.data, 0⟩))

/-! ## Register messages (R412, R413) -/

/-- Addresses of consecutive registers. -/
def regAddrs (a n : Nat) : List Nat := (List.range n).map (fun k => a + 4 * k)

/-- Every address of a register message lies in a block and is one of a register word. -/
def regReach (a n : Nat) : Bool := decide (1 ≤ n ∧ n ≤ 256 ∧ a % 4 = 0) && (regAddrs a n).all (fun x => (blockOf x).isSome)

/-- Read registers in ascending order. -/
def readRegs (d : Dev) : List Nat → Dev × List Byte
  | [] => (d, [])
  | a :: as =>
    let (w, d) := ioRead d .manager 0 a
    let (d, bs) := readRegs d as
    (d, leBytes 4 w ++ bs)

/-- Write registers in ascending order. -/
def writeRegs (d : Dev) (bs : List Byte) : List Nat → Dev
  | [] => d
  | a :: as => writeRegs (ioWrite d .manager 0 a (leAt 0 4 bs)) (bs.drop 4) as

/-- REG_READ. -/
def Dev.regRead (d : Dev) (via : Via) (msg : List Byte) : Dev :=
  d.short via msg 0x10 (fun d b =>
    if b.length ≠ 6 ∨ !regReach (leAt 0 4 b) (leAt 4 2 b) then (d, .of 4)
    else
      let (d, bs) := readRegs d (regAddrs (leAt 0 4 b) (leAt 4 2 b))
      (d, ⟨0, bs, 0⟩))

/-- REG_WRITE. -/
def Dev.regWrite (d : Dev) (via : Via) (msg : List Byte) : Dev :=
  d.short via msg 0x11 (fun d b =>
    if b.length ≠ 6 + 4 * leAt 4 2 b ∨ !regReach (leAt 0 4 b) (leAt 4 2 b) then (d, .of 4)
    else (writeRegs d (b.drop 6) (regAddrs (leAt 0 4 b) (leAt 4 2 b)), .of 0))

/-! ## Events, logs and telemetry (R416–R418) -/

/-- An event record as bytes. -/
def EvRec.bytes (r : EvRec) : List Byte :=
  leBytes 8 r.time ++ leBytes 4 r.eseq ++ leBytes 2 r.code ++ leBytes 1 r.sev ++ leBytes 1 r.inst ++ sliceB 0 16 r.data

/-- The cursor rule of R416: `recs` end just before position `next`. None where CURSOR lies ahead. -/
def cursorRead (recs : List EvRec) (next cursor max : Nat) : Option (List Byte) :=
  let want := (next + 2 ^ 32 - cursor) % 2 ^ 32
  if 2 ^ 31 < want then none
  else
    let lost := want - recs.length
    let left := recs.drop (recs.length - want)
    let got := left.take max
    let after := (next + 2 ^ 32 - (left.length - got.length)) % 2 ^ 32
    some (leBytes 2 (b2n (lost != 0)) ++ leBytes 4 lost ++ leBytes 4 after ++ got.flatMap EvRec.bytes)

/-- A read of records by a cursor. -/
def Dev.readRecords (d : Dev) (b : List Byte) (recs : List EvRec) (next : Nat) : Dev × Reply :=
  let n := leAt 4 2 b
  if b.length ≠ 6 ∨ n = 0 ∨ 40 < n then (d, .of 4)
  else match cursorRead recs next (leAt 0 4 b) n with
    | some bs => (d, ⟨0, bs, 0⟩)
    | none => (d, .of 4)

/-- EVENT_READ. -/
def Dev.eventRead (d : Dev) (via : Via) (msg : List Byte) : Dev :=
  d.short via msg 0x20 (fun d b => d.readRecords b d.ev.queue d.ev.next)

/-- LOG_READ. -/
def Dev.logRead (d : Dev) (via : Via) (msg : List Byte) : Dev :=
  d.short via msg 0x22 (fun d b => d.readRecords b d.ev.plog d.ev.plogPos)

/-- EVENT_SUBSCRIBE. -/
def Dev.eventSubscribe (d : Dev) (via : Via) (msg : List Byte) : Dev :=
  d.short via msg 0x21 (fun d b =>
    if b.length ≠ 20 ∨ 4 < leAt 0 1 b ∨ leAt 1 1 b ≠ 0 then (d, .of 4)
    else
      let ip := beAt 4 16 b
      ({ d with ev.sub := if ip = 0 then none else some ⟨ip, leAt 2 2 b, leAt 0 1 b⟩ }, .of 0))

/-- TELEMETRY: the layout of page 0 is free. -/
def Dev.telemetry (d : Dev) (via : Via) (msg : List Byte) : Dev :=
  d.short via msg 0x30 (fun d b =>
    let page := leAt 0 2 b
    let off := leAt 2 2 b
    if b.length ≠ 4 ∨ 256 < page ∨ off % 1024 ≠ 0 ∨ 4096 ≤ off then (d, .of 4)
    else if page = 0 then
      let (bs, d) := d.drawBytes 1024
      (d, ⟨0, bs, 0⟩)
    else if !d.insOn (page - 1) then (d, .of 7)
    else (d, ⟨0, sliceB off 1024 (d.telemetryPage (page - 1)), 0⟩))

/-! ## Modes and resets (R434, R436, R437, R438, R440, R443, R444) -/

/-- Is a MODE request allowed (table MODE requests)? -/
def Dev.modeAllowed (d : Dev) (target : Nat) : Bool :=
  let m := d.rd .AVL_STATUS_MODE
  let p := d.rd .AVL_STATUS_POWER_STATE
  match target with
  | 0 => m == 1 && d.rd .STI_STATUS_STATE == 3
  | 1 => decide (m ∈ [1, 2, 3]) && p == 0
  | 2 => m == 7
  | 3 => decide (m ∈ [2, 3]) && p == 0
  | _ => p == 1

/-- The status that refuses a MODE request; TARGET 3 during an activation is busy. -/
def Dev.modeCheck (d : Dev) (b : List Byte) : Nat :=
  let t := leAt 0 1 b
  if b.length ≠ 1 ∨ 4 < t then 4
  else if t = 3 ∧ d.rd .AVL_STATUS_MODE = 4 then 5
  else if d.modeAllowed t then 0
  else 6

/-- MODE with a TARGET; MODE_SERVICE takes the TARGETs that no other command has. -/
def Dev.modeRequest (d : Dev) (via : Via) (msg : List Byte) (target : Nat) (go : Dev → Nat → Dev) : Dev :=
  d.long via msg 0x40 (fun b => leAt 0 1 b == target || (target == 0 && decide (4 < leAt 0 1 b))) Dev.modeCheck
    (fun d op _ => go d op)

/-- MODE_SERVICE: Recovery runs and then ends the operation. -/
def Dev.modeService (d : Dev) (via : Via) (msg : List Byte) : Dev := d.modeRequest via msg 0 (fun d _ => d.setMode 5)
/-- MODE_ENTER_MAINTENANCE. -/
def Dev.modeEnterMaintenance (d : Dev) (via : Via) (msg : List Byte) : Dev := d.modeRequest via msg 1 Dev.enterMaintenance
/-- MODE_LEAVE_MAINTENANCE. -/
def Dev.modeLeaveMaintenance (d : Dev) (via : Via) (msg : List Byte) : Dev := d.modeRequest via msg 2 Dev.leaveMaintenance
/-- MODE_ENTER_STANDBY. -/
def Dev.modeEnterStandby (d : Dev) (via : Via) (msg : List Byte) : Dev := d.modeRequest via msg 3 Dev.enterStandby
/-- MODE_LEAVE_STANDBY: `f` is what the build finds. -/
def Dev.modeLeaveStandby (d : Dev) (via : Via) (msg : List Byte) (f : Found) : Dev :=
  d.modeRequest via msg 4 (fun d op => d.leaveStandby op f)

/-- RESET with a KIND; RESET_COLD takes the values that neither has. The answer goes out before the reset. No warm reset
leads out of Bring-up or Hold-up (table Mode transitions). -/
def Dev.resetRequest (d : Dev) (via : Via) (msg : List Byte) (cold : Bool) (go : Dev → Dev) : Dev :=
  d.request via msg (fun t b => t == 0x41 && (leAt 0 1 b == 0) != cold)
    (fun d b =>
      if b.length ≠ 1 ∨ 1 < leAt 0 1 b then (d, .of 4)
      else if !cold ∧ (d.rd .AVL_STATUS_MODE = 0 ∨ d.rd .AVL_STATUS_MODE = 6) then (d, .of 6)
      else (d, .of 0))
    (fun d _ _ => go d)

/-- RESET_WARM. -/
def Dev.resetWarm (d : Dev) (via : Via) (msg : List Byte) (f : Found) : Dev :=
  d.resetRequest via msg false (fun d => d.warmReset 1 f)
/-- RESET_COLD. -/
def Dev.resetCold (d : Dev) (via : Via) (msg : List Byte) (f : Found) (fl : Flush) : Dev :=
  d.resetRequest via msg true (fun d => d.coldRequest 1 f fl)

/-! ## Namespaces and subsystems (R419, R232) -/

/-- Does a sanitize of an instance run (R432)? -/
def Dev.sanitizing (d : Dev) (n : Nat) : Bool := d.mgt.sanitize.any (fun s => s.device || s.inst == n)

/-- Namespaces that count against the limits of R232. -/
def Dev.nsCount (d : Dev) : Nat := (d.hq.ns.filter (fun p => decide (p.2.kind ≤ 2))).length

/-- NSIDs of an instance in use. -/
def Dev.nsidsUsed (d : Dev) (n : Nat) : List Nat :=
  (d.hq.ns.filter (fun p => p.1 / 65536 == n && decide (p.2.kind ≤ 2))).map (fun p => p.1 % 65536)

/-- The lowest free NSID of an instance. -/
def Dev.freeNsid (d : Dev) (n : Nat) : Nat :=
  let used := d.nsidsUsed n
  ((List.range (used.length + 1)).map (· + 1)).find? (fun k => !used.contains k) |>.getD 1

/-- The status that refuses NS_CREATE. -/
def Dev.nsCreateCheck (d : Dev) (b : List Byte) : Nat :=
  let n := leAt 0 1 b
  let kind := leAt 1 1 b
  let lbaf := leAt 2 1 b
  let view := leAt 16 4 b
  let viewOk : Bool := match d.nspace (nsKey n view) with | some x => view != 0 && decide (view < 32768) && x.kind == 1 | none => false
  if b.length ≠ 20 ∨ 2 < kind ∨ 1 < leAt 3 1 b ∨ 1 < leAt 4 1 b ∨ !allZero (sliceB 5 3 b) ∨ 4 < lbaf then 4
  else if kind = 1 ∧ lbaf ≠ 0 then 4
  else if kind ≠ 2 ∧ lbaf ≤ 1 ∧ leAt 4 1 b = 1 then 4
  else if !d.insOn n then 7
  else if kind = 2 ∧ !viewOk then 4
  else if d.sanitizing n then 5
  else if 4096 ≤ d.nsCount ∨ 256 ≤ (d.nsidsUsed n).length then 8
  else 0

/-- Enter a namespace, with its hidden companion where its LBAs carry metadata (R233). -/
def Dev.putNs (d : Dev) (key : Nat) (x : Namespace) : Dev :=
  let ns := amPut key x d.hq.ns
  { d with hq.ns := if x.kind = 0 ∧ 2 ≤ x.lbaf then amPut (companion key) ⟨x.inst, 3, 0, 0, false, 0, 0, 0, 0⟩ ns else ns }

/-- Every granule of a namespace and of its companion is deallocated, and both disappear. -/
def Dev.dropNs (d : Dev) (key : Nat) : Dev := (((d.forgetStored key).forgetStored (companion key)).showStored (key / 65536)).settle

/-- NS_CREATE. -/
def Dev.nsCreate (d : Dev) (via : Via) (msg : List Byte) : Dev :=
  d.long via msg 0x60 (fun _ => true) Dev.nsCreateCheck (fun d op b =>
    let n := leAt 0 1 b
    let kind := leAt 1 1 b
    let lbaf := if kind = 2 then 0 else leAt 2 1 b
    let src := if kind = 2 then 0 else leAt 4 1 b
    let id := d.freeNsid n
    let d := d.putNs (nsKey n id) ⟨n, kind, lbaf, leAt 8 8 b, leAt 3 1 b == 1, src, 1, leAt 16 4 b, 0⟩
    (((d.namespaceChanged n id).opData op (leBytes 4 id)).endOp op 0 0 0))

/-- The status that refuses a change of a namespace: not there, or named by an armed stream or a frame view. -/
def Dev.nsBusy (d : Dev) (n id : Nat) : Nat :=
  let key := nsKey n id
  match d.nspace key with
  | none => 7
  | some x =>
    if id = 0 ∨ 32768 ≤ id ∨ 2 < x.kind then 7
    else if d.cap.streams.any (fun p => decide (2 ≤ d.streamState p.1) && p.2.nsid == key) then 9
    else if d.hq.ns.any (fun p => p.1 / 65536 == n && p.2.kind == 2 && p.2.view == id) then 9
    else 0

/-- NS_DELETE. -/
def Dev.nsDelete (d : Dev) (via : Via) (msg : List Byte) : Dev :=
  d.long via msg 0x61 (fun _ => true)
    (fun d b => if b.length ≠ 5 then 4 else d.nsBusy (leAt 0 1 b) (leAt 1 4 b))
    (fun d op b =>
      ((d.dropNs (nsKey (leAt 0 1 b) (leAt 1 4 b))).namespaceChanged (leAt 0 1 b) (leAt 1 4 b)).endOp op 0 0 0)

/-- NS_FORMAT: the same SIZE in LBAs of the new format. -/
def Dev.nsFormat (d : Dev) (via : Via) (msg : List Byte) : Dev :=
  d.long via msg 0x62 (fun _ => true)
    (fun d b =>
      let st := d.nsBusy (leAt 0 1 b) (leAt 1 4 b)
      let lbaf := leAt 5 1 b
      let kind : Nat := ((d.nspace (nsKey (leAt 0 1 b) (leAt 1 4 b))).map (fun x => x.kind)).getD 0
      if b.length ≠ 7 ∨ 4 < lbaf ∨ 1 < leAt 6 1 b ∨ (lbaf ≤ 1 ∧ leAt 6 1 b = 1) then 4
      else if st = 7 then 7
      else if kind ≠ 0 then 4
      else st)
    (fun d op b =>
      let key := nsKey (leAt 0 1 b) (leAt 1 4 b)
      let d := match d.nspace key with
        | some x => (d.dropNs key).putNs key { x with lbaf := leAt 5 1 b, guardSrc := leAt 6 1 b, append := 0 }
        | none => d
      (d.namespaceChanged (leAt 0 1 b) (leAt 1 4 b)).endOp op 0 0 0)

/-- NQN_SET. -/
def Dev.nqnSet (d : Dev) (via : Via) (msg : List Byte) : Dev :=
  d.short via msg 0x63 (fun d b =>
    let n := leAt 0 1 b
    let nqn := b.drop 2
    if b.length < 2 ∨ leAt 1 1 b ≠ nqn.length ∨ 223 < nqn.length then (d, .of 4)
    else if !d.insOn n then (d, .of 7)
    else if d.hq.nqns.any (fun p => p.1 != n && p.2 == nqn) then (d, .of 9)
    else ({ d with hq.nqns := amPut n nqn d.hq.nqns }, .of 0))

/-! ## Staging and programs (R66, R420, R336, R337) -/

/-- Bytes staged from the start of a buffer. -/
def staged (m : AMap Byte) (len : Nat) : List Byte := (List.range len).map (fun k => amGet 0 k m)

/-- Size of a staging buffer: firmware, structure, programs. -/
def stageSize (kind : Nat) : Nat := if kind = 0 then 32 * 2 ^ 20 else if kind = 1 then 16 * 2 ^ 20 else 64 * 2 ^ 20

/-- Put data at an offset of a staging buffer. -/
def stageInto (m : AMap Byte) (off : Nat) (bs : List Byte) : AMap Byte :=
  bs.zipIdx.foldl (fun m p => amSet 0 (off + p.2) p.1 m) m

/-- IMAGE_STAGE. While an activation of the same KIND runs it is busy (R424), with 0x1009 during a live replacement. -/
def Dev.imageStage (d : Dev) (via : Via) (msg : List Byte) : Dev :=
  d.short via msg 0x50 (fun d b =>
    let kind := leAt 0 1 b
    let off := leAt 4 4 b
    let data := b.drop 8
    let into := fun m : AMap Byte => stageInto (if leAt 1 1 b = 1 then [] else m) off data
    if b.length < 8 ∨ 1024 < data.length ∨ 2 < kind ∨ 1 < leAt 1 1 b ∨ leAt 2 2 b ≠ 0 ∨ stageSize kind < off + data.length then
      (d, .of 4)
    else match kind with
      | 0 => if d.mgt.hold.isSome then (d, .of 5) else ({ d with mgt.stageFw := into d.mgt.stageFw }, .of 0)
      | 1 =>
        if d.rd .STI_STATUS_STATE = 4 then (d.raise 0x1009 [], .of 5)
        else if (d.mgt.hold.bind (·.also)).isSome then (d, .of 5)
        else ({ d with mgt.stageStruct := into d.mgt.stageStruct }, .of 0)
      | _ => ({ d with mgt.stageProg := into d.mgt.stageProg }, .of 0))

/-- CRC of a loader image (table Loader header). -/
def loaderCrc (img : List Byte) : Bool := leAt 0x3C 4 img == crc32c (putAt 0x3C (zeros 4) img)

/-- PROGRAM_LOAD. -/
def Dev.programLoad (d : Dev) (via : Via) (msg : List Byte) : Dev :=
  d.long via msg 0x70 (fun _ => true)
    (fun d b => if b.length ≠ 5 ∨ stageSize 2 < leAt 1 4 b then 4 else if !d.insOn (leAt 0 1 b) then 7 else 0)
    (fun d op b =>
      let n := leAt 0 1 b
      let img := staged d.mgt.stageProg (leAt 1 4 b)
      let cause := Config.loadCause ((d.checkLoader n img (loaderCrc img)).getD 8)
      let (d, ok) := d.loadProgram n img (loaderCrc img)
      if ok then
        let ts := ((d.eft.programs.getLast?).map (·.tasks)).getD []
        (d.opData op (leBytes 8 (leAt 16 8 img) ++ leBytes 2 (ts.headD 0) ++ leBytes 2 (ts.getLastD 0))).endOp op 0 0 0
      else d.endOp op 0x0C 0 cause)

/-- PROGRAM_UNLOAD: PROGRAM_UNLOAD_DONE ends the operation. -/
def Dev.programUnload (d : Dev) (via : Via) (msg : List Byte) : Dev :=
  d.long via msg 0x71 (fun _ => true)
    (fun d b =>
      if b.length ≠ 9 then 4
      else if d.eft.programs.any (fun p => p.inst == leAt 0 1 b && p.id == leAt 1 8 b && !p.unloading) then 0
      else 7)
    (fun d _ b => d.unloadProgram (leAt 0 1 b) (leAt 1 8 b))

/-- PROGRAM_UNLOAD_DONE (R337). -/
def Dev.programUnloaded (d : Dev) (n id : Nat) : Dev :=
  let before := d.eft.programs.length
  let d := d.unloadDone n id
  if d.eft.programs.length < before then d.endOpOf 0x71 0 else d

/-! ## The lock (R415) -/

/-- The lock is released. -/
def Dev.lockFree (d : Dev) : Dev := { d with mgt.lock := none }.wr .MGT_STATUS_LOCK_HELD 0

/-- LOCK. -/
def Dev.lock (d : Dev) (via : Via) (msg : List Byte) : Dev :=
  d.short via msg 0x80 (fun d b =>
    let s := leAt 4 2 b
    if b.length ≠ 6 ∨ s = 0 ∨ 3600 < s then (d, .of 4)
    else if d.mgt.lock.isSome then (d, .of 0x0A)
    else ({ d with mgt.lock := some (leAt 0 4 b, d.now + s * 1000000000) }.wr .MGT_STATUS_LOCK_HELD 1, .of 0))

/-- UNLOCK: by any other TAG it is ignored. -/
def Dev.unlock (d : Dev) (via : Via) (msg : List Byte) : Dev :=
  d.short via msg 0x81 (fun d b =>
    if b.length ≠ 4 then (d, .of 4)
    else if (d.mgt.lock.map (·.1)) = some (leAt 0 4 b) then (d.lockFree, .of 0)
    else (d, .of 0))

/-- LOCK_EXPIRY: at the end of its time. -/
def Dev.lockExpiry (d : Dev) : Dev :=
  match d.mgt.lock with
  | some (_, t) => if t ≤ d.now then d.lockFree else d
  | none => d

end Sys2Proof.Machine
end

