-- ==== Sys2Proof/Machine/Security.lean ====
section
/-! DEFINITION. Activation of firmware and structure images, boot selection, keys, sanitize and the security version
(spec/14_management.md, R421–R432; spec/07_host.md, R256; spec/02_structure_image.md, R62–R66). -/
namespace Sys2Proof.Machine

/-! ## Activation (R256, R422–R424) -/

/-- The status that refuses ACTIVATE: KIND, then a length for each kind, in 9 bytes. -/
def Dev.activateCheck (d : Dev) (b : List Byte) : Nat :=
  let kind := leAt 0 1 b
  if b.length ≠ 9 ∨ 2 < kind ∨ (kind ≠ 1 ∧ stageSize 0 < leAt 1 4 b) ∨ (kind ≠ 0 ∧ stageSize 1 < leAt 5 4 b) then 4
  else if !decide (d.rd .AVL_STATUS_MODE ∈ [2, 3]) ∨ d.rd .AVL_STATUS_POWER_STATE ≠ 0 then 6
  else if kind ≠ 1 ∧ d.rd .AVL_STEWARD_STANDBY_OK = 0 then 6
  else 0

/-- MGT_ACT between activations. -/
def Dev.actIdle (d : Dev) : Dev := (d.wr .MGT_ACT_STATE 0).wr .MGT_ACT_STEP 0

/-- An activation ends: Service or Degraded Service, and its status. -/
def Dev.actEnd (d : Dev) (op status step cause : Nat) : Dev :=
  let d := if d.rd .AVL_STATUS_MODE = 4 then d.setMode d.serviceMode else d
  d.actIdle.endOp op status step cause

/-- A structure image of an activation: completed, rejected, or reversed (R62–R64). -/
def Dev.actStructure (d : Dev) (op len : Nat) (bad : List Nat) (mid : Option (Nat × Resource)) : Dev :=
  match d.replaceImage (staged d.mgt.stageStruct len) bad mid with
  | (d, .done) => d.actEnd op 0 0 0
  | (d, .rejected stage cause) => d.actEnd op 0x0C stage cause
  | (d, .reversed) => (d.cnt .MGT_ACT_ABANDONED).actEnd op 0x98 0 0

/-- Write a firmware image to a slot. -/
def Dev.writeFw (d : Dev) (slot : Nat) (bs : List Byte) : Dev :=
  if slot = 0 then { d with mgt.boot.fwA := bs } else { d with mgt.boot.fwB := bs }

/-- Firmware activation abandoned before step 5 (R256, R423, R424): 0xD013 and status 0x98. -/
def Dev.fwAbandon (d : Dev) (op step us : Nat) : Dev :=
  ((d.raise 0xD013 [(1, step), (4, us)]).cnt .MGT_ACT_ABANDONED).actEnd op 0x98 step 0

/-- Admission reopens after a hold. -/
def Dev.reopen (d : Dev) (us : Nat) : Dev :=
  { ((d.wr .HQ_STATUS_ADMIT_HELD 0).wr .HQ_ACT_LAST_HOLD_US (min 65535 us)) with hq.heldAt := none, mgt.hold := none }

/-- Steps 5 to 7 once the standby pair is active, then the structure image of KIND 2 under the new firmware. -/
def Dev.fwComplete (d : Dev) (h : FwHold) (us : Nat) (bad : List Nat) (mid : Option (Nat × Resource)) : Dev :=
  let d := d.reopen us
  let ver := fwVersion h.image
  let d := { d with mgt.boot.ptrFw := h.slot }
  let d := ((d.wr .MGT_FW_VERSION ver).wr .MGT_ACT_FW_SLOT h.slot).wr .SEC_STATUS_KEYSET ((d.fwKeySet h.image).getD 0)
  let d := (d.wr .MGT_ACT_STEP 7).raise 0xD012 [(4, ver), (4, us)]
  match h.also with
  | none => d.actEnd h.op 0 7 0
  | some len => d.actStructure h.op len bad mid

/-- Step 4: admission closes, with 0x6030. -/
def Dev.fwClose (d : Dev) (h : FwHold) : Dev :=
  let d := ({ d with hq.heldAt := some d.now, mgt.hold := some h }.wr .HQ_STATUS_ADMIT_HELD 1).wr .MGT_ACT_STEP 4
  d.raise 0x6030 [(8, d.now)]

/-- Steps 1 to 4 of the table Firmware activation and what follows the switch. -/
def Dev.fwActivate (d : Dev) (op len : Nat) (also : Option Nat) (sw : Switch) (bad : List Nat) (mid : Option (Nat × Resource)) : Dev :=
  let bs := staged d.mgt.stageFw len
  let d := (d.wr .MGT_ACT_STATE (if also.isSome then 3 else 1)).wr .MGT_ACT_STEP 1
  match d.fwFault bs with
  | some (c, o) => (d.raise 0xD010 [(1, c), (4, o)]).actEnd op 0x0C 1 c
  | none =>
    let slot := 1 - d.mgt.boot.ptrFw
    let d := ((d.writeFw slot bs).wr .MGT_ACT_STEP 3).setMode 4
    match sw with
    | .standbyFailed passes => (d.pairStop (1 - d.rd .AVL_STEWARD_ACTIVE) passes).fwAbandon op 3 0
    | .held => (d.raise 0xD011 [(4, fwVersion bs)]).fwClose ⟨op, slot, bs, also⟩
    | .done us =>
      let h : FwHold := ⟨op, slot, bs, also⟩
      let d := (d.raise 0xD011 [(4, fwVersion bs)]).fwClose h
      (d.wr .AVL_STEWARD_ACTIVE (1 - d.rd .AVL_STEWARD_ACTIVE)).fwComplete h us.val bad mid

/-- ADMISSION_HOLD_TIMEOUT (R256, R423): after 50 ms of closed admission. -/
def Dev.holdTimeout (d : Dev) : Dev :=
  match d.mgt.hold, d.hq.heldAt with
  | some h, some t =>
    if d.now < t + 50000000 then d
    else
      let d := (d.reopen 50000).cnt .HQ_ACT_LAST_ABANDONED
      (d.raise 0x6031 [(4, (d.hq.cmds.filter (fun c => c.stage == 0)).length)]).fwAbandon h.op 4 50000
  | _, _ => d

/-- STEWARD_MISMATCH: the pair that takes over during step 4 completes the switch from the journal (R424). -/
def Dev.stewardStops (d : Dev) (p : Nat) (passes : Bool) (f : Found) : Dev :=
  let active := d.rd .AVL_STEWARD_ACTIVE
  let d := d.stewardMismatch p passes f
  match d.mgt.hold, d.hq.heldAt with
  | some h, some t =>
    if active = p ∧ d.now < t + 50000000 then d.fwComplete h ((d.now - t) / 1000) [] none else d
  | _, _ => d

/-- ACTIVATE_FIRMWARE, which takes the KINDs that no other command has. -/
def Dev.activateFirmware (d : Dev) (via : Via) (msg : List Byte) (sw : Switch) : Dev :=
  d.long via msg 0x51 (fun b => leAt 0 1 b == 0 || decide (2 < leAt 0 1 b)) Dev.activateCheck
    (fun d op b => d.fwActivate op (leAt 1 4 b) none sw [] none)

/-- ACTIVATE_STRUCTURE: lanes that do not come up, and a resource retired after a number of steps. -/
def Dev.activateStructure (d : Dev) (via : Via) (msg : List Byte) (bad : List Nat) (mid : Option (Nat × Resource)) : Dev :=
  d.long via msg 0x51 (fun b => leAt 0 1 b == 1) Dev.activateCheck
    (fun d op b => (d.wr .MGT_ACT_STATE 2).actStructure op (leAt 5 4 b) bad mid)

/-- ACTIVATE_BOTH (R424): firmware first. -/
def Dev.activateBoth (d : Dev) (via : Via) (msg : List Byte) (sw : Switch) (bad : List Nat) (mid : Option (Nat × Resource)) : Dev :=
  d.long via msg 0x51 (fun b => leAt 0 1 b == 2) Dev.activateCheck
    (fun d op b => d.fwActivate op (leAt 1 4 b) (some (leAt 5 4 b)) sw bad mid)

/-- BOOT_SELECT (R425): the staged image becomes the boot image without being activated. -/
def Dev.bootSelect (d : Dev) (via : Via) (msg : List Byte) : Dev :=
  d.long via msg 0x52 (fun _ => true)
    (fun d b =>
      if b.length ≠ 5 ∨ 1 < leAt 0 1 b ∨ stageSize (leAt 0 1 b) < leAt 1 4 b then 4
      else if d.mgt.hold.isSome then 5
      else 0)
    (fun d op b =>
      if leAt 0 1 b = 0 then
        let bs := staged d.mgt.stageFw (leAt 1 4 b)
        match d.fwFault bs with
        | some (c, o) => (d.raise 0xD010 [(1, c), (4, o)]).endOp op 0x0C 1 c
        | none =>
          let slot := 1 - d.mgt.boot.ptrFw
          ({ d.writeFw slot bs with mgt.boot.ptrFw := slot }.wr .MGT_ACT_FW_PENDING 1).endOp op 0 0 0
      else match d.selectStruct (staged d.mgt.stageStruct (leAt 1 4 b)) with
        | (d, .rejected stage cause) => d.endOp op 0x0C stage cause
        | (d, _) => d.endOp op 0 0 0)

/-! ## Keys (R429, R430) -/

/-- KCV of a key: AES-256 of 16 zero bytes under its first half. -/
def kcv (key : List Byte) : List Byte := sliceB 0 4 (Config.aes (key.take 32) (zeros 16))

/-- A new MK takes effect: the key area is rewrapped, MK is stored wrapped in MODE 0. -/
def Dev.setMk (d : Dev) (mode : Nat) (m : List Byte) : Dev :=
  let rewrap := fun w : List Byte => match d.mgt.mgrKey.bind (fun old => Config.kwOpen old w) with
    | some key => Config.kw m key
    | none => w
  let d := { d with
    mgt.mgrKey := some m, mgt.boot.mkMode := mode
    mgt.boot.mkWrapped := if mode = 0 then some (Config.kw (Config.hkdf d.mgt.fuses.duk) m) else none
    mgt.boot.keys := d.mgt.boot.keys.map (fun p : Nat × List Byte => (p.1, rewrap p.2)) }
  (d.wr .SEC_STATUS_MK_STATE 1).raise 0xD031 [(1, mode)]

/-- KEY_MGR_SET: MK in clear where none is set, else wrapped under the old one. -/
def Dev.keyMgrSet (d : Dev) (via : Via) (msg : List Byte) : Dev :=
  d.short via msg 0x90 (fun d b =>
    let first := d.rd .SEC_STATUS_MK_STATE = 0
    if b.length ≠ (if first then 36 else 44) ∨ 1 < leAt 0 1 b ∨ !allZero (sliceB 1 3 b) then (d, .of 4)
    else if first then (d.setMk (leAt 0 1 b) (b.drop 4), .of 0)
    else match d.mgt.mgrKey.bind (fun old => Config.kwOpen old (b.drop 4)) with
      | some m => (d.setMk (leAt 0 1 b) m, .of 0)
      | none => (d, .of 0x0B))

/-- KEY_UNLOCK: MK after a reset in MODE 1. -/
def Dev.keyUnlock (d : Dev) (via : Via) (msg : List Byte) : Dev :=
  d.short via msg 0x91 (fun d b =>
    if b.length ≠ 32 then (d, .of 4)
    else if d.rd .SEC_STATUS_MK_STATE ≠ 2 then (d, .of 6)
    else if d.mgt.boot.keys.any (fun p => (Config.kwOpen b p.2).isNone) then (d, .of 0x0B)
    else (({ d with mgt.mgrKey := some b }.wr .SEC_STATUS_MK_STATE 1).loadKeys, .of 0))

/-- A key enters slot `n` and, wrapped, the key area; the status that refuses it, or 0. -/
def Dev.storeKey (d : Dev) (n : Nat) (key wrapped : List Byte) (generated : Bool) : Dev × Nat :=
  if key.take 32 = key.drop 32 then (d, 4)
  else if (amFind n d.mgt.slots).isSome ∨ (amFind n d.mgt.boot.keys).isSome then (d, 9)
  else
    let d := { d with
      mgt.boot.keys := amPut n wrapped d.mgt.boot.keys
      mgt.boot.generated := if generated then n :: d.mgt.boot.generated else d.mgt.boot.generated }
    let d := ((d.setKey n key).wr .SEC_KEY_STATE_STORED 1 n).wr .SEC_KEY_STATE_GENERATED (b2n generated) n
    (d.raiseI n 0xD030 [(1, n), (4, leAt 0 4 (kcv key))], 0)

/-- KEY_LOAD. -/
def Dev.keyLoad (d : Dev) (via : Via) (msg : List Byte) : Dev :=
  d.short via msg 0x92 (fun d b =>
    let n := leAt 0 1 b
    if b.length ≠ 74 ∨ leAt 1 1 b ≠ 0 then (d, .of 4)
    else if !d.insOn n then (d, .of 7)
    else if d.sanitizing n then (d, .of 5)
    else match d.mgt.mgrKey.bind (fun m => Config.kwOpen m (b.drop 2)) with
      | none => (d, .of 0x0B)
      | some key =>
        let (d, st) := d.storeKey n key (b.drop 2) false
        (d, if st = 0 then ⟨0, kcv key, 0⟩ else .of st))

/-- KEY_GENERATE: 64 bytes of the random bit generator. -/
def Dev.keyGenerate (d : Dev) (via : Via) (msg : List Byte) : Dev :=
  d.short via msg 0x93 (fun d b =>
    let n := leAt 0 1 b
    if b.length ≠ 1 then (d, .of 4)
    else if !d.insOn n then (d, .of 7)
    else if d.sanitizing n then (d, .of 5)
    else match d.mgt.mgrKey with
      | none => (d, .of 0x0B)
      | some m =>
        let (key, d) := d.drawBytes 64
        let wrapped := Config.kw m key
        let (d, st) := d.storeKey n key wrapped true
        (d, if st = 0 then ⟨0, wrapped ++ kcv key, 0⟩ else .of st))

/-! ## Sanitize and the security version (R427, R432) -/

/-- SANITIZE of a SCOPE, with the steps that are done at once; the rest goes on while the device idles. SANITIZE_INSTANCE
takes the SCOPEs that the other has not. -/
def Dev.sanitizeRequest (d : Dev) (via : Via) (msg : List Byte) (device : Bool) (k : Nat) : Dev :=
  d.long via msg 0x95 (fun b => (leAt 0 1 b == 1) == device)
    (fun d b =>
      if b.length ≠ 2 ∨ 1 < leAt 0 1 b then 4
      else if device ∧ d.rd .AVL_STATUS_MODE ≠ 7 then 6
      else if !device ∧ !d.insOn (leAt 1 1 b) then 7
      else 0)
    (fun d op b =>
      let first := if device then ((List.range 256).find? (fun n => d.insOn n)).getD 0 else leAt 1 1 b
      Dev.runSanitize k ({ d with mgt.sanitize := d.mgt.sanitize ++ [(⟨device, first, op, 1⟩ : Sanitize)] }.showSanitize))

/-- SVN_COMMIT: no higher than the running firmware's SVN, and below neither slot's. -/
def Dev.svnCommit (d : Dev) (via : Via) (msg : List Byte) : Dev :=
  d.short via msg 0xA0 (fun d b =>
    let svn := leAt 0 1 b
    let holds := fun bs : List Byte => (fwEnvelope bs).isNone && decide (svn ≤ fwSvn bs)
    if b.length ≠ 1 ∨ 63 < svn then (d, .of 4)
    else if fwSvn (d.fwSlot (d.rd .MGT_ACT_FW_SLOT)) < svn ∨ !holds d.mgt.boot.fwA ∨ !holds d.mgt.boot.fwB then (d, .of 6)
    else if svn ≤ d.rd .SEC_STATUS_SVN_MIN then (d, .of 0)
    else ((d.wr .SEC_STATUS_SVN_MIN svn).raise 0xD040 [(1, svn)], .of 0))

/-! ## Work in the background -/

/-- Relief that waits for freed memory (R362), and an entry that waits for what its step needs (R436, R443), go on. -/
def Dev.background (d : Dev) : Dev := (if d.rd .MEM_RELIEF_UNRELIEVED = 0 then d else d.relieve).goOnEntry

/-- One control-clock cycle with no command (DESIGN CHOICE, notes/assumptions/3): device time advances (R33), a sanitize does one more step
(R432), and the background work goes on. -/
def Dev.idle (d : Dev) : Dev := (Dev.runSanitize 1 d.tick).background

end Sys2Proof.Machine
end

