-- ==== Sys2Proof/Machine/RowsAvail.lean ====
section
/-! DEFINITION. The meanings of commands: Resets, Recovery and availability. Each is its effect on the device; the queue of waiting commands
is not touched. -/
namespace Sys2Proof.Machine

/-- POWER_ON_RESET (R464). PWR_ON_RST_N is released, or supplies rise, and boot, image validation, data-path build and
Recovery follow. -/
def execPowerOnReset (supplies : Bool) (found : Found) (s : State) : Host.Outcome State Fault Refusal :=
  .next (onDev s (fun d => d.powerOn (if supplies then 4 else 0) found))

/-- COLD_RESET_PIN (R464). COLD_RST_N held low for 1 µs asserts a cold reset, with a hold-up dump first when buffer
slots are dirty. -/
def execColdResetPin (found : Found) (flush : Flush) (s : State) : Host.Outcome State Fault Refusal :=
  .next (onDev s (fun d => d.coldPin found flush))

/-- RECOVERY_RUN (R212). After the build, Recovery replays the journal and restores the buffer, then the device enters
Service or Degraded Service. -/
def execRecoveryRun (bad : Option Nat) (undecoded : List Nat) (s : State) : Host.Outcome State Fault Refusal :=
  .next (onDev s (fun d => d.recoveryRun bad undecoded))

/-- STEWARD_MISMATCH (R448). A lockstep mismatch stops a steward pair and the other pair takes over. -/
def execStewardMismatch (pair : Fin 2) (passes : Bool) (found : Found) (s : State) : Host.Outcome State Fault Refusal :=
  .next (onDev s (fun d => d.stewardStops pair.val passes found))

/-- STOP_DETECT (R452). An up port admitting nothing for more than 100 ms records a stop. -/
def execStopDetect (port : Fin 128) (start ms : Nat) (s : State) : Host.Outcome State Fault Refusal :=
  .next (onDev s (fun d => d.stopDetect port.val start ms))

/-- LIFE_TICK (R455). Each second AVL_LIFE gains AF / 3,600 equivalent hours. -/
def execLifeTick (s : State) : Host.Outcome State Fault Refusal :=
  .next (onDev s (fun d => d.lifeTick))

/-- LIFE_SAVE (R455). Every hour AVL_LIFE is saved to the service-life record. -/
def execLifeSave (s : State) : Host.Outcome State Fault Refusal :=
  .next (onDev s (fun d => d.lifeSave))

end Sys2Proof.Machine
end

