-- ==== Sys2Proof/Machine/RowsCapture.lean ====
section
/-! DEFINITION. The meanings of commands: Cameras, frames, triggers and the drain. Each is its effect on the device; the queue of waiting commands
is not touched. -/
namespace Sys2Proof.Machine

/-- HELLO (R74). A camera HELLO opens a session, or replaces an old one, and the device answers HELLO_ACK with the
selected version. -/
def execHello (arrival : Arrival) (src : NetAddr) (bytes : List Byte) (s : State) : Host.Outcome State Fault Refusal :=
  .next (onDev s (fun d => d.control arrival bytes (fun d => d.hello arrival.port src bytes)))

/-- OPEN (R67). An OPEN binds a stream, allocates its ring and installs its flow entry, or is refused, and OPEN_ACK
answers it. -/
def execOpenStream (arrival : Arrival) (src : NetAddr) (bytes : List Byte) (s : State) : Host.Outcome State Fault Refusal :=
  .next (onDev s (fun d => d.control arrival bytes (fun d => d.openCmd arrival.port src bytes)))

/-- CLOSE (R86). A camera CLOSE unbinds its stream, and the device answers CLOSE_ACK. -/
def execClose (arrival : Arrival) (src : NetAddr) (bytes : List Byte) (s : State) : Host.Outcome State Fault Refusal :=
  .next (onDev s (fun d => d.control arrival bytes (fun d => d.closeCmd arrival.port src bytes)))

/-- CLOSE_ACK (R75). A camera's CLOSE_ACK answers a CLOSE the device sent. -/
def execCloseAck (arrival : Arrival) (src : NetAddr) (bytes : List Byte) (s : State) : Host.Outcome State Fault Refusal :=
  .next (onDev s (fun d => d.control arrival bytes (fun d => d.closeAck arrival.port src bytes)))

/-- HEARTBEAT (R77). A HEARTBEAT refreshes the stream's idle time and is not answered. -/
def execHeartbeat (arrival : Arrival) (src : NetAddr) (bytes : List Byte) (s : State) : Host.Outcome State Fault Refusal :=
  .next (onDev s (fun d => d.control arrival bytes (fun d => d.heartbeat arrival.port src bytes)))

/-- KFSP_DATA_PACKET (R80). A KFSP data packet is checked, classified, alive-tested, admitted by the sluices and
placed, dropped or used to start a frame. -/
def execKfspDataPacket (arrival : Arrival) (src : NetAddr) (raw : Bool) (bytes : List Byte) (s : State) : Host.Outcome State Fault Refusal :=
  .next (onDev s (fun d => d.dataPacket arrival src raw bytes))

/-- ETHERNET_FRAME (R263). A received non-KFSP frame is classified or forwarded by its Gecko partitions, or delivered,
dropped or mirrored. -/
def execEthernetFrame (arrival : Arrival) (toPort : Bool) (dmac : BitVec 48) (vlan : BitVec 12) (tagged : Bool) (l3
    : BitVec 2) (proto : BitVec 8) (dport sport : BitVec 16) (src : NetAddr) (bytes : List Byte) (s : State) : Host.Outcome State Fault Refusal :=
  .next (onDev s (fun d => d.ethernetFrame arrival toPort dmac.toNat vlan.toNat tagged l3.toNat proto.toNat dport.toNat sport.toNat src bytes))

/-- TOKEN_REFILL (R490). Every 100 ns each sluice bucket gains rate × 100 ns of tokens, up to its burst. -/
def execTokenRefill (s : State) : Host.Outcome State Fault Refusal :=
  .next (onDev s (fun d => d.tokenRefill))

/-- NAK_TIMEOUT (R81). NAK_TIMEOUT_US after the first NAK, one further NAK is sent for the ranges still missing. -/
def execNakTimeout (stream : Fin 4096) (frame : BitVec 32) (s : State) : Host.Outcome State Fault Refusal :=
  .next (onDev s (fun d => d.nakTimeout stream.val frame.toNat))

/-- REPAIR_DEADLINE (R81). At the repair deadline, a frame still lacking packets is committed incomplete with reason
1. -/
def execRepairDeadline (stream : Fin 4096) (frame : BitVec 32) (s : State) : Host.Outcome State Fault Refusal :=
  .next (onDev s (fun d => d.repairDeadline stream.val frame.toNat))

/-- STREAM_IDLE (R77). After IDLE_MS without traffic, the frames in progress are committed incomplete and event 0x2170
is raised. -/
def execStreamIdle (stream : Fin 4096) (s : State) : Host.Outcome State Fault Refusal :=
  .next (onDev s (fun d => d.streamIdle stream.val))

/-- STREAM_IDLE_CLOSE (R77). After a further IDLE_MS × 10 without traffic, the device sends CLOSE reason 1 and frees
the stream. -/
def execStreamIdleClose (stream : Fin 4096) (s : State) : Host.Outcome State Fault Refusal :=
  .next (onDev s (fun d => d.streamIdleClose stream.val))

/-- VERDICT_BUDGET_EXPIRY (R94). At the budget instant without a verdict, the default verdict applies and VERDICT_LATE
is set. -/
def execVerdictBudgetExpiry (stream : Fin 4096) (frame : BitVec 32) (s : State) : Host.Outcome State Fault Refusal :=
  .next (onDev s (fun d => d.verdictExpiry stream.val frame.toNat))

/-- TRIGGER_INPUT_EDGE (R472). An edge on a trigger input is stamped with device time, and debounce begins. -/
def execTriggerInputEdge (pin : Nat) (rising : Bool) (s : State) : Host.Outcome State Fault Refusal :=
  .next (onDev s (fun d => d.inputEdge pin rising))

/-- TRIGGER_DEBOUNCE_EXPIRY (R96). When the debounce time of a stamped edge has passed, the trigger is submitted to
the groups of its GROUP_MASK. -/
def execTriggerDebounceExpiry (pin : Nat) (s : State) : Host.Outcome State Fault Refusal :=
  .next (onDev s (fun d => d.debounceExpiry pin))

/-- SW_TRIG (R95). A write of CAP_SW_TRIG.GO submits a trigger to GROUP at CAP_SW_TRIG_TIME. -/
def execSwTrig (group : Fin 64) (s : State) : Host.Outcome State Fault Refusal :=
  .next (onDev s (fun d => d.swTrig group.val))

/-- TRIG_OUT_SECOND_PULSE (R472). A trigger output in MODE 2 starts a pulse at each second of device time. -/
def execTrigOutSecondPulse (s : State) : Host.Outcome State Fault Refusal :=
  .next (onDev s (fun d => d.secondPulse))

/-- TRIG_OUT_PULSE_END (R472). A trigger output pulse ends when its pulse width has passed. -/
def execTrigOutPulseEnd (output : Nat) (s : State) : Host.Outcome State Fault Refusal :=
  .next (onDev s (fun d => d.pulseEnd output))

/-- WINDOW_CLOSE_GUARD (R98). When device time passes t + POST_US + CLOSE_GUARD_MS, a member's part of the window
ends. -/
def execWindowCloseGuard (window : Nat) (s : State) : Host.Outcome State Fault Refusal :=
  .next (onDev s (fun d => d.closeGuard window))

/-- DRAIN_DISPATCH (R102). The drain queue serves its next frozen frame by shares and order, and posts the compress
job. -/
def execDrainDispatch (s : State) : Host.Outcome State Fault Refusal :=
  .next (onDev s (fun d => d.drainDispatch))

/-- DRAIN_RESUME (R104). When the cause of a pause clears, the stream's drain resumes. -/
def execDrainResume (stream : Fin 4096) (s : State) : Host.Outcome State Fault Refusal :=
  .next (onDev s (fun d => d.drainResume stream.val))

/-- CAPTURE_ARM (R106). Capture Arm arms a stream, triggered or continuous, with its filter settings and trigger
group. -/
def execCaptureArm (cmd : Nat) (s : State) : Host.Outcome State Fault Refusal :=
  .next (onDev s (fun d => d.captureArm cmd))

/-- CAPTURE_DISARM (R96). Capture Disarm returns a stream to BOUND. -/
def execCaptureDisarm (cmd : Nat) (s : State) : Host.Outcome State Fault Refusal :=
  .next (onDev s (fun d => d.captureDisarm cmd))

/-- FREEZE_WINDOW (R107). Freeze Window submits a trigger at time t and completes on acceptance, or on drain with
WAIT_DURABLE. -/
def execFreezeWindow (cmd : Nat) (s : State) : Host.Outcome State Fault Refusal :=
  .next (onDev s (fun d => d.freezeWindow cmd))

/-- FRAME_QUERY (R108). Frame Query searches the frame index and catalog log and opens a query handle. -/
def execFrameQuery (cmd : Nat) (s : State) : Host.Outcome State Fault Refusal :=
  .next (onDev s (fun d => d.frameQuery cmd))

/-- QUERY_NEXT_MATCH (R108). Query Next Match returns up to MAX further catalog records of a handle. -/
def execQueryNextMatch (cmd : Nat) (s : State) : Host.Outcome State Fault Refusal :=
  .next (onDev s (fun d => d.queryNext cmd))

/-- FRAME_READ (R109). Frame Read returns a frame's descriptor and bytes from its ring or from its stored blocks. -/
def execFrameRead (cmd : Nat) (s : State) : Host.Outcome State Fault Refusal :=
  .next (onDev s (fun d => d.frameRead cmd))

/-- QUERY_HANDLE_EXPIRY (R108). A query handle ends after 10 s without a Query Next Match. -/
def execQueryHandleExpiry (handle : Nat) (s : State) : Host.Outcome State Fault Refusal :=
  .next (onDev s (fun d => d.queryExpiry handle))

end Sys2Proof.Machine
end

