-- ==== Sys2Proof/Machine/RowsCodec.lean ====
section
/-! DEFINITION. The meanings of commands: The codec pool. Each is its effect on the device; the queue of waiting commands
is not touched. -/
namespace Sys2Proof.Machine

/-- CDC_Q_SQ_TAIL_WRITE (R131). A tail write submits descriptors to a codec queue, or is refused when the ring would
overfill. -/
def execCdcQSqTailWrite (queue : Fin 64) (tail : BitVec 32) (s : State) : Host.Outcome State Fault Refusal :=
  .next (onDev s (fun d => d.tailWrite queue.val (fv .CDC_Q_SQ_TAIL tail.toNat)))

/-- CQ_HEAD_WRITE (R133). A consumer writes CQ_HEAD and so frees completion records for its queue. -/
def execCqHeadWrite (queue : Fin 64) (head : BitVec 32) (s : State) : Host.Outcome State Fault Refusal :=
  .next (onDev s (fun d => d.cqHeadWrite queue.val (fv .CDC_Q_CQ_CQ_HEAD head.toNat)))

/-- JOB_DISPATCH (R110). The pool gives an eligible job to the lowest-numbered idle in-service engine once its
completion record is reserved. -/
def execJobDispatch (s : State) : Host.Outcome State Fault Refusal :=
  .next (onDev s (fun d => d.jobDispatch))

/-- JOB_COMPLETE (R134). An engine ends a job and writes its completion record, notifying Eft when NOTIFY is set. -/
def execJobComplete (engine : Fin 32) (first second : Option JobFault) (checks : List SelfCheck) (s : State) : Host.Outcome State Fault Refusal :=
  .next (onDev s (fun d => d.jobComplete engine.val first second checks))

/-- ENG_RESET (R145). A write of CDC_ENG_CTRL.ENG_RESET ends the engine's job and reruns it on another engine. -/
def execEngReset (engine : Fin 32) (s : State) : Host.Outcome State Fault Refusal :=
  .next (onDev s (fun d => d.engReset engine.val))

/-- CTX_FREE (R143). A write of CDC_CTX_FREE.GO frees a codec context slot. -/
def execCtxFree (slot : Fin 256) (s : State) : Host.Outcome State Fault Refusal :=
  .next (onDev s (fun d => d.ctxFree slot.val))

/-- SUSPECT_CLEAR (R222). A whole fault window without a lasting fault clears a resource's suspect status. -/
def execSuspectClear (what : Resource) (die : Fin 32) (s : State) : Host.Outcome State Fault Refusal :=
  .next (onDev s (fun d => d.suspectClear what die.val))

end Sys2Proof.Machine
end

