-- ==== Sys2Proof/Machine/Syl.lean ====
section
/-! DEFINITION. Pypoiz syllables: the formats of R281 and the opcode tables of R292, as a decoder and an encoder. A
decoded syllable keeps enumerated fields as they are encoded, since their reserved values are Illegal Instruction
(R283); a reserved field that must be 0 and is not, or an OP the slot does not define, decodes to nothing. -/
namespace Sys2Proof.Machine

/-- Three-register integer operations, OP 0x01 to 0x10. -/
inductive AluOp
  | add | sub | and | or | xor | andn | shl | shr | sar | mul | mulhu | mulhs | min | max | minu | maxu
deriving DecidableEq, Repr

/-- Immediate integer operations, OP 0x20 to 0x23. -/
inductive AluIOp
  | addi | andi | ori | xori
deriving DecidableEq, Repr

/-- Immediate shifts, OP 0x24 to 0x26. -/
inductive ShOp
  | shl | shr | sar
deriving DecidableEq, Repr

/-- Loads, OP 0x01 to 0x07 of slot M. -/
inductive LdOp
  | b | bs | h | hs | w | ws | d
deriving DecidableEq, Repr

/-- Stores, OP 0x08 to 0x0B of slot M. -/
inductive StOp
  | b | h | w | d
deriving DecidableEq, Repr

/-- Element-wise vector operations of two vectors, OP 0x01 to 0x0A and 0x11 to 0x13. -/
inductive VvOp
  | add | sub | addsu | subsu | mul | minu | maxu | min | max | absdu | cmpeq | cmpgtu | cmpgt
deriving DecidableEq, Repr

/-- Bitwise vector operations, OP 0x0B to 0x0D. -/
inductive VlOp
  | and | or | xor
deriving DecidableEq, Repr

/-- One syllable (R281, R292). `b` is true in slot B. -/
inductive Syl
  | alu (b : Bool) (op : AluOp) (rd ra rb : BitVec 6)
  | cmp (b : Bool) (cond pd : BitVec 3) (ra rb : BitVec 6)
  | sel (b : Bool) (rd ra rb : BitVec 6) (p : BitVec 3)
  | unary (b : Bool) (fn : BitVec 5) (rd ra : BitVec 6)
  | plog (b : Bool) (fn : BitVec 5) (pd pa pb : BitVec 3)
  | mfs (b : Bool) (rd sel : BitVec 6)
  | mts (b : Bool) (sel ra : BitVec 6)
  | mfp (b : Bool) (rd : BitVec 6)
  | mtp (b : Bool) (ra : BitVec 6)
  | alui (b : Bool) (op : AluIOp) (rd ra : BitVec 6) (imm : BitVec 11)
  | shi (b : Bool) (op : ShOp) (rd ra : BitVec 6) (sh : BitVec 6)
  | cmpi (b : Bool) (cond pd : BitVec 3) (ra : BitVec 6) (imm : BitVec 11)
  | movi (b : Bool) (rd : BitVec 6) (imm : BitVec 17)
  | movk (b : Bool) (h : BitVec 2) (rd : BitVec 6) (imm : BitVec 16)
  | pcadd (b : Bool) (rd : BitVec 6) (imm : BitVec 17)
  | br (p : BitVec 3) (n : BitVec 1) (off : BitVec 19)
  | call (off : BitVec 19)
  | jr (ra : BitVec 6)
  | jalr (ra : BitVec 6)
  | ret
  | rep (interruptible : Bool) (ra : BitVec 6)
  | repc (interruptible : Bool) (count : BitVec 16)
  | wfe (rd : BitVec 6)
  | waitt (rd ra : BitVec 6)
  | sev (ra : BitVec 6)
  | trap (code : BitVec 8)
  | endw
  | fence (fn : BitVec 5)
  | eret
  | ld (op : LdOp) (rd ra : BitVec 6) (imm : BitVec 11)
  | st (op : StOp) (rs ra : BitVec 6) (imm : BitVec 11)
  | ldv (vd : BitVec 5) (ra : BitVec 6) (imm : BitVec 11)
  | stv (vs : BitVec 5) (ra : BitVec 6) (imm : BitVec 11)
  | lddx (rd ra rb : BitVec 6)
  | amoadd (rd ra rb : BitVec 6)
  | amoswp (rd ra rb : BitVec 6)
  | cas (rd ra rb : BitVec 6)
  | xfer (rl ra rb : BitVec 6) (k : BitVec 3)
  | inp (rd ra : BitVec 6) (imm : BitVec 11)
  | outp (rs ra : BitVec 6) (imm : BitVec 11)
  | ldc (rd ra : BitVec 6) (imm : BitVec 11)
  | stc (rs ra : BitVec 6) (imm : BitVec 11)
  | vv (op : VvOp) (vd va vb : BitVec 5) (ew : BitVec 2)
  | vlog (op : VlOp) (vd va vb : BitVec 5)
  | vsh (op : ShOp) (vd va : BitVec 5) (ew : BitVec 2) (imm : BitVec 6)
  | vsel (vd va vb vm : BitVec 5)
  | vbcst (v : BitVec 5) (g : BitVec 6) (ew : BitVec 2)
  | vget (g : BitVec 6) (v : BitVec 5) (ew : BitVec 2) (idx : BitVec 5)
  | vrsum (g : BitVec 6) (v : BitVec 5) (ew : BitVec 2)
  | vunp (vd va : BitVec 5) (msb : BitVec 1) (depth : BitVec 2)
deriving DecidableEq, Repr

/-! ## Opcodes -/

/-- OP of an integer operation. -/
def AluOp.code : AluOp → Nat
  | .add => 0x01 | .sub => 0x02 | .and => 0x03 | .or => 0x04 | .xor => 0x05 | .andn => 0x06 | .shl => 0x07
  | .shr => 0x08 | .sar => 0x09 | .mul => 0x0A | .mulhu => 0x0B | .mulhs => 0x0C | .min => 0x0D | .max => 0x0E
  | .minu => 0x0F | .maxu => 0x10
/-- OP of an immediate operation. -/
def AluIOp.code : AluIOp → Nat
  | .addi => 0x20 | .andi => 0x21 | .ori => 0x22 | .xori => 0x23
/-- OP of an immediate shift. -/
def ShOp.code : ShOp → Nat
  | .shl => 0x24 | .shr => 0x25 | .sar => 0x26
/-- OP of a vector shift. -/
def ShOp.vcode : ShOp → Nat
  | .shl => 0x0E | .shr => 0x0F | .sar => 0x10
/-- OP of a load. -/
def LdOp.code : LdOp → Nat
  | .b => 0x01 | .bs => 0x02 | .h => 0x03 | .hs => 0x04 | .w => 0x05 | .ws => 0x06 | .d => 0x07
/-- OP of a store. -/
def StOp.code : StOp → Nat
  | .b => 0x08 | .h => 0x09 | .w => 0x0A | .d => 0x0B
/-- OP of an element-wise vector operation. -/
def VvOp.code : VvOp → Nat
  | .add => 0x01 | .sub => 0x02 | .addsu => 0x03 | .subsu => 0x04 | .mul => 0x05 | .minu => 0x06 | .maxu => 0x07
  | .min => 0x08 | .max => 0x09 | .absdu => 0x0A | .cmpeq => 0x11 | .cmpgtu => 0x12 | .cmpgt => 0x13
/-- OP of a bitwise vector operation. -/
def VlOp.code : VlOp → Nat
  | .and => 0x0B | .or => 0x0C | .xor => 0x0D

/-! ## Encoding (R281, R292) -/

/-- Slot bits [30:29]. -/
def Syl.slot : Syl → Nat
  | .alu b .. | .cmp b .. | .sel b .. | .unary b .. | .plog b .. | .mfs b .. | .mts b .. | .mfp b .. | .mtp b ..
  | .alui b .. | .shi b .. | .cmpi b .. | .movi b .. | .movk b .. | .pcadd b .. => if b then 1 else 0
  | .br .. | .call .. | .jr .. | .jalr .. | .ret | .rep .. | .repc .. | .wfe .. | .waitt .. | .sev .. | .trap ..
  | .endw | .fence .. | .eret => 1
  | .ld .. | .st .. | .ldv .. | .stv .. | .lddx .. | .amoadd .. | .amoswp .. | .cas .. | .xfer .. | .inp .. | .outp ..
  | .ldc .. | .stc .. => 2
  | .vv .. | .vlog .. | .vsh .. | .vsel .. | .vbcst .. | .vget .. | .vrsum .. | .vunp .. => 3

/-- Bits [28:0] from OP and format RR. -/
def encRR (op rd ra rb fn : Nat) : Nat := op * 8388608 + rd * 131072 + ra * 2048 + rb * 32 + fn
/-- Format RI. -/
def encRI (op rd ra imm : Nat) : Nat := op * 8388608 + rd * 131072 + ra * 2048 + imm
/-- Format LI. -/
def encLI (op rd imm : Nat) : Nat := op * 8388608 + rd * 131072 + imm
/-- Format CP; `low` is [10:0]. -/
def encCP (op cond pd ra low : Nat) : Nat := op * 8388608 + cond * 1048576 + pd * 131072 + ra * 2048 + low
/-- Format BR. -/
def encBR (op p n off : Nat) : Nat := op * 8388608 + p * 1048576 + n * 524288 + off
/-- Format VR. -/
def encVR (op vd va vb ew imm : Nat) : Nat :=
  op * 8388608 + vd * 262144 + va * 8192 + vb * 256 + ew * 64 + imm
/-- Format VS. -/
def encVS (op vd va vb vm : Nat) : Nat := op * 8388608 + vd * 262144 + va * 8192 + vb * 256 + vm * 8
/-- Format VG. -/
def encVG (op g v ew idx : Nat) : Nat := op * 8388608 + g * 131072 + v * 4096 + ew * 1024 + idx * 32
/-- Format VM. -/
def encVM (op vd ra imm : Nat) : Nat := op * 8388608 + vd * 262144 + ra * 2048 + imm

/-- Bits [28:0] of a syllable. -/
def Syl.body : Syl → Nat
  | .alu _ op rd ra rb => encRR op.code rd.toNat ra.toNat rb.toNat 0
  | .cmp _ cond pd ra rb => encCP 0x11 cond.toNat pd.toNat ra.toNat (rb.toNat * 32)
  | .sel _ rd ra rb p => encRR 0x12 rd.toNat ra.toNat rb.toNat p.toNat
  | .unary _ fn rd ra => encRR 0x13 rd.toNat ra.toNat 0 fn.toNat
  | .plog _ fn pd pa pb => encCP 0x14 0 pd.toNat pa.toNat (pb.toNat * 32 + fn.toNat)
  | .mfs _ rd q => encRR 0x15 rd.toNat q.toNat 0 0
  | .mts _ q ra => encRR 0x16 q.toNat ra.toNat 0 0
  | .mfp _ rd => encRR 0x17 rd.toNat 0 0 0
  | .mtp _ ra => encRR 0x18 0 ra.toNat 0 0
  | .alui _ op rd ra imm => encRI op.code rd.toNat ra.toNat imm.toNat
  | .shi _ op rd ra sh => encRI op.code rd.toNat ra.toNat sh.toNat
  | .cmpi _ cond pd ra imm => encCP 0x27 cond.toNat pd.toNat ra.toNat imm.toNat
  | .movi _ rd imm => encLI 0x28 rd.toNat imm.toNat
  | .movk _ h rd imm => encLI (0x29 + h.toNat) rd.toNat imm.toNat
  | .pcadd _ rd imm => encLI 0x2D rd.toNat imm.toNat
  | .br p n off => encBR 0x30 p.toNat n.toNat off.toNat
  | .call off => encBR 0x31 0 0 off.toNat
  | .jr ra => encRR 0x32 0 ra.toNat 0 0
  | .jalr ra => encRR 0x33 0 ra.toNat 0 0
  | .ret => encRR 0x34 0 0 0 0
  | .rep i ra => encRR (if i then 0x36 else 0x35) 0 ra.toNat 0 0
  | .repc i n => encLI (if i then 0x38 else 0x37) 0 n.toNat
  | .wfe rd => encRR 0x39 rd.toNat 0 0 0
  | .waitt rd ra => encRR 0x3A rd.toNat ra.toNat 0 0
  | .sev ra => encRR 0x3B 0 ra.toNat 0 0
  | .trap code => encLI 0x3C 0 code.toNat
  | .endw => encRR 0x3D 0 0 0 0
  | .fence fn => encRR 0x3E 0 0 0 fn.toNat
  | .eret => encRR 0x3F 0 0 0 0
  | .ld op rd ra imm => encRI op.code rd.toNat ra.toNat imm.toNat
  | .st op rs ra imm => encRI op.code rs.toNat ra.toNat imm.toNat
  | .ldv vd ra imm => encVM 0x0C vd.toNat ra.toNat imm.toNat
  | .stv vs ra imm => encVM 0x0D vs.toNat ra.toNat imm.toNat
  | .lddx rd ra rb => encRR 0x0E rd.toNat ra.toNat rb.toNat 0
  | .amoadd rd ra rb => encRR 0x10 rd.toNat ra.toNat rb.toNat 0
  | .amoswp rd ra rb => encRR 0x11 rd.toNat ra.toNat rb.toNat 0
  | .cas rd ra rb => encRR 0x12 rd.toNat ra.toNat rb.toNat 0
  | .xfer rl ra rb k => encRR 0x14 rl.toNat ra.toNat rb.toNat k.toNat
  | .inp rd ra imm => encRI 0x18 rd.toNat ra.toNat imm.toNat
  | .outp rs ra imm => encRI 0x19 rs.toNat ra.toNat imm.toNat
  | .ldc rd ra imm => encRI 0x1C rd.toNat ra.toNat imm.toNat
  | .stc rs ra imm => encRI 0x1D rs.toNat ra.toNat imm.toNat
  | .vv op vd va vb ew => encVR op.code vd.toNat va.toNat vb.toNat ew.toNat 0
  | .vlog op vd va vb => encVR op.code vd.toNat va.toNat vb.toNat 0 0
  | .vsh op vd va ew imm => encVR op.vcode vd.toNat va.toNat 0 ew.toNat imm.toNat
  | .vsel vd va vb vm => encVS 0x14 vd.toNat va.toNat vb.toNat vm.toNat
  | .vbcst v g ew => encVG 0x15 g.toNat v.toNat ew.toNat 0
  | .vget g v ew idx => encVG 0x16 g.toNat v.toNat ew.toNat idx.toNat
  | .vrsum g v ew => encVG 0x17 g.toNat v.toNat ew.toNat 0
  | .vunp vd va msb depth => encVR 0x18 vd.toNat va.toNat 0 1 (msb.toNat * 4 + depth.toNat)

/-- The word of a syllable, with its stop bit. -/
def Syl.encode (y : Syl) (stop : Bool) : W32 :=
  BitVec.ofNat 32 ((if stop then 2147483648 else 0) + y.slot * 536870912 + y.body)

/-! ## Decoding -/

/-- Bits [lo + n − 1 : lo]; `p` is 2^lo. -/
def fieldN (n p w : Nat) : BitVec n := BitVec.ofNat n (w / p)

/-- Slots A and B, integer operations (OP below 0x30). -/
def decodeInt (b : Bool) (op w : Nat) : Option Syl :=
  let rd := fieldN 6 131072 w
  let ra := fieldN 6 2048 w
  let rb := fieldN 6 32 w
  let fn := fieldN 5 1 w
  let imm11 := fieldN 11 1 w
  let imm17 := fieldN 17 1 w
  let cond := fieldN 3 1048576 w
  let pd := fieldN 3 131072 w
  let alu := fun k => if fn = 0 then some (Syl.alu b k rd ra rb) else none
  let shi := fun k => if fieldN 5 64 w = 0 then some (Syl.shi b k rd ra (fieldN 6 1 w)) else none
  let movk := fun h => if fieldN 1 65536 w = 0 then some (Syl.movk b h rd (fieldN 16 1 w)) else none
  match op with
  | 0x01 => alu .add | 0x02 => alu .sub | 0x03 => alu .and | 0x04 => alu .or | 0x05 => alu .xor | 0x06 => alu .andn
  | 0x07 => alu .shl | 0x08 => alu .shr | 0x09 => alu .sar | 0x0A => alu .mul | 0x0B => alu .mulhu
  | 0x0C => alu .mulhs | 0x0D => alu .min | 0x0E => alu .max | 0x0F => alu .minu | 0x10 => alu .maxu
  | 0x11 => if fn = 0 then some (.cmp b cond pd ra rb) else none
  | 0x12 => if fieldN 2 8 w = 0 then some (.sel b rd ra rb (fieldN 3 1 w)) else none
  | 0x13 => if rb = 0 then some (.unary b fn rd ra) else none
  | 0x14 => if cond = 0 ∧ fieldN 3 16384 w = 0 ∧ fieldN 3 256 w = 0 then
              some (.plog b fn pd (fieldN 3 2048 w) (fieldN 3 32 w)) else none
  | 0x15 => if rb = 0 ∧ fn = 0 then some (.mfs b rd ra) else none
  | 0x16 => if rb = 0 ∧ fn = 0 then some (.mts b rd ra) else none
  | 0x17 => if ra = 0 ∧ rb = 0 ∧ fn = 0 then some (.mfp b rd) else none
  | 0x18 => if rd = 0 ∧ rb = 0 ∧ fn = 0 then some (.mtp b ra) else none
  | 0x20 => some (.alui b .addi rd ra imm11)
  | 0x21 => some (.alui b .andi rd ra imm11)
  | 0x22 => some (.alui b .ori rd ra imm11)
  | 0x23 => some (.alui b .xori rd ra imm11)
  | 0x24 => shi .shl | 0x25 => shi .shr | 0x26 => shi .sar
  | 0x27 => some (.cmpi b cond pd ra imm11)
  | 0x28 => some (.movi b rd imm17)
  | 0x29 => movk 0 | 0x2A => movk 1 | 0x2B => movk 2 | 0x2C => movk 3
  | 0x2D => some (.pcadd b rd imm17)
  | _ => none

/-- Slot B, control operations (OP 0x30 to 0x3F). -/
def decodeCtl (op w : Nat) : Option Syl :=
  let rd := fieldN 6 131072 w
  let ra := fieldN 6 2048 w
  let low := fieldN 11 1 w
  let off := fieldN 19 1 w
  match op with
  | 0x30 => some (.br (fieldN 3 1048576 w) (fieldN 1 524288 w) off)
  | 0x31 => if fieldN 4 524288 w = 0 then some (.call off) else none
  | 0x32 => if rd = 0 ∧ low = 0 then some (.jr ra) else none
  | 0x33 => if rd = 0 ∧ low = 0 then some (.jalr ra) else none
  | 0x34 => if rd = 0 ∧ ra = 0 ∧ low = 0 then some .ret else none
  | 0x35 => if rd = 0 ∧ low = 0 then some (.rep false ra) else none
  | 0x36 => if rd = 0 ∧ low = 0 then some (.rep true ra) else none
  | 0x37 => if fieldN 7 65536 w = 0 then some (.repc false (fieldN 16 1 w)) else none
  | 0x38 => if fieldN 7 65536 w = 0 then some (.repc true (fieldN 16 1 w)) else none
  | 0x39 => if ra = 0 ∧ low = 0 then some (.wfe rd) else none
  | 0x3A => if low = 0 then some (.waitt rd ra) else none
  | 0x3B => if rd = 0 ∧ low = 0 then some (.sev ra) else none
  | 0x3C => if rd = 0 ∧ fieldN 9 256 w = 0 then some (.trap (fieldN 8 1 w)) else none
  | 0x3D => if rd = 0 ∧ ra = 0 ∧ low = 0 then some .endw else none
  | 0x3E => if rd = 0 ∧ ra = 0 ∧ fieldN 6 32 w = 0 then some (.fence (fieldN 5 1 w)) else none
  | 0x3F => if rd = 0 ∧ ra = 0 ∧ low = 0 then some .eret else none
  | _ => none

/-- Slot M. -/
def decodeMem (op w : Nat) : Option Syl :=
  let rd := fieldN 6 131072 w
  let ra := fieldN 6 2048 w
  let rb := fieldN 6 32 w
  let fn := fieldN 5 1 w
  let imm := fieldN 11 1 w
  let vm := fun (f : BitVec 5 → BitVec 6 → BitVec 11 → Syl) =>
    if fieldN 1 131072 w = 0 then some (f (fieldN 5 262144 w) ra imm) else none
  let rr := fun (f : BitVec 6 → BitVec 6 → BitVec 6 → Syl) => if fn = 0 then some (f rd ra rb) else none
  match op with
  | 0x01 => some (.ld .b rd ra imm) | 0x02 => some (.ld .bs rd ra imm) | 0x03 => some (.ld .h rd ra imm)
  | 0x04 => some (.ld .hs rd ra imm) | 0x05 => some (.ld .w rd ra imm) | 0x06 => some (.ld .ws rd ra imm)
  | 0x07 => some (.ld .d rd ra imm) | 0x08 => some (.st .b rd ra imm) | 0x09 => some (.st .h rd ra imm)
  | 0x0A => some (.st .w rd ra imm) | 0x0B => some (.st .d rd ra imm)
  | 0x0C => vm .ldv | 0x0D => vm .stv
  | 0x0E => rr .lddx | 0x10 => rr .amoadd | 0x11 => rr .amoswp | 0x12 => rr .cas
  | 0x14 => if fieldN 2 8 w = 0 then some (.xfer rd ra rb (fieldN 3 1 w)) else none
  | 0x18 => some (.inp rd ra imm) | 0x19 => some (.outp rd ra imm)
  | 0x1C => some (.ldc rd ra imm) | 0x1D => some (.stc rd ra imm)
  | _ => none

/-- Slot V. -/
def decodeVec (op w : Nat) : Option Syl :=
  let vd := fieldN 5 262144 w
  let va := fieldN 5 8192 w
  let vb := fieldN 5 256 w
  let ew := fieldN 2 64 w
  let imm := fieldN 6 1 w
  let vv := fun k => if imm = 0 then some (Syl.vv k vd va vb ew) else none
  let vl := fun k => if imm = 0 ∧ ew = 0 then some (Syl.vlog k vd va vb) else none
  let vs := fun k => if vb = 0 then some (Syl.vsh k vd va ew imm) else none
  let g := fieldN 6 131072 w
  let v := fieldN 5 4096 w
  let gew := fieldN 2 1024 w
  let idx := fieldN 5 32 w
  match op with
  | 0x01 => vv .add | 0x02 => vv .sub | 0x03 => vv .addsu | 0x04 => vv .subsu | 0x05 => vv .mul | 0x06 => vv .minu
  | 0x07 => vv .maxu | 0x08 => vv .min | 0x09 => vv .max | 0x0A => vv .absdu
  | 0x0B => vl .and | 0x0C => vl .or | 0x0D => vl .xor
  | 0x0E => vs .shl | 0x0F => vs .shr | 0x10 => vs .sar
  | 0x11 => vv .cmpeq | 0x12 => vv .cmpgtu | 0x13 => vv .cmpgt
  | 0x14 => if fieldN 3 1 w = 0 then some (.vsel vd va vb (fieldN 5 8 w)) else none
  | 0x15 => if idx = 0 ∧ fieldN 5 1 w = 0 then some (.vbcst v g gew) else none
  | 0x16 => if fieldN 5 1 w = 0 then some (.vget g v gew idx) else none
  | 0x17 => if idx = 0 ∧ fieldN 5 1 w = 0 then some (.vrsum g v gew) else none
  | 0x18 => if vb = 0 ∧ ew = 1 ∧ fieldN 3 8 w = 0 then some (.vunp vd va (fieldN 1 4 w) (fieldN 2 1 w)) else none
  | _ => none

/-- Slot of a word (R281). -/
def slotOf (w : W32) : Nat := w.toNat / 536870912 % 4

/-- Stop bit of a word (R281). -/
def stopOf (w : W32) : Bool := w.toNat / 2147483648 == 1

/-- The syllable that a word holds; none where the slot does not define its OP or a reserved field is not 0. -/
def decodeSyl (word : W32) : Option Syl :=
  let w := word.toNat
  let op := w / 8388608 % 64
  match w / 536870912 % 4 with
  | 0 => decodeInt false op w
  | 1 => if op < 0x30 then decodeInt true op w else decodeCtl op w
  | 2 => decodeMem op w
  | _ => decodeVec op w

end Sys2Proof.Machine
end

