-- ==== Sys2Proof/Machine/Alu.lean ====
section
/-! DEFINITION. What each Pypoiz operation computes (R292, R295): the integer, shift, unary and vector operations as
functions of their operand values. -/
namespace Sys2Proof.Machine

/-- Integer operations of two registers. -/
def AluOp.run (op : AluOp) (a b : W64) : W64 :=
  match op with
  | .add => a + b
  | .sub => a - b
  | .and => a &&& b
  | .or => a ||| b
  | .xor => a ^^^ b
  | .andn => a &&& ~~~b
  | .shl => a <<< (b.toNat % 64)
  | .shr => a >>> (b.toNat % 64)
  | .sar => a.sshiftRight (b.toNat % 64)
  | .mul => a * b
  | .mulhu => BitVec.ofNat 64 (a.toNat * b.toNat / 2 ^ 64)
  | .mulhs => BitVec.ofInt 64 (a.toInt * b.toInt / 2 ^ 64)
  | .min => if a.slt b then a else b
  | .max => if a.slt b then b else a
  | .minu => if a.ult b then a else b
  | .maxu => if a.ult b then b else a

/-- Immediate integer operations; the immediate is sign-extended. -/
def AluIOp.run (op : AluIOp) (a : W64) (imm : BitVec 11) : W64 :=
  match op with
  | .addi => a + imm.signExtend 64
  | .andi => a &&& imm.signExtend 64
  | .ori => a ||| imm.signExtend 64
  | .xori => a ^^^ imm.signExtend 64

/-- Shifts by an immediate. -/
def ShOp.run (op : ShOp) (a : W64) (n : Nat) : W64 :=
  match op with
  | .shl => a <<< n
  | .shr => a >>> n
  | .sar => a.sshiftRight n

/-- Set bits of a value. -/
def popCount (a : W64) : Nat := ((List.range 64).filter (fun k => a.getLsbD k)).length

/-- Leading zeros; 64 for 0. -/
def clz (a : W64) : Nat := ((List.range 64).reverse.takeWhile (fun k => !a.getLsbD k)).length

/-- Trailing zeros; 64 for 0. -/
def ctz (a : W64) : Nat := ((List.range 64).takeWhile (fun k => !a.getLsbD k)).length

/-- UNARY by FN; none for the reserved values 8 to 31. -/
def unaryRun (fn : Nat) (a : W64) : Option W64 :=
  match fn with
  | 0 => some (BitVec.ofNat 64 (clz a))
  | 1 => some (BitVec.ofNat 64 (ctz a))
  | 2 => some (BitVec.ofNat 64 (popCount a))
  | 3 => some (BitVec.ofNat 64 (ofBe (leBytes 8 a.toNat)))
  | 4 => some ((a.setWidth 8).signExtend 64)
  | 5 => some ((a.setWidth 16).signExtend 64)
  | 6 => some ((a.setWidth 32).signExtend 64)
  | 7 => some ((a.setWidth 32).setWidth 64)
  | _ => none

/-- PLOG by FN; none for the reserved values 4 to 31. -/
def plogRun (fn : Nat) (a b : Bool) : Option Bool :=
  match fn with
  | 0 => some (a && b)
  | 1 => some (a || b)
  | 2 => some (a != b)
  | 3 => some (a && !b)
  | _ => none

/-! ## Vectors -/

/-- Element width of EW. -/
def ewBits (ew : BitVec 2) : Nat := 8 * 2 ^ ew.toNat

/-- Element `i` of width `w`. -/
def elem (w i : Nat) (v : W256) : Nat := v.toNat / 2 ^ (w * i) % 2 ^ w

/-- A signed reading of `w` bits. -/
def toSigned (w x : Nat) : Int := if x < 2 ^ (w - 1) then x else (x : Int) - 2 ^ w

/-- The vector whose elements a function gives, each cut to `w` bits. -/
def vecOf (w : Nat) (f : Nat → Nat) : W256 :=
  BitVec.ofNat 256 ((List.range (256 / w)).foldl (fun s i => s + f i % 2 ^ w * 2 ^ (w * i)) 0)

/-- One element of a two-vector operation. -/
def VvOp.elem (op : VvOp) (w a b : Nat) : Nat :=
  match op with
  | .add => a + b
  | .sub => a + 2 ^ w - b
  | .addsu => satAdd (2 ^ w - 1) a b
  | .subsu => a - b
  | .mul => a * b
  | .minu => if a < b then a else b
  | .maxu => if a < b then b else a
  | .min => if toSigned w a < toSigned w b then a else b
  | .max => if toSigned w a < toSigned w b then b else a
  | .absdu => if a < b then b - a else a - b
  | .cmpeq => if a = b then 2 ^ w - 1 else 0
  | .cmpgtu => if b < a then 2 ^ w - 1 else 0
  | .cmpgt => if toSigned w b < toSigned w a then 2 ^ w - 1 else 0

/-- A two-vector operation. -/
def VvOp.run (op : VvOp) (ew : BitVec 2) (a b : W256) : W256 :=
  let w := ewBits ew
  vecOf w (fun i => op.elem w (Machine.elem w i a) (Machine.elem w i b))

/-- A bitwise vector operation. -/
def VlOp.run (op : VlOp) (a b : W256) : W256 :=
  match op with
  | .and => a &&& b
  | .or => a ||| b
  | .xor => a ^^^ b

/-- One element shifted by an immediate below its width. -/
def ShOp.elem (op : ShOp) (w a n : Nat) : Nat :=
  match op with
  | .shl => a * 2 ^ n
  | .shr => a / 2 ^ n
  | .sar => if a < 2 ^ (w - 1) then a / 2 ^ n else 2 ^ w - 1 - (2 ^ w - 1 - a) / 2 ^ n

/-- A vector shift. -/
def ShOp.vrun (op : ShOp) (ew : BitVec 2) (a : W256) (n : Nat) : W256 :=
  let w := ewBits ew
  vecOf w (fun i => op.elem w (Machine.elem w i a) n)

/-- VSEL: bitwise choice. -/
def vselRun (a b m : W256) : W256 := (m &&& a) ||| (~~~m &&& b)

/-- VBCST: every element is the low bits of a general register. -/
def vbcstRun (ew : BitVec 2) (g : W64) : W256 := vecOf (ewBits ew) (fun _ => g.toNat)

/-- VRSUM: the sum of the elements modulo 2^64. -/
def vrsumRun (ew : BitVec 2) (v : W256) : W64 :=
  let w := ewBits ew
  BitVec.ofNat 64 ((List.range (256 / w)).foldl (fun s i => s + elem w i v) 0)

/-- Sample depth of VUNP's IMM6[1:0]; none for the reserved value 3 (R295). -/
def unpDepth (k : Nat) : Option Nat :=
  match k with
  | 0 => some 10
  | 1 => some 12
  | 2 => some 14
  | _ => none

/-- VUNP (R295): sample `i` of a bitstream in the first 2 × depth bytes, into 16-bit element `i`. -/
def vunpRun (msb : Bool) (depth : Nat) (v : W256) : W256 :=
  let bs := (leBytes 32 v.toNat).take (2 * depth)
  if msb then
    let x := ofBe bs
    vecOf 16 (fun i => x / 2 ^ (depth * (15 - i)) % 2 ^ depth)
  else
    let x := ofLe bs
    vecOf 16 (fun i => x / 2 ^ (depth * i) % 2 ^ depth)

end Sys2Proof.Machine
end

