-- ==== Sys2Proof/Machine/Pypoiz.lean ====
section
/-! DEFINITION. Pypoiz cores: how a bundle executes, repeats, waits and ends its work item (spec/09_pypoiz.md). -/
namespace Sys2Proof.Machine

/-! ## Address spaces (R285–R290) -/

/-- Is the instruction-space address one a core may fetch (R285, R288)? -/
def Dev.fetchOk (d : Dev) (c a : Nat) : Bool :=
  a % 4 == 0 && (decide (a < 0x8000) || (decide (0x10000 ≤ a ∧ a < 0x50000) && d.clutchExclusive (c / 8)))

/-- A word of instruction space. -/
def Dev.fetchWord (d : Dev) (c a : Nat) : W32 :=
  BitVec.ofNat 32 (ofLe (if a < 0x8000 then getBytes (d.core c).imem a 4
    else getBytes (amGet [] (c / 8) d.cor.clutchI) a 4))

/-- Store a word of instruction space. -/
def Dev.storeText (d : Dev) (c a v : Nat) : Dev :=
  if a < 0x8000 then d.setCore c { d.core c with imem := putBytes (d.core c).imem a (leBytes 4 v) }
  else { d with cor.clutchI := amMod [] (c / 8) (fun m => putBytes m a (leBytes 4 v)) d.cor.clutchI }

/-- Where a data-space access lands (R286, R287). -/
inductive Place
  | loc (a : Nat)
  | clutch (a : Nat)
  | win (dev : Nat)
deriving DecidableEq, Repr

/-- Resolve a data-space range; none where no range, or a window without the permission, holds it. -/
def Dev.place (d : Dev) (c a s : Nat) (write : Bool) : Option Place :=
  if a + s ≤ 0x20000 then some (.loc a)
  else if 0x100000 ≤ a ∧ a + s ≤ 0x300000 then if d.clutchExclusive (c / 8) then some (.clutch a) else none
  else
    let w := a / 2 ^ 36
    if 1 ≤ w ∧ w ≤ 16 then
      let i := c * 16 + (w - 1)
      let off := a % 2 ^ 36
      let ok := if write then d.rd .CORE_WIN_LEN_W i == 1 else d.rd .CORE_WIN_LEN_R i == 1
      if ok && decide (off + s ≤ d.rd .CORE_WIN_LEN_LEN64 i * 64) then
        some (.win (d.rd .CORE_WIN_BASE_LO i * 64 + d.rd .CORE_WIN_BASE_HI i * 2 ^ 32 + off))
      else none
    else none

/-- Is a place in local or clutch data memory? -/
def Place.near : Place → Bool
  | .win _ => false
  | _ => true

/-- The generation that the core's accesses carry. -/
def Dev.coreGen (d : Dev) (c : Nat) : Nat × Nat :=
  match (d.core c).wi with
  | some w => (w.inst, w.gen)
  | none => (0, d.gen 0)

/-- A refusal of the memory protection stage (R340). -/
def Dev.refuseMem (d : Dev) (agent n a : Nat) : Dev :=
  (d.cnt .MEM_PROT_CNT_REFUSED).raiseSec n 0xA040 agent [(2, agent), (1, n), (8, a)]

/-- Read data at a place: none is poisoned data (R287, R340, R353). -/
def Dev.readPlace (d : Dev) (c s : Nat) : Place → Dev × Option (List Byte)
  | .loc a => (d, some (getBytes (d.core c).dmem a s))
  | .clutch a => (d, some (getBytes (amGet [] (c / 8) d.cor.clutchD) a s))
  | .win a =>
    let (n, g) := d.coreGen c
    if g ≠ d.gen n then (d.cnt .MEM_PROT_CNT_GEN_DROP, none)
    else if !d.memAllowed n a s then (d.refuseMem c n a, none)
    else if d.poisoned a s then (d, none)
    else (d, some (d.readMem a s))

/-- Write data at a place; the protection stage drops refused and fenced writes (R340). -/
def Dev.writePlace (d : Dev) (c : Nat) (bs : List Byte) : Place → Dev
  | .loc a => d.setCore c { d.core c with dmem := putBytes (d.core c).dmem a bs }
  | .clutch a => { d with cor.clutchD := amMod [] (c / 8) (fun m => putBytes m a bs) d.cor.clutchD }
  | .win a =>
    let (n, g) := d.coreGen c
    if g ≠ d.gen n then d.cnt .MEM_PROT_CNT_GEN_DROP
    else if !d.memAllowed n a bs.length then d.refuseMem c n a
    else d.store a bs

/-- Does a running transfer of the core write into the range (R294)? -/
def PCore.xferHits (x : PCore) (a s : Nat) : Bool :=
  x.xfers.any (fun t => decide (t.dst < a + s ∧ a < t.dst + t.len))

/-! ## Legality (R283, R296, R303, R314) -/

/-- General register a syllable writes; none, or g0, writes nothing. -/
def Syl.gDest : Syl → Option (BitVec 6)
  | .alu _ _ rd .. | .sel _ rd .. | .unary _ _ rd _ | .mfs _ rd _ | .mfp _ rd | .alui _ _ rd .. | .shi _ _ rd ..
  | .movi _ rd _ | .movk _ _ rd _ | .pcadd _ rd _ | .wfe rd | .waitt rd _ | .ld _ rd .. | .lddx rd .. | .amoadd rd ..
  | .amoswp rd .. | .cas rd .. | .inp rd .. | .ldc rd .. | .vget rd .. | .vrsum rd .. => if rd = 0 then none else some rd
  | _ => none

/-- Vector register a syllable writes. -/
def Syl.vDest : Syl → Option (BitVec 5)
  | .ldv vd .. | .vv _ vd .. | .vlog _ vd .. | .vsh _ vd .. | .vsel vd .. | .vbcst vd .. | .vunp vd .. => some vd
  | _ => none

/-- Predicates a syllable writes. -/
def Syl.pDests : Syl → List Nat
  | .cmp _ _ pd .. | .plog _ _ pd .. | .cmpi _ _ pd .. => [pd.toNat]
  | .mtp .. => [1, 2, 3, 4, 5, 6, 7]
  | _ => []

/-- Special registers a syllable writes, by selector; a repeat prefix writes rc. -/
def Syl.sDest : Syl → Option Nat
  | .mts _ s _ => some s.toNat
  | .call .. | .jalr .. => some 0
  | .rep .. | .repc .. => some 1
  | _ => none

/-- A reserved value of an enumerated field, p0 as a destination, or a case the chapter names (R283, R303, R314).
`alone` says that no other syllable shares the bundle. -/
def PCore.sylLegal (x : PCore) (alone : Bool) (y : Syl) : Bool :=
  match y with
  | .cmp _ cond pd .. | .cmpi _ cond pd .. => decide (cond.toNat < 6) && pd != 0
  | .plog _ fn pd .. => decide (fn.toNat < 4) && pd != 0
  | .unary _ fn .. => decide (fn.toNat < 8)
  | .mfs _ _ s => decide (s.toNat < 6)
  | .mts _ s _ => decide (s.toNat < 6) && s != 4
  | .br p n _ => !(p == 0 && n == 1)
  | .fence fn => decide (fn.toNat < 4)
  | .rep i ra => alone && (if i then decide ((x.gr ra).toNat ≤ 65535) else decide ((x.gr ra).toNat ≤ 64))
  | .repc i n => alone && (i || decide (n.toNat ≤ 64))
  | .wfe _ => alone && !(x.evm == 0 && !x.ie)
  | .waitt .. => alone && !(x.evm == 0 && !x.ie)
  | .vsh _ _ _ ew n => decide (n.toNat < ewBits ew)
  | .vget _ _ ew idx => decide (idx.toNat < 256 / ewBits ew)
  | .vunp _ _ _ k => k != 3
  | y => !(y == .endw && x.exc)

/-- Do two syllables write the same register (R283)? -/
def Syl.clash (a b : Syl) : Bool :=
  (match a.gDest, b.gDest with | some r, some s => r == s | _, _ => false) ||
  (match a.vDest, b.vDest with | some r, some s => r == s | _, _ => false) ||
  a.pDests.any (fun k => b.pDests.contains k) ||
  (match a.sDest, b.sDest with | some r, some s => r == s | _, _ => false)

/-- The first syllable at fault of a bundle, by its index (R283); `ws` are its words in order. -/
def PCore.illegalAt (x : PCore) (ws : List W32) : Option Nat :=
  let alone := ws.length == 1
  (List.range ws.length).find? (fun k =>
    match decodeSyl (ws.getD k 0) with
    | none => true
    | some y =>
      decide (4 ≤ k) || !x.sylLegal alone y ||
      (List.range k).any (fun j =>
        decide (slotOf (ws.getD k 0) ≤ slotOf (ws.getD j 0)) ||
        (match decodeSyl (ws.getD j 0) with | some z => y.clash z | none => false)))

/-- The repeated bundle may hold no control of its own and may not write rc (R296). -/
def Syl.repeatable (y : Syl) : Bool :=
  y.sDest != some 1 &&
  (match y with
    | .br .. | .call .. | .jr .. | .jalr .. | .rep .. | .repc .. | .wfe .. | .waitt .. | .sev .. | .trap .. => false
    | y => y != .ret && y != .endw && y != .eret)

/-! ## The memory and I/O syllable -/

/-- Address of a load or store: ra + sext(IMM11) × s, modulo 2^64. -/
def PCore.ea (x : PCore) (ra : BitVec 6) (imm : BitVec 11) (s : Nat) : Nat :=
  (x.gr ra + imm.signExtend 64 * BitVec.ofNat 64 s).toNat

/-- I/O address of IN and OUT: (ra[31:0] + sext(IMM11) × 4) mod 2^32. -/
def PCore.ioa (x : PCore) (ra : BitVec 6) (imm : BitVec 11) : Nat :=
  ((x.gr ra).setWidth 32 + imm.signExtend 32 * 4#32).toNat

/-- Access size. -/
def LdOp.size : LdOp → Nat
  | .b | .bs => 1
  | .h | .hs => 2
  | .w | .ws => 4
  | .d => 8
/-- Access size. -/
def StOp.size : StOp → Nat
  | .b => 1
  | .h => 2
  | .w => 4
  | .d => 8
/-- What a load makes of its bytes. -/
def LdOp.extend (op : LdOp) (n : Nat) : W64 :=
  match op with
  | .bs => (BitVec.ofNat 8 n).signExtend 64
  | .hs => (BitVec.ofNat 16 n).signExtend 64
  | .ws => (BitVec.ofNat 32 n).signExtend 64
  | _ => BitVec.ofNat 64 n

/-- What the memory stage of a bundle gave: an exception with its data; a wait for a running transfer; or the value
loaded. -/
inductive MemRes
  | exc (cause addr : Nat)
  | stall
  | ok (d : Dev) (val : Nat)
deriving DecidableEq, Repr

/-- Read for a load; data under a running transfer are undefined (R294), poisoned data raise Memory Error. -/
def Dev.loadAt (d : Dev) (c a s : Nat) : MemRes :=
  if a % s ≠ 0 then .exc 0x05 a
  else match d.place c a s false with
  | none => .exc 0x04 a
  | some p =>
    if (d.core c).xferHits a s then
      let r := d.drawBytes s
      .ok r.2 (ofLe r.1)
    else match d.readPlace c s p with
    | (d, some bs) => .ok d (ofLe bs)
    | (_, none) => .exc 0x07 a

/-- Checks of a store. -/
def Dev.storeCheck (d : Dev) (c a s : Nat) : MemRes :=
  if a % s ≠ 0 then .exc 0x05 a
  else match d.place c a s true with
  | none => .exc 0x04 a
  | some _ => .ok d 0

/-- Read for an atomic operation (R293). -/
def Dev.atomicAt (d : Dev) (c a : Nat) : MemRes :=
  if a % 8 ≠ 0 then .exc 0x05 a
  else match d.place c a 8 true with
  | some (.loc _) | some (.clutch _) => d.loadAt c a 8
  | _ => .exc 0x04 a

/-- Registers of the core-local window that user mode may write (R315). -/
def userIo (o : Nat) (write : Bool) : Bool :=
  o == 0 || o == 4 || o == 0x2C || o == 0x40 || (!write && decide (0x100 ≤ o ∧ o < 0x200))

/-- Is an I/O access refused (R290)? In user mode a read of a supervisor register is an I/O fault too. -/
def Dev.ioFault (d : Dev) (c a : Nat) (write : Bool) : Bool :=
  let x := d.core c
  if a % 4 ≠ 0 then true
  else if 0x0E000000 ≤ a ∧ a < 0x0F000000 then !x.sup && !userIo (a - 0x0E000000) write
  else match x.wi with
    | some w => !ioAllowed d c w.inst a write
    | none => false

/-- Does the syllable raise Privilege (R305)? -/
def Dev.privFault (d : Dev) (c : Nat) (y : Syl) : Bool :=
  let x := d.core c
  !x.sup &&
  (match y with
    | .ldc .. | .stc .. => true
    | .mts _ s _ => s == 5
    | .outp _ ra imm =>
      let a := x.ioa ra imm
      decide (0x0E000000 ≤ a ∧ a < 0x0F000000) && a % 4 == 0 && !userIo (a - 0x0E000000) true &&
      (match findReg (a - 0x0E000000) Block.core.regs with | some _ => true | none => false)
    | y => y == .eret)

/-- Issue checks of XFER (R294). -/
def Dev.xferCheck (d : Dev) (c dst src len k : Nat) : MemRes :=
  if len % 32 ≠ 0 ∨ len < 32 ∨ 1048576 < len ∨ dst % 32 ≠ 0 then .exc 0x05 dst
  else if src % 32 ≠ 0 then .exc 0x05 src
  else match d.place c src len false, d.place c dst len true with
  | none, _ => .exc 0x04 src
  | _, none => .exc 0x04 dst
  | some p, some q =>
    if !p.near && !q.near then .exc 0x04 dst
    else if (d.core c).xfers.any (fun t => t.idx == k) then .stall
    else .ok d 0

/-- The checks and the read of one syllable, before anything is written. -/
def Dev.memStage (d : Dev) (c : Nat) (y : Syl) : MemRes :=
  let x := d.core c
  match y with
  | .ld op _ ra imm => d.loadAt c (x.ea ra imm op.size) op.size
  | .lddx _ ra rb => d.loadAt c (x.gr ra + x.gr rb).toNat 8
  | .ldv _ ra imm => d.loadAt c (x.ea ra imm 32) 32
  | .st op _ ra imm => d.storeCheck c (x.ea ra imm op.size) op.size
  | .stv _ ra imm => d.storeCheck c (x.ea ra imm 32) 32
  | .amoadd _ ra _ | .amoswp _ ra _ | .cas _ ra _ => d.atomicAt c (x.gr ra).toNat
  | .xfer rl ra rb k => d.xferCheck c (x.gr ra).toNat (x.gr rb).toNat (x.gr rl).toNat k.toNat
  | .inp _ ra imm =>
    let a := x.ioa ra imm
    if d.ioFault c a false then .exc 0x06 a
    else
      let r := ioRead d (.core (Fin.ofNat 272 c)) c a
      .ok r.2 r.1
  | .outp _ ra imm =>
    let a := x.ioa ra imm
    if d.ioFault c a true then .exc 0x06 a else .ok d 0
  | .ldc _ ra imm =>
    let a := x.ea ra imm 4
    if a % 4 ≠ 0 then .exc 0x05 a
    else if d.fetchOk c a then .ok d (d.fetchWord c a).toNat else .exc 0x04 a
  | .stc _ ra imm =>
    let a := x.ea ra imm 4
    if a % 4 ≠ 0 then .exc 0x05 a
    else if d.fetchOk c a then .ok d 0 else .exc 0x04 a
  | _ => .ok d 0

/-- Stores, transfers and OUT, after the registers took their new values; values come from the old registers `x`. -/
def Dev.storeStage (d : Dev) (c : Nat) (x : PCore) (val : Nat) (y : Syl) : Dev :=
  let put := fun a s v => match d.place c a s true with
    | some p => d.writePlace c (leBytes s v) p
    | none => d
  match y with
  | .st op rs ra imm => put (x.ea ra imm op.size) op.size (x.gr rs).toNat
  | .stv vs ra imm => put (x.ea ra imm 32) 32 (x.vr vs).toNat
  | .amoadd _ ra rb => put (x.gr ra).toNat 8 (val + (x.gr rb).toNat)
  | .amoswp _ ra rb => put (x.gr ra).toNat 8 (x.gr rb).toNat
  | .cas rd ra rb => if val = (x.gr rd).toNat then put (x.gr ra).toNat 8 (x.gr rb).toNat else d
  | .xfer rl ra rb k =>
    let z := d.core c
    d.setCore c { z with xfers := z.xfers ++ [⟨k.toNat, (x.gr ra).toNat, (x.gr rb).toNat, (x.gr rl).toNat⟩] }
  | .outp rs ra imm => ioWrite d (.core (Fin.ofNat 272 c)) c (x.ioa ra imm) ((x.gr rs).toNat % 2 ^ 32)
  | .stc rs ra imm => d.storeText c (x.ea ra imm 4) ((x.gr rs).toNat % 2 ^ 32)
  | _ => d

/-! ## Register writes -/

/-- A special register as MFS reads it. -/
def PCore.special (x : PCore) (now sel : Nat) : W64 :=
  match sel with
  | 0 => x.lr.setWidth 64
  | 1 => x.rc.setWidth 64
  | 2 => x.ev.setWidth 64
  | 3 => x.evm.setWidth 64
  | 4 => BitVec.ofNat 64 now
  | 5 => x.st
  | _ => 0

/-- A special register as MTS writes it: 1 bits clear ev, st takes SUP and IE (R305), reserved bits are ignored. -/
def PCore.setSpecial (z : PCore) (sel : Nat) (v : W64) : PCore :=
  match sel with
  | 0 => { z with lr := v.setWidth 32 }
  | 1 => { z with rc := v.setWidth 16 }
  | 2 => { z with ev := z.ev &&& ~~~(v.setWidth 32) }
  | 3 => { z with evm := v.setWidth 32 }
  | 5 => { z with st := stOf (v.getLsbD 0) (v.getLsbD 1) z.exc z.repa z.repi }
  | _ => z

/-- The register effect of one syllable: operands from the old core `x`, results into `z`. `b` and `next` are the
bundle's and its successor's addresses, `now` the device time, `val` the value loaded. -/
def PCore.apply (x z : PCore) (b next now val : Nat) (y : Syl) : PCore :=
  match y with
  | .alu _ op rd ra rb => z.setG rd (op.run (x.gr ra) (x.gr rb))
  | .cmp _ cond pd ra rb => z.setP pd ((condHolds cond (x.gr ra) (x.gr rb)).getD false)
  | .sel _ rd ra rb p => z.setG rd (if x.pr p then x.gr ra else x.gr rb)
  | .unary _ fn rd ra => z.setG rd ((unaryRun fn.toNat (x.gr ra)).getD 0)
  | .plog _ fn pd pa pb => z.setP pd ((plogRun fn.toNat (x.pr pa) (x.pr pb)).getD false)
  | .mfs _ rd s => z.setG rd (x.special now s.toNat)
  | .mts _ s ra => z.setSpecial s.toNat (x.gr ra)
  | .mfp _ rd => z.setG rd ((x.p ||| 1#8).setWidth 64)
  | .mtp _ ra => { z with p := ((x.gr ra).setWidth 8 &&& 0xFE#8) ||| (z.p &&& 1#8) }
  | .alui _ op rd ra imm => z.setG rd (op.run (x.gr ra) imm)
  | .shi _ op rd ra sh => z.setG rd (op.run (x.gr ra) sh.toNat)
  | .cmpi _ cond pd ra imm => z.setP pd ((condHolds cond (x.gr ra) (imm.signExtend 64)).getD false)
  | .movi _ rd imm => z.setG rd (imm.signExtend 64)
  | .movk _ h rd imm =>
    let s := 16 * h.toNat
    z.setG rd ((x.gr rd &&& ~~~(0xFFFF#64 <<< s)) ||| ((imm.setWidth 64) <<< s))
  | .pcadd _ rd imm => z.setG rd (BitVec.ofNat 64 b + imm.signExtend 64 * 4#64)
  | .call _ => { z with lr := BitVec.ofNat 32 next }
  | .jalr _ => { z with lr := BitVec.ofNat 32 next }
  | .ld op rd _ _ => z.setG rd (op.extend val)
  | .lddx rd _ _ | .amoadd rd _ _ | .amoswp rd _ _ | .cas rd _ _ | .inp rd _ _ | .ldc rd _ _ =>
    z.setG rd (BitVec.ofNat 64 val)
  | .ldv vd _ _ => z.setV vd (BitVec.ofNat 256 val)
  | .vv op vd va vb ew => z.setV vd (op.run ew (x.vr va) (x.vr vb))
  | .vlog op vd va vb => z.setV vd (op.run (x.vr va) (x.vr vb))
  | .vsh op vd va ew imm => z.setV vd (op.vrun ew (x.vr va) imm.toNat)
  | .vsel vd va vb vm => z.setV vd (vselRun (x.vr va) (x.vr vb) (x.vr vm))
  | .vbcst v g ew => z.setV v (vbcstRun ew (x.gr g))
  | .vget g v ew idx => z.setG g (BitVec.ofNat 64 (elem (ewBits ew) idx.toNat (x.vr v)))
  | .vrsum g v ew => z.setG g (vrsumRun ew (x.vr v))
  | .vunp vd va msb k => z.setV vd (vunpRun (msb == 1) ((unpDepth k.toNat).getD 0) (x.vr va))
  | _ => z

/-- The branch a bundle takes, as a 64-bit target. -/
def PCore.branch (x : PCore) (b : Nat) (y : Syl) : Option Nat :=
  let rel := fun (off : BitVec 19) => (BitVec.ofNat 32 b + off.signExtend 32 * 4#32).toNat
  match y with
  | .br p n off => if p = 0 ∨ x.pr p != (n == 1) then some (rel off) else none
  | .call off => some (rel off)
  | .jr ra => some (x.gr ra).toNat
  | .jalr ra => some (x.gr ra).toNat
  | y => if y = .ret then some x.lr.toNat else none

/-! ## Executing a bundle (R282, R306) -/

/-- What one execution of a bundle did. -/
inductive BundleRes
  | exc (d : Dev) (cause epc eaddr : Nat)
  | stall
  | done (d : Dev) (target : Option Nat)
deriving DecidableEq, Repr

/-- The first fault of a stage over the syllables, or the device and loaded value after all of them; at most one
syllable is in slot M. -/
def Dev.memAll (d : Dev) (c val : Nat) : List Syl → MemRes
  | [] => .ok d val
  | y :: ys =>
    match d.memStage c y with
    | .exc k a => .exc k a
    | .stall => .stall
    | .ok d v => d.memAll c (if y.slot = 2 then v else val) ys

/-- SEV (R302): flag (c mod 8) in each named core of the clutch that runs a work item of the same owner. -/
def Dev.sendEvents (d : Dev) (c mask : Nat) : Dev :=
  match (d.core c).wi with
  | none => d
  | some w =>
    (List.range 8).foldl (fun d j =>
      let t := c / 8 * 8 + j
      let x := d.core t
      if bitOf j mask ∧ x.wi.map (·.inst) = some w.inst then
        d.setCore t { x with ev := x.ev ||| (1#32 <<< (c % 8)) } else d) d

/-- The event syllable of a bundle. -/
def Dev.eventStage (d : Dev) (c : Nat) (x : PCore) : Syl → Dev
  | .sev ra => d.sendEvents c (x.gr ra).toNat
  | _ => d

/-- Execute the syllables of a bundle once, at address `b` with successor `next`, when all of them are legal. -/
def Dev.runBundle (d : Dev) (c b next : Nat) (ws : List W32) : BundleRes :=
  let x := d.core c
  match x.illegalAt ws with
  | some k => .exc d 0x01 b (b + 4 * k)
  | none =>
    let ys := ws.filterMap decodeSyl
    match (List.range ys.length).find? (fun k => match ys[k]? with | some y => d.privFault c y | none => false) with
    | some k => .exc d 0x02 b (b + 4 * k)
    | none =>
      match d.memAll c 0 ys with
      | .exc k a => .exc d k b a
      | .stall => .stall
      | .ok d val =>
        let z := ys.foldl (fun z y => x.apply z b next d.now val y) (d.core c)
        let d := d.setCore c z
        let d := ys.foldl (fun d y => d.storeStage c x val y) d
        let d := ys.foldl (fun d y => d.eventStage c x y) d
        .done d (ys.findSome? (x.branch b))

/-- Move the pc. -/
def Dev.setPc (d : Dev) (c a : Nat) : Dev := d.setCore c { d.core c with pc := BitVec.ofNat 32 a }

/-- Go to an address: a target beyond 32 bits, misaligned, or in no range raises Instruction Fetch Fault there
(R285). -/
def Dev.goTo (d : Dev) (c a : Nat) : Dev :=
  let d := d.setPc c a
  if a < 2 ^ 32 ∧ d.fetchOk c a then d else d.takeException c 0x03 (a % 2 ^ 32) a (some 1)

/-- The words of the bundle at an address, up to the stop bit; at most five are read, since a fifth syllable is always
out of order. -/
def Dev.bundleAt (d : Dev) (c a : Nat) : Nat → List W32
  | 0 => []
  | k + 1 =>
    let w := d.fetchWord c a
    if stopOf w then [w] else w :: d.bundleAt c (a + 4) k

/-! ## Repetition (R296–R300) -/

/-- How a run of repetitions stopped. -/
inductive RepRes
  | exc (d : Dev) (cause epc eaddr : Nat)
  | paused (d : Dev)
  | done (d : Dev)
deriving DecidableEq, Repr

/-- Repeat the bundle while rc > 0, at most `k` times (an interruptible repetition may pause there). -/
def Dev.repeatLoop (d : Dev) (c b : Nat) (ws : List W32) : Nat → RepRes
  | 0 => if (d.core c).rc = 0 then .done d else .paused d
  | k + 1 =>
    if (d.core c).rc = 0 then .done d
    else match d.runBundle c b (b + 4 * ws.length) ws with
      | .exc d k a e => .exc d k a e
      | .stall => .paused d
      | .done d _ => (d.setCore c { d.core c with rc := (d.core c).rc - 1 }).repeatLoop c b ws k

/-- End of a repetition: rc is 0, the flags clear, and the core goes on after the repeated bundle. -/
def Dev.repeatEnd (d : Dev) (c b : Nat) (ws : List W32) : Dev :=
  (d.setCore c ((d.core c).setRep false false)).goTo c (b + 4 * ws.length)

/-- Run the repetition of the bundle at `b`; `upTo` repetitions pass before an interrupt may be taken, all of them for
REP. -/
def Dev.repeatRun (d : Dev) (c b : Nat) (upTo : Option Nat) : Dev :=
  let x := d.core c
  let ws := d.bundleAt c b 5
  let n := if x.repi then (match upTo with | some k => k | none => x.rc.toNat) else x.rc.toNat
  match d.repeatLoop c b ws n with
  | .exc d k a e => d.takeException c k a e (some 1)
  | .paused d => d.setPc c b
  | .done d => d.repeatEnd c b ws

/-- A repeat prefix (R296, R297): the count goes to rc, the repeated bundle is checked whatever the count, and it
runs. -/
def Dev.repeatPrefix (d : Dev) (c b count : Nat) (interruptible : Bool) (upTo : Option Nat) : Dev :=
  let d := d.setCore c { d.core c with rc := BitVec.ofNat 16 count }
  if !d.fetchOk c b then d.goTo c b
  else
    let ws := d.bundleAt c b 5
    let bad := match (List.range ws.length).find? (fun k =>
        match decodeSyl (ws.getD k 0) with | some y => !y.repeatable | none => false) with
      | some k => some k
      | none => (d.core c).illegalAt ws
    match bad with
    | some k => (d.setPc c b).takeException c 0x01 b (b + 4 * k) (some 1)
    | none => ((d.setCore c ((d.core c).setRep true interruptible)).setPc c b).repeatRun c b upTo

/-! ## Waiting (R303, R304) -/

/-- Is the condition of a wait true? -/
def Dev.waitOver (d : Dev) (c : Nat) (w : WaitState) : Bool :=
  let x := d.core c
  (x.ev &&& x.evm) != 0 || (match w.deadline with | some t => decide (t ≤ d.now) | none => false)

/-- End a wait: rd receives ev & evm, and the core goes on with the next bundle. -/
def Dev.wake (d : Dev) (c : Nat) (w : WaitState) : Dev :=
  let x := d.core c
  let x := { x.setG (BitVec.ofNat 6 w.rd) ((x.ev &&& x.evm).setWidth 64) with wait := none }
  (d.setCore c x).goTo c (x.pc.toNat + 4)

/-- WFE and WAITT: wait, unless the condition holds already. -/
def Dev.startWait (d : Dev) (c : Nat) (w : WaitState) : Dev :=
  if d.waitOver c w then d.wake c w else d.setCore c { d.core c with wait := some w }

/-! ## ERET and ENDW (R308, R314) -/

/-- Exception return (R308). -/
def Dev.eret (d : Dev) (c : Nat) (upTo : Option Nat) : Dev :=
  let x := d.core c
  let sup := d.rd .CORE_EXC_PSUP c == 1
  let ie := d.rd .CORE_EXC_PIE c == 1
  let epc := d.rd .CORE_EPC c
  let erc := d.rd .CORE_ERC c
  if d.rd .CORE_EXC_EREP c = 1 ∧ 0 < erc then
    let d := d.setCore c { x with st := stOf sup ie false true (d.rd .CORE_EXC_EREPI c == 1), rc := BitVec.ofNat 16 erc,
                                  pc := BitVec.ofNat 32 epc }
    if d.fetchOk c epc then d.repeatRun c epc upTo else d.goTo c epc
  else
    let d := d.setCore c { x with st := stOf sup ie false false false }
    if d.rd .CORE_EXC_EREP c = 1 then d.goTo c (epc + 4 * (d.bundleAt c epc 5).length) else d.goTo c epc

/-- The completion value: g2 to g5 (R314). -/
def PCore.endValue (x : PCore) : List Byte :=
  leBytes 8 (x.gr 2).toNat ++ leBytes 8 (x.gr 3).toNat ++ leBytes 8 (x.gr 4).toNat ++ leBytes 8 (x.gr 5).toNat

/-- The end of the work item, once no transfer runs. A filter's completion value is its verdict record (R92, R314). -/
def Dev.endNow (d : Dev) (c : Nat) (value : List Byte) : Dev :=
  let frame := ((d.core c).wi.bind (·.post)).bind (·.frame)
  let d := d.endWork c 0 0 0 value
  match frame with
  | some (n, id) => d.verdict n id value
  | none => d

/-- ENDW (R314): the work item ends now, or once its running transfers have ended. -/
def Dev.endw (d : Dev) (c : Nat) (value : List Byte) : Dev :=
  if (d.core c).xfers.isEmpty then d.endNow c value else d.setCore c { d.core c with ending := some value }

/-! ## One instruction command -/

/-- The words of a bundle around a syllable: stop bits are implied by the place. -/
def bundleWords (u : Bundle) (w : W32) : List W32 :=
  let ws := u.before ++ w :: u.after
  (List.range ws.length).map (fun k =>
    let v := ws.getD k 0
    if k + 1 = ws.length then v ||| 0x80000000#32 else v &&& 0x7FFFFFFF#32)

/-- May the core execute a bundle now? It is in service, neither halted nor stopped nor waiting nor within a repetition
that an interrupt is to end, and it runs a work item or supervisor code. -/
def PCore.runs (x : PCore) : Bool :=
  x.assigned && !x.retired && !x.halted && !x.stopped && x.wait.isNone && x.ending.isNone && !x.repa && (x.wi.isSome || x.sup)

/-- Syllables that decide themselves how their core goes on. -/
def Syl.ends : Syl → Bool
  | .rep .. | .repc .. | .wfe .. | .waitt .. | .trap .. => true
  | y => y == .endw || y == .eret

/-- How the core goes on once a bundle has executed: with the syllable of it that decides this, else at the target of its
branch, else at the next bundle. `x` is the core before the bundle. -/
def Dev.goOn (d : Dev) (c : Nat) (x : PCore) (next : Nat) (upTo target : Option Nat) : Option Syl → Dev
  | some (.rep i ra) => d.repeatPrefix c next (x.gr ra).toNat i upTo
  | some (.repc i n) => d.repeatPrefix c next n.toNat i upTo
  | some (.wfe rd) => d.startWait c ⟨rd.toNat, none⟩
  | some (.waitt rd ra) => d.startWait c ⟨rd.toNat, some (x.gr ra).toNat⟩
  | some (.trap code) => (d.setPc c next).takeException c 0x08 next code.toNat (some 1)
  | some y =>
    if y = .eret then d.eret c upTo
    else if y = .endw then (d.setPc c next).endw c x.endValue
    else d.goTo c (target.getD next)
  | none => d.goTo c (target.getD next)

/-- Carry out the bundle of an instruction command (R282, R306, R309). A lasting error raises Memory Error, a transient
one is counted and the bundle executes. `upTo` bounds an interruptible repetition. -/
def Dev.execBundle (d : Dev) (u : Bundle) (w : W32) (upTo : Option Nat) : Dev :=
  let c := u.core.val
  let x := d.core c
  if !x.runs then d
  else
    let b := x.pc.toNat
    if !d.fetchOk c b then d.takeException c 0x03 b b (some 1)
    else
      let ws := bundleWords u w
      let next := b + 4 * ws.length
      match u.err with
      | .lasting unit a =>
        match x.illegalAt ws with
        | some k => d.takeException c 0x01 b (b + 4 * k) (some 1)
        | none => (d.takeException c 0x07 b a (some 1)).coreLasting c unit
      | e =>
        let d := match e with
          | .transient unit => (d.cnt .CORE_STATUS_TRANSIENT c).raise 0x8010 [(2, c), (2, unit)]
          | _ => d
        match d.runBundle c b next ws with
        | .exc d k a e => d.takeException c k a e (some 1)
        | .stall => d
        | .done d target =>
          d.goOn c x next upTo target ((ws.filterMap decodeSyl).find? Syl.ends)

/-! ## Happenings on a core that are no instruction -/

/-- A transfer ends (R294): L bytes are copied, flag 16 + k is set; a fault sets bit k of CORE_XFER_ERR and leaves the
destination undefined. A work item that was ending ends with its last transfer (R314). -/
def Dev.xferDone (d : Dev) (c k : Nat) (fault : Bool) : Dev :=
  let x := d.core c
  match x.xfers.find? (fun t => t.idx == k) with
  | none => d
  | some t =>
    let src := match d.place c t.src t.len false with
      | some p => d.readPlace c t.len p
      | none => (d, none)
    let bad := fault || src.2.isNone || (d.place c t.dst t.len true).isNone
    let d := src.1
    let d := if bad then d.wr .CORE_XFER_ERR (d.rd .CORE_XFER_ERR c ||| 2 ^ k) c else d
    let r := if bad then d.drawBytes t.len else (src.2.getD [], d)
    let d := match r.2.place c t.dst t.len true with
      | some p => r.2.writePlace c r.1 p
      | none => r.2
    let x := d.core c
    let d := d.setCore c { x with xfers := x.xfers.filter (fun y => y.idx != k), ev := x.ev ||| (1#32 <<< (16 + k % 8)) }
    match x.ending with
    | some v => if (d.core c).xfers.isEmpty then d.endNow c v else d
    | none => d

/-- A wait ends when its condition is true (R303). -/
def Dev.waitWake (d : Dev) (c : Nat) : Dev :=
  match (d.core c).wait with
  | none => d
  | some w => if d.waitOver c w then d.wake c w else d

/-- Budget (R306, R307): taken in user mode while st.IE is 1. A repetition that is not interrupted runs to its end. -/
def Dev.budgetExpiry (d : Dev) (c : Nat) : Dev :=
  let x := d.core c
  if x.wi.isNone ∨ x.sup ∨ x.ending.isSome ∨ d.rd .CORE_BUDGET c = 0 then d
  else
    let d := d.wr .CORE_BUDGET 0 c
    if x.ie then d.interrupt c 0x10 (some 1)
    else if x.repa then d.repeatRun c x.pc.toNat none else d

end Sys2Proof.Machine
end

