-- ==== Sys2Proof/Machine/RowsCore.lean ====
section
/-! DEFINITION. The meanings of commands: Pypoiz instructions. Each is its effect on the device; the queue of waiting commands
is not touched. -/
namespace Sys2Proof.Machine

/-- A repetition by its count. -/
def Syl.ofRep (interruptible : Bool) : RepCount → Syl
  | .reg ra => .rep interruptible ra
  | .const n => .repc interruptible n

/-- ADD (R292). ADD writes ra + rb to rd. -/
def execAdd (u : Bundle) (b : Bool) (rd ra rb : BitVec 6) (s : State) : Host.Outcome State Fault Refusal :=
  .next (onDev s (fun d => d.execBundle u ((Syl.alu b .add rd ra rb).encode false) none))

/-- SUB (R292). SUB writes ra − rb to rd. -/
def execSub (u : Bundle) (b : Bool) (rd ra rb : BitVec 6) (s : State) : Host.Outcome State Fault Refusal :=
  .next (onDev s (fun d => d.execBundle u ((Syl.alu b .sub rd ra rb).encode false) none))

/-- AND (R292). AND writes ra & rb to rd. -/
def execAnd (u : Bundle) (b : Bool) (rd ra rb : BitVec 6) (s : State) : Host.Outcome State Fault Refusal :=
  .next (onDev s (fun d => d.execBundle u ((Syl.alu b .and rd ra rb).encode false) none))

/-- OR (R292). OR writes the bitwise or of ra and rb to rd. -/
def execOr (u : Bundle) (b : Bool) (rd ra rb : BitVec 6) (s : State) : Host.Outcome State Fault Refusal :=
  .next (onDev s (fun d => d.execBundle u ((Syl.alu b .or rd ra rb).encode false) none))

/-- XOR (R292). XOR writes ra ^ rb to rd. -/
def execXor (u : Bundle) (b : Bool) (rd ra rb : BitVec 6) (s : State) : Host.Outcome State Fault Refusal :=
  .next (onDev s (fun d => d.execBundle u ((Syl.alu b .xor rd ra rb).encode false) none))

/-- ANDN (R292). ANDN writes ra & ~rb to rd. -/
def execAndn (u : Bundle) (b : Bool) (rd ra rb : BitVec 6) (s : State) : Host.Outcome State Fault Refusal :=
  .next (onDev s (fun d => d.execBundle u ((Syl.alu b .andn rd ra rb).encode false) none))

/-- SHL (R292). SHL shifts ra left by rb[5:0]. -/
def execShl (u : Bundle) (b : Bool) (rd ra rb : BitVec 6) (s : State) : Host.Outcome State Fault Refusal :=
  .next (onDev s (fun d => d.execBundle u ((Syl.alu b .shl rd ra rb).encode false) none))

/-- SHR (R292). SHR shifts ra right by rb[5:0], zeros in. -/
def execShr (u : Bundle) (b : Bool) (rd ra rb : BitVec 6) (s : State) : Host.Outcome State Fault Refusal :=
  .next (onDev s (fun d => d.execBundle u ((Syl.alu b .shr rd ra rb).encode false) none))

/-- SAR (R292). SAR shifts ra right by rb[5:0], sign in. -/
def execSar (u : Bundle) (b : Bool) (rd ra rb : BitVec 6) (s : State) : Host.Outcome State Fault Refusal :=
  .next (onDev s (fun d => d.execBundle u ((Syl.alu b .sar rd ra rb).encode false) none))

/-- MUL (R292). MUL writes the low 64 bits of ra × rb. -/
def execMul (u : Bundle) (b : Bool) (rd ra rb : BitVec 6) (s : State) : Host.Outcome State Fault Refusal :=
  .next (onDev s (fun d => d.execBundle u ((Syl.alu b .mul rd ra rb).encode false) none))

/-- MULHU (R292). MULHU writes the high 64 bits of the unsigned product. -/
def execMulhu (u : Bundle) (b : Bool) (rd ra rb : BitVec 6) (s : State) : Host.Outcome State Fault Refusal :=
  .next (onDev s (fun d => d.execBundle u ((Syl.alu b .mulhu rd ra rb).encode false) none))

/-- MULHS (R292). MULHS writes the high 64 bits of the signed product. -/
def execMulhs (u : Bundle) (b : Bool) (rd ra rb : BitVec 6) (s : State) : Host.Outcome State Fault Refusal :=
  .next (onDev s (fun d => d.execBundle u ((Syl.alu b .mulhs rd ra rb).encode false) none))

/-- MIN (R292). MIN writes the signed minimum. -/
def execMin (u : Bundle) (b : Bool) (rd ra rb : BitVec 6) (s : State) : Host.Outcome State Fault Refusal :=
  .next (onDev s (fun d => d.execBundle u ((Syl.alu b .min rd ra rb).encode false) none))

/-- MAX (R292). MAX writes the signed maximum. -/
def execMax (u : Bundle) (b : Bool) (rd ra rb : BitVec 6) (s : State) : Host.Outcome State Fault Refusal :=
  .next (onDev s (fun d => d.execBundle u ((Syl.alu b .max rd ra rb).encode false) none))

/-- MINU (R292). MINU writes the unsigned minimum. -/
def execMinu (u : Bundle) (b : Bool) (rd ra rb : BitVec 6) (s : State) : Host.Outcome State Fault Refusal :=
  .next (onDev s (fun d => d.execBundle u ((Syl.alu b .minu rd ra rb).encode false) none))

/-- MAXU (R292). MAXU writes the unsigned maximum. -/
def execMaxu (u : Bundle) (b : Bool) (rd ra rb : BitVec 6) (s : State) : Host.Outcome State Fault Refusal :=
  .next (onDev s (fun d => d.execBundle u ((Syl.alu b .maxu rd ra rb).encode false) none))

/-- CMP (R292). CMP writes a comparison of ra and rb to a predicate. -/
def execCmp (u : Bundle) (b : Bool) (cond pd : BitVec 3) (ra rb : BitVec 6) (s : State) : Host.Outcome State Fault Refusal :=
  .next (onDev s (fun d => d.execBundle u ((Syl.cmp b cond pd ra rb).encode false) none))

/-- SEL (R292). SEL selects ra or rb by a predicate. -/
def execSel (u : Bundle) (b : Bool) (rd ra rb : BitVec 6) (p : BitVec 3) (s : State) : Host.Outcome State Fault Refusal :=
  .next (onDev s (fun d => d.execBundle u ((Syl.sel b rd ra rb p).encode false) none))

/-- UNARY (R292). UNARY applies CLZ, CTZ, POPC, BSWAP or an extension to ra. -/
def execUnary (u : Bundle) (b : Bool) (fn : BitVec 5) (rd ra : BitVec 6) (s : State) : Host.Outcome State Fault Refusal :=
  .next (onDev s (fun d => d.execBundle u ((Syl.unary b fn rd ra).encode false) none))

/-- PLOG (R292). PLOG combines two predicates into a third. -/
def execPlog (u : Bundle) (b : Bool) (fn : BitVec 5) (pd pa pb : BitVec 3) (s : State) : Host.Outcome State Fault Refusal :=
  .next (onDev s (fun d => d.execBundle u ((Syl.plog b fn pd pa pb).encode false) none))

/-- MFS (R292). MFS reads a special register into rd. -/
def execMfs (u : Bundle) (b : Bool) (rd sel : BitVec 6) (s : State) : Host.Outcome State Fault Refusal :=
  .next (onDev s (fun d => d.execBundle u ((Syl.mfs b rd sel).encode false) none))

/-- MTS (R292). MTS writes a special register, clearing ev flags for ev. -/
def execMts (u : Bundle) (b : Bool) (sel ra : BitVec 6) (s : State) : Host.Outcome State Fault Refusal :=
  .next (onDev s (fun d => d.execBundle u ((Syl.mts b sel ra).encode false) none))

/-- MFP (R292). MFP reads all predicates into rd. -/
def execMfp (u : Bundle) (b : Bool) (rd : BitVec 6) (s : State) : Host.Outcome State Fault Refusal :=
  .next (onDev s (fun d => d.execBundle u ((Syl.mfp b rd).encode false) none))

/-- MTP (R292). MTP writes predicates p1–p7 from ra. -/
def execMtp (u : Bundle) (b : Bool) (ra : BitVec 6) (s : State) : Host.Outcome State Fault Refusal :=
  .next (onDev s (fun d => d.execBundle u ((Syl.mtp b ra).encode false) none))

/-- ADDI (R292). ADDI adds a sign-extended immediate. -/
def execAddi (u : Bundle) (b : Bool) (rd ra : BitVec 6) (imm : BitVec 11) (s : State) : Host.Outcome State Fault Refusal :=
  .next (onDev s (fun d => d.execBundle u ((Syl.alui b .addi rd ra imm).encode false) none))

/-- ANDI (R292). ANDI ands with a sign-extended immediate. -/
def execAndi (u : Bundle) (b : Bool) (rd ra : BitVec 6) (imm : BitVec 11) (s : State) : Host.Outcome State Fault Refusal :=
  .next (onDev s (fun d => d.execBundle u ((Syl.alui b .andi rd ra imm).encode false) none))

/-- ORI (R292). ORI ors with a sign-extended immediate. -/
def execOri (u : Bundle) (b : Bool) (rd ra : BitVec 6) (imm : BitVec 11) (s : State) : Host.Outcome State Fault Refusal :=
  .next (onDev s (fun d => d.execBundle u ((Syl.alui b .ori rd ra imm).encode false) none))

/-- XORI (R292). XORI xors with a sign-extended immediate. -/
def execXori (u : Bundle) (b : Bool) (rd ra : BitVec 6) (imm : BitVec 11) (s : State) : Host.Outcome State Fault Refusal :=
  .next (onDev s (fun d => d.execBundle u ((Syl.alui b .xori rd ra imm).encode false) none))

/-- SHLI (R292). SHLI shifts left by an immediate. -/
def execShli (u : Bundle) (b : Bool) (rd ra sh : BitVec 6) (s : State) : Host.Outcome State Fault Refusal :=
  .next (onDev s (fun d => d.execBundle u ((Syl.shi b .shl rd ra sh).encode false) none))

/-- SHRI (R292). SHRI shifts right by an immediate, zeros in. -/
def execShri (u : Bundle) (b : Bool) (rd ra sh : BitVec 6) (s : State) : Host.Outcome State Fault Refusal :=
  .next (onDev s (fun d => d.execBundle u ((Syl.shi b .shr rd ra sh).encode false) none))

/-- SARI (R292). SARI shifts right by an immediate, sign in. -/
def execSari (u : Bundle) (b : Bool) (rd ra sh : BitVec 6) (s : State) : Host.Outcome State Fault Refusal :=
  .next (onDev s (fun d => d.execBundle u ((Syl.shi b .sar rd ra sh).encode false) none))

/-- CMPI (R292). CMPI compares ra with an immediate into a predicate. -/
def execCmpi (u : Bundle) (b : Bool) (cond pd : BitVec 3) (ra : BitVec 6) (imm : BitVec 11) (s : State) : Host.Outcome State Fault Refusal :=
  .next (onDev s (fun d => d.execBundle u ((Syl.cmpi b cond pd ra imm).encode false) none))

/-- MOVI (R292). MOVI writes a sign-extended 17-bit immediate. -/
def execMovi (u : Bundle) (b : Bool) (rd : BitVec 6) (imm : BitVec 17) (s : State) : Host.Outcome State Fault Refusal :=
  .next (onDev s (fun d => d.execBundle u ((Syl.movi b rd imm).encode false) none))

/-- MOVK (R292). MOVK writes 16 immediate bits into one quarter of rd. -/
def execMovk (u : Bundle) (b : Bool) (h : BitVec 2) (rd : BitVec 6) (imm : BitVec 16) (s : State) : Host.Outcome State Fault Refusal :=
  .next (onDev s (fun d => d.execBundle u ((Syl.movk b h rd imm).encode false) none))

/-- PCADD (R292). PCADD writes the bundle address plus a scaled offset. -/
def execPcadd (u : Bundle) (b : Bool) (rd : BitVec 6) (imm : BitVec 17) (s : State) : Host.Outcome State Fault Refusal :=
  .next (onDev s (fun d => d.execBundle u ((Syl.pcadd b rd imm).encode false) none))

/-- BR (R292). BR branches on a predicate or always. -/
def execBr (u : Bundle) (p : BitVec 3) (n : BitVec 1) (off : BitVec 19) (s : State) : Host.Outcome State Fault Refusal :=
  .next (onDev s (fun d => d.execBundle u ((Syl.br p n off).encode false) none))

/-- CALL (R292). CALL saves NEXT in lr and branches. -/
def execCall (u : Bundle) (off : BitVec 19) (s : State) : Host.Outcome State Fault Refusal :=
  .next (onDev s (fun d => d.execBundle u ((Syl.call off).encode false) none))

/-- JR (R292). JR jumps to the address in ra. -/
def execJr (u : Bundle) (ra : BitVec 6) (s : State) : Host.Outcome State Fault Refusal :=
  .next (onDev s (fun d => d.execBundle u ((Syl.jr ra).encode false) none))

/-- JALR (R292). JALR saves NEXT in lr and jumps to ra. -/
def execJalr (u : Bundle) (ra : BitVec 6) (s : State) : Host.Outcome State Fault Refusal :=
  .next (onDev s (fun d => d.execBundle u ((Syl.jalr ra).encode false) none))

/-- RET (R292). RET jumps to lr. -/
def execRet (u : Bundle) (s : State) : Host.Outcome State Fault Refusal :=
  .next (onDev s (fun d => d.execBundle u ((Syl.ret).encode false) none))

/-- REP (R296). REP repeats the following bundle a counted number of times without interruption. -/
def execRep (u : Bundle) (count : RepCount) (s : State) : Host.Outcome State Fault Refusal :=
  .next (onDev s (fun d => d.execBundle u ((Syl.ofRep false count).encode false) none))

/-- REPI (R299). REPI repeats the following bundle, interruptibly between repetitions. -/
def execRepi (u : Bundle) (count : RepCount) (upTo : Option Nat) (s : State) : Host.Outcome State Fault Refusal :=
  .next (onDev s (fun d => d.execBundle u ((Syl.ofRep true count).encode false) upTo))

/-- WFE (R303). WFE waits until ev & evm is nonzero. -/
def execWfe (u : Bundle) (rd : BitVec 6) (s : State) : Host.Outcome State Fault Refusal :=
  .next (onDev s (fun d => d.execBundle u ((Syl.wfe rd).encode false) none))

/-- WAITT (R303). WAITT waits for an event or until a device time. -/
def execWaitt (u : Bundle) (rd ra : BitVec 6) (s : State) : Host.Outcome State Fault Refusal :=
  .next (onDev s (fun d => d.execBundle u ((Syl.waitt rd ra).encode false) none))

/-- WAIT_WAKE (R303). A wait ends when its event condition or deadline becomes true, and rd receives ev & evm. -/
def execWaitWake (core : Fin 272) (s : State) : Host.Outcome State Fault Refusal :=
  .next (onDev s (fun d => d.waitWake core.val))

/-- SEV (R302). SEV sets event flags in cores of the clutch running the same instance. -/
def execSev (u : Bundle) (ra : BitVec 6) (s : State) : Host.Outcome State Fault Refusal :=
  .next (onDev s (fun d => d.execBundle u ((Syl.sev ra).encode false) none))

/-- TRAP (R306). TRAP completes its bundle and raises Trap with a code. -/
def execTrap (u : Bundle) (code : BitVec 8) (s : State) : Host.Outcome State Fault Refusal :=
  .next (onDev s (fun d => d.execBundle u ((Syl.trap code).encode false) none))

/-- ENDW (R314). ENDW ends the work item with its 32-byte completion value. -/
def execEndw (u : Bundle) (s : State) : Host.Outcome State Fault Refusal :=
  .next (onDev s (fun d => d.execBundle u ((Syl.endw).encode false) none))

/-- FENCE (R291). FENCE orders earlier data, I/O or instruction accesses before later ones. -/
def execFence (u : Bundle) (fn : BitVec 5) (s : State) : Host.Outcome State Fault Refusal :=
  .next (onDev s (fun d => d.execBundle u ((Syl.fence fn).encode false) none))

/-- ERET (R308). ERET returns from an exception, resuming a repetition where one was active. -/
def execEret (u : Bundle) (upTo : Option Nat) (s : State) : Host.Outcome State Fault Refusal :=
  .next (onDev s (fun d => d.execBundle u (Syl.eret.encode false) upTo))

/-- LDB (R292). LDB loads a zero-extended byte. -/
def execLdb (u : Bundle) (rd ra : BitVec 6) (imm : BitVec 11) (s : State) : Host.Outcome State Fault Refusal :=
  .next (onDev s (fun d => d.execBundle u ((Syl.ld .b rd ra imm).encode false) none))

/-- LDBS (R292). LDBS loads a sign-extended byte. -/
def execLdbs (u : Bundle) (rd ra : BitVec 6) (imm : BitVec 11) (s : State) : Host.Outcome State Fault Refusal :=
  .next (onDev s (fun d => d.execBundle u ((Syl.ld .bs rd ra imm).encode false) none))

/-- LDH (R292). LDH loads a zero-extended halfword. -/
def execLdh (u : Bundle) (rd ra : BitVec 6) (imm : BitVec 11) (s : State) : Host.Outcome State Fault Refusal :=
  .next (onDev s (fun d => d.execBundle u ((Syl.ld .h rd ra imm).encode false) none))

/-- LDHS (R292). LDHS loads a sign-extended halfword. -/
def execLdhs (u : Bundle) (rd ra : BitVec 6) (imm : BitVec 11) (s : State) : Host.Outcome State Fault Refusal :=
  .next (onDev s (fun d => d.execBundle u ((Syl.ld .hs rd ra imm).encode false) none))

/-- LDW (R292). LDW loads a zero-extended word. -/
def execLdw (u : Bundle) (rd ra : BitVec 6) (imm : BitVec 11) (s : State) : Host.Outcome State Fault Refusal :=
  .next (onDev s (fun d => d.execBundle u ((Syl.ld .w rd ra imm).encode false) none))

/-- LDWS (R292). LDWS loads a sign-extended word. -/
def execLdws (u : Bundle) (rd ra : BitVec 6) (imm : BitVec 11) (s : State) : Host.Outcome State Fault Refusal :=
  .next (onDev s (fun d => d.execBundle u ((Syl.ld .ws rd ra imm).encode false) none))

/-- LDD (R292). LDD loads a doubleword. -/
def execLdd (u : Bundle) (rd ra : BitVec 6) (imm : BitVec 11) (s : State) : Host.Outcome State Fault Refusal :=
  .next (onDev s (fun d => d.execBundle u ((Syl.ld .d rd ra imm).encode false) none))

/-- STB (R292). STB stores a byte. -/
def execStb (u : Bundle) (rs ra : BitVec 6) (imm : BitVec 11) (s : State) : Host.Outcome State Fault Refusal :=
  .next (onDev s (fun d => d.execBundle u ((Syl.st .b rs ra imm).encode false) none))

/-- STH (R292). STH stores a halfword. -/
def execSth (u : Bundle) (rs ra : BitVec 6) (imm : BitVec 11) (s : State) : Host.Outcome State Fault Refusal :=
  .next (onDev s (fun d => d.execBundle u ((Syl.st .h rs ra imm).encode false) none))

/-- STW (R292). STW stores a word. -/
def execStw (u : Bundle) (rs ra : BitVec 6) (imm : BitVec 11) (s : State) : Host.Outcome State Fault Refusal :=
  .next (onDev s (fun d => d.execBundle u ((Syl.st .w rs ra imm).encode false) none))

/-- STD (R292). STD stores a doubleword. -/
def execStd (u : Bundle) (rs ra : BitVec 6) (imm : BitVec 11) (s : State) : Host.Outcome State Fault Refusal :=
  .next (onDev s (fun d => d.execBundle u ((Syl.st .d rs ra imm).encode false) none))

/-- LDV (R292). LDV loads a 256-bit vector. -/
def execLdv (u : Bundle) (vd : BitVec 5) (ra : BitVec 6) (imm : BitVec 11) (s : State) : Host.Outcome State Fault Refusal :=
  .next (onDev s (fun d => d.execBundle u ((Syl.ldv vd ra imm).encode false) none))

/-- STV (R292). STV stores a 256-bit vector. -/
def execStv (u : Bundle) (vs : BitVec 5) (ra : BitVec 6) (imm : BitVec 11) (s : State) : Host.Outcome State Fault Refusal :=
  .next (onDev s (fun d => d.execBundle u ((Syl.stv vs ra imm).encode false) none))

/-- LDDX (R292). LDDX loads a doubleword at ra + rb. -/
def execLddx (u : Bundle) (rd ra rb : BitVec 6) (s : State) : Host.Outcome State Fault Refusal :=
  .next (onDev s (fun d => d.execBundle u ((Syl.lddx rd ra rb).encode false) none))

/-- AMOADD (R293). AMOADD atomically adds to memory and returns the old value. -/
def execAmoadd (u : Bundle) (rd ra rb : BitVec 6) (s : State) : Host.Outcome State Fault Refusal :=
  .next (onDev s (fun d => d.execBundle u ((Syl.amoadd rd ra rb).encode false) none))

/-- AMOSWP (R293). AMOSWP atomically swaps memory and returns the old value. -/
def execAmoswp (u : Bundle) (rd ra rb : BitVec 6) (s : State) : Host.Outcome State Fault Refusal :=
  .next (onDev s (fun d => d.execBundle u ((Syl.amoswp rd ra rb).encode false) none))

/-- CAS (R293). CAS atomically compares and swaps memory. -/
def execCas (u : Bundle) (rd ra rb : BitVec 6) (s : State) : Host.Outcome State Fault Refusal :=
  .next (onDev s (fun d => d.execBundle u ((Syl.cas rd ra rb).encode false) none))

/-- XFER (R294). XFER starts a background copy of L bytes on an index. -/
def execXfer (u : Bundle) (rl ra rb : BitVec 6) (k : BitVec 3) (s : State) : Host.Outcome State Fault Refusal :=
  .next (onDev s (fun d => d.execBundle u ((Syl.xfer rl ra rb k).encode false) none))

/-- XFER_DONE (R294). A transfer ends and sets flag 16 + k, with CORE_XFER_ERR on a fault. -/
def execXferDone (core : Fin 272) (index : Fin 8) (fault : Bool) (s : State) : Host.Outcome State Fault Refusal :=
  .next (onDev s (fun d => d.xferDone core.val index.val fault))

/-- IN (R290). IN reads a 32-bit I/O register. -/
def execInp (u : Bundle) (rd ra : BitVec 6) (imm : BitVec 11) (s : State) : Host.Outcome State Fault Refusal :=
  .next (onDev s (fun d => d.execBundle u ((Syl.inp rd ra imm).encode false) none))

/-- OUT (R290). OUT writes a 32-bit I/O register. -/
def execOutp (u : Bundle) (rs ra : BitVec 6) (imm : BitVec 11) (s : State) : Host.Outcome State Fault Refusal :=
  .next (onDev s (fun d => d.execBundle u ((Syl.outp rs ra imm).encode false) none))

/-- LDC (R305). LDC reads instruction space, in supervisor mode only. -/
def execLdc (u : Bundle) (rd ra : BitVec 6) (imm : BitVec 11) (s : State) : Host.Outcome State Fault Refusal :=
  .next (onDev s (fun d => d.execBundle u ((Syl.ldc rd ra imm).encode false) none))

/-- STC (R305). STC writes instruction space, in supervisor mode only. -/
def execStc (u : Bundle) (rs ra : BitVec 6) (imm : BitVec 11) (s : State) : Host.Outcome State Fault Refusal :=
  .next (onDev s (fun d => d.execBundle u ((Syl.stc rs ra imm).encode false) none))

/-- VADD (R292). VADD adds vector elements. -/
def execVadd (u : Bundle) (vd va vb : BitVec 5) (ew : BitVec 2) (s : State) : Host.Outcome State Fault Refusal :=
  .next (onDev s (fun d => d.execBundle u ((Syl.vv .add vd va vb ew).encode false) none))

/-- VSUB (R292). VSUB subtracts vector elements. -/
def execVsub (u : Bundle) (vd va vb : BitVec 5) (ew : BitVec 2) (s : State) : Host.Outcome State Fault Refusal :=
  .next (onDev s (fun d => d.execBundle u ((Syl.vv .sub vd va vb ew).encode false) none))

/-- VADDSU (R292). VADDSU adds with unsigned saturation. -/
def execVaddsu (u : Bundle) (vd va vb : BitVec 5) (ew : BitVec 2) (s : State) : Host.Outcome State Fault Refusal :=
  .next (onDev s (fun d => d.execBundle u ((Syl.vv .addsu vd va vb ew).encode false) none))

/-- VSUBSU (R292). VSUBSU subtracts with unsigned saturation. -/
def execVsubsu (u : Bundle) (vd va vb : BitVec 5) (ew : BitVec 2) (s : State) : Host.Outcome State Fault Refusal :=
  .next (onDev s (fun d => d.execBundle u ((Syl.vv .subsu vd va vb ew).encode false) none))

/-- VMUL (R292). VMUL multiplies vector elements. -/
def execVmul (u : Bundle) (vd va vb : BitVec 5) (ew : BitVec 2) (s : State) : Host.Outcome State Fault Refusal :=
  .next (onDev s (fun d => d.execBundle u ((Syl.vv .mul vd va vb ew).encode false) none))

/-- VMINU (R292). VMINU takes unsigned element minima. -/
def execVminu (u : Bundle) (vd va vb : BitVec 5) (ew : BitVec 2) (s : State) : Host.Outcome State Fault Refusal :=
  .next (onDev s (fun d => d.execBundle u ((Syl.vv .minu vd va vb ew).encode false) none))

/-- VMAXU (R292). VMAXU takes unsigned element maxima. -/
def execVmaxu (u : Bundle) (vd va vb : BitVec 5) (ew : BitVec 2) (s : State) : Host.Outcome State Fault Refusal :=
  .next (onDev s (fun d => d.execBundle u ((Syl.vv .maxu vd va vb ew).encode false) none))

/-- VMIN (R292). VMIN takes signed element minima. -/
def execVmin (u : Bundle) (vd va vb : BitVec 5) (ew : BitVec 2) (s : State) : Host.Outcome State Fault Refusal :=
  .next (onDev s (fun d => d.execBundle u ((Syl.vv .min vd va vb ew).encode false) none))

/-- VMAX (R292). VMAX takes signed element maxima. -/
def execVmax (u : Bundle) (vd va vb : BitVec 5) (ew : BitVec 2) (s : State) : Host.Outcome State Fault Refusal :=
  .next (onDev s (fun d => d.execBundle u ((Syl.vv .max vd va vb ew).encode false) none))

/-- VABSDU (R292). VABSDU takes unsigned absolute differences. -/
def execVabsdu (u : Bundle) (vd va vb : BitVec 5) (ew : BitVec 2) (s : State) : Host.Outcome State Fault Refusal :=
  .next (onDev s (fun d => d.execBundle u ((Syl.vv .absdu vd va vb ew).encode false) none))

/-- VCMPEQ (R292). VCMPEQ sets elements where they are equal. -/
def execVcmpeq (u : Bundle) (vd va vb : BitVec 5) (ew : BitVec 2) (s : State) : Host.Outcome State Fault Refusal :=
  .next (onDev s (fun d => d.execBundle u ((Syl.vv .cmpeq vd va vb ew).encode false) none))

/-- VCMPGTU (R292). VCMPGTU sets elements where unsigned greater. -/
def execVcmpgtu (u : Bundle) (vd va vb : BitVec 5) (ew : BitVec 2) (s : State) : Host.Outcome State Fault Refusal :=
  .next (onDev s (fun d => d.execBundle u ((Syl.vv .cmpgtu vd va vb ew).encode false) none))

/-- VCMPGT (R292). VCMPGT sets elements where signed greater. -/
def execVcmpgt (u : Bundle) (vd va vb : BitVec 5) (ew : BitVec 2) (s : State) : Host.Outcome State Fault Refusal :=
  .next (onDev s (fun d => d.execBundle u ((Syl.vv .cmpgt vd va vb ew).encode false) none))

/-- VAND (R292). VAND ands 256 bits. -/
def execVand (u : Bundle) (vd va vb : BitVec 5) (s : State) : Host.Outcome State Fault Refusal :=
  .next (onDev s (fun d => d.execBundle u ((Syl.vlog .and vd va vb).encode false) none))

/-- VOR (R292). VOR ors 256 bits. -/
def execVor (u : Bundle) (vd va vb : BitVec 5) (s : State) : Host.Outcome State Fault Refusal :=
  .next (onDev s (fun d => d.execBundle u ((Syl.vlog .or vd va vb).encode false) none))

/-- VXOR (R292). VXOR xors 256 bits. -/
def execVxor (u : Bundle) (vd va vb : BitVec 5) (s : State) : Host.Outcome State Fault Refusal :=
  .next (onDev s (fun d => d.execBundle u ((Syl.vlog .xor vd va vb).encode false) none))

/-- VSHLI (R292). VSHLI shifts elements left by an immediate. -/
def execVshli (u : Bundle) (vd va : BitVec 5) (ew : BitVec 2) (imm : BitVec 6) (s : State) : Host.Outcome State Fault Refusal :=
  .next (onDev s (fun d => d.execBundle u ((Syl.vsh .shl vd va ew imm).encode false) none))

/-- VSHRI (R292). VSHRI shifts elements right logically. -/
def execVshri (u : Bundle) (vd va : BitVec 5) (ew : BitVec 2) (imm : BitVec 6) (s : State) : Host.Outcome State Fault Refusal :=
  .next (onDev s (fun d => d.execBundle u ((Syl.vsh .shr vd va ew imm).encode false) none))

/-- VSARI (R292). VSARI shifts elements right arithmetically. -/
def execVsari (u : Bundle) (vd va : BitVec 5) (ew : BitVec 2) (imm : BitVec 6) (s : State) : Host.Outcome State Fault Refusal :=
  .next (onDev s (fun d => d.execBundle u ((Syl.vsh .sar vd va ew imm).encode false) none))

/-- VSEL (R292). VSEL selects bits of two vectors by a mask vector. -/
def execVsel (u : Bundle) (vd va vb vm : BitVec 5) (s : State) : Host.Outcome State Fault Refusal :=
  .next (onDev s (fun d => d.execBundle u ((Syl.vsel vd va vb vm).encode false) none))

/-- VBCST (R292). VBCST broadcasts a general register into every element. -/
def execVbcst (u : Bundle) (v : BitVec 5) (g : BitVec 6) (ew : BitVec 2) (s : State) : Host.Outcome State Fault Refusal :=
  .next (onDev s (fun d => d.execBundle u ((Syl.vbcst v g ew).encode false) none))

/-- VGET (R292). VGET extracts one element into a general register. -/
def execVget (u : Bundle) (g : BitVec 6) (v : BitVec 5) (ew : BitVec 2) (idx : BitVec 5) (s : State) : Host.Outcome State Fault Refusal :=
  .next (onDev s (fun d => d.execBundle u ((Syl.vget g v ew idx).encode false) none))

/-- VRSUM (R292). VRSUM sums all elements into a general register. -/
def execVrsum (u : Bundle) (g : BitVec 6) (v : BitVec 5) (ew : BitVec 2) (s : State) : Host.Outcome State Fault Refusal :=
  .next (onDev s (fun d => d.execBundle u ((Syl.vrsum g v ew).encode false) none))

/-- VUNP (R295). VUNP unpacks 16 packed samples into 16-bit elements. -/
def execVunp (u : Bundle) (vd va : BitVec 5) (msb : BitVec 1) (depth : BitVec 2) (s : State) : Host.Outcome State Fault Refusal :=
  .next (onDev s (fun d => d.execBundle u ((Syl.vunp vd va msb depth).encode false) none))

/-- BUDGET_EXPIRY (R306). A work item's time budget reaches 0 and the Budget interrupt is taken. -/
def execBudgetExpiry (core : Fin 272) (s : State) : Host.Outcome State Fault Refusal :=
  .next (onDev s (fun d => d.budgetExpiry core.val))

/-- HALT (R307). The steward halts a core for an instance reset, an engine reset or retirement. -/
def execHalt (core : Fin 272) (why : HaltReason) (s : State) : Host.Outcome State Fault Refusal :=
  .next (onDev s (fun d => d.halt core.val why))

/-- UNDEFINED_OPCODE (R283). A core executes a bundle whose syllable carries an OP that its slot does not define, such
as all-zero memory, and raises Illegal Instruction. -/
def execUndefinedOpcode (u : Bundle) (word : W32) (s : State) : Host.Outcome State Fault Refusal :=
  .next (onDev s (fun d => if (decodeSyl word).isSome then d else d.execBundle u word none))

end Sys2Proof.Machine
end

