-- ==== Sys2Proof/Machine/RowsEft.lean ====
section
/-! DEFINITION. The meanings of commands: Eft: signals, posts, dispatch and delays. Each is its effect on the device; the queue of waiting commands
is not touched. -/
namespace Sys2Proof.Machine

/-- CANCEL; `race` says that a flag, a post or a dispatch of the same cycle lost to it (R320). -/
def Dev.cancelCmd (d : Dev) (ag : Agent) (t : Nat) (race : Bool) : Dev :=
  let d := d.signalOp ag 2 0 t
  if race && d.taskReach ag t then d.cnt .EFT_CANCEL_RACE else d

/-- A write of EFT_TASK_CFG by an agent (R317). -/
def Dev.taskCfgCmd (d : Dev) (ag : Agent) (t w : Nat) : Dev :=
  if d.taskReach ag t then d.writeTaskCfg (Block.eft.base + 0x100000 + 32 * t) t w else d.refuseSignal ag t

/-- SET (R318). EFT_SIGNAL SET sets a task's event flag. -/
def execSet (ag : Agent) (task : Fin 65536) (flag : Fin 32) (s : State) : Host.Outcome State Fault Refusal :=
  .next (onDev s (fun d => d.signalOp ag 0 flag.val task.val))

/-- CLEAR (R320). EFT_SIGNAL CLEAR clears a task's event flag. -/
def execClear (ag : Agent) (task : Fin 65536) (flag : Fin 32) (withSet : Bool) (s : State) : Host.Outcome State Fault Refusal :=
  .next (onDev s (fun d => d.signalOp ag (if withSet then 0 else 1) flag.val task.val))

/-- CANCEL (R321). EFT_SIGNAL CANCEL clears flags, the activation, the delay and queued posts of a task. -/
def execCancel (ag : Agent) (task : Fin 65536) (race : Bool) (s : State) : Host.Outcome State Fault Refusal :=
  .next (onDev s (fun d => d.cancelCmd ag task.val race))

/-- DELAY_START (R322). EFT_SIGNAL DELAY_START places the task in the delay list with a deadline. -/
def execDelayStart (ag : Agent) (task : Fin 65536) (s : State) : Host.Outcome State Fault Refusal :=
  .next (onDev s (fun d => d.signalOp ag 3 0 task.val))

/-- DELAY_STOP (R320). EFT_SIGNAL DELAY_STOP removes the task's deadline. -/
def execDelayStop (ag : Agent) (task : Fin 65536) (s : State) : Host.Outcome State Fault Refusal :=
  .next (onDev s (fun d => d.signalOp ag 4 0 task.val))

/-- ENABLE (R321). EFT_SIGNAL ENABLE resumes dispatch of a task. -/
def execEnable (ag : Agent) (task : Fin 65536) (s : State) : Host.Outcome State Fault Refusal :=
  .next (onDev s (fun d => d.signalOp ag 5 0 task.val))

/-- DISABLE (R321). EFT_SIGNAL DISABLE stops dispatch of a task, keeping its work. -/
def execDisable (ag : Agent) (task : Fin 65536) (s : State) : Host.Outcome State Fault Refusal :=
  .next (onDev s (fun d => d.signalOp ag 6 0 task.val))

/-- POST (R326). A write of EFT_POST submits a work-item descriptor, accepted into the pool or refused. -/
def execPost (ag : Agent) (addr64 : W32) (s : State) : Host.Outcome State Fault Refusal :=
  .next (onDev s (fun d => d.post ag addr64.toNat))

/-- TASK_PRIORITY_WRITE (R317). A PRIORITY write above the instance's ceiling is rejected with event 0x9031. -/
def execTaskPriorityWrite (ag : Agent) (task : Fin 65536) (value : W32) (s : State) : Host.Outcome State Fault Refusal :=
  .next (onDev s (fun d => d.taskCfgCmd ag task.val value.toNat))

/-- DISPATCH (R327). Eft dispatches a ready task's work item to the lowest-numbered idle core of its group. -/
def execDispatch (s : State) : Host.Outcome State Fault Refusal :=
  .next (onDev s (fun d => d.dispatch))

/-- DELAY_EXPIRY (R323). At a tick boundary, due deadlines set their DFLAG in list order. -/
def execDelayExpiry (s : State) : Host.Outcome State Fault Refusal :=
  .next (onDev s (fun d => d.delayExpiry))

/-- PROGRAM_UNLOAD_DONE (R337). When no work item of an unloaded program runs, its records and memory are freed. -/
def execProgramUnloadDone (inst : Fin 256) (program : W64) (s : State) : Host.Outcome State Fault Refusal :=
  .next (onDev s (fun d => d.programUnloaded inst.val program.toNat))

end Sys2Proof.Machine
end

