-- ==== Sys2Proof/Machine/RowsFabric.lean ====
section
/-! DEFINITION. The meanings of commands: Registers, the fabric, ports, time and references. Each is its effect on the device; the queue of waiting commands
is not touched. -/
namespace Sys2Proof.Machine

/-- REGISTER_WRITE of an agent; an access that R405 refuses a tenant's core changes nothing. -/
def Dev.regWriteCmd (d : Dev) (ag : Agent) (a w : Nat) : Dev :=
  match ag with
  | .core c => if d.ioFault c.val a true then d else ioWrite d ag c.val a w
  | _ => ioWrite d ag 0 a w

/-- A read of one register of a pair, low or high; the answer goes to the agent. -/
def Dev.pairReadCmd (d : Dev) (lo : Bool) (ag : Agent) (a : Nat) : Dev :=
  let core := match ag with | .core c => c.val | _ => 0
  let refused := match ag with | .core c => d.ioFault c.val a false | _ => false
  match Sys2Proof.Machine.resolve core a with
  | .reg _ _ r _ =>
    if !refused && (r.flds.any (fun f => if lo then (pairHi f).isSome else (pairLo f).isSome)) then
      let (w, d) := ioRead d ag core a
      d.send (.word (agNum ag) a w)
    else d
  | _ => d

/-- REGISTER_WRITE (R11). A write to a register field that has no row of its own takes effect according to the field's
access code. -/
def execRegisterWrite (ag : Agent) (addr value : W32) (s : State) : Host.Outcome State Fault Refusal :=
  .next (onDev s (fun d => d.regWriteCmd ag addr.toNat value.toNat))

/-- PAIR_LO_READ (R10). A read of a _LO register returns the low word and latches the high word for the reading agent.
-/
def execPairLoRead (ag : Agent) (addr : W32) (s : State) : Host.Outcome State Fault Refusal :=
  .next (onDev s (fun d => d.pairReadCmd true ag addr.toNat))

/-- PAIR_HI_READ (R10). A read of a _HI register returns the word this agent latched and releases the latch, or the
current high word when no latch is held. -/
def execPairHiRead (ag : Agent) (addr : W32) (s : State) : Host.Outcome State Fault Refusal :=
  .next (onDev s (fun d => d.pairReadCmd false ag addr.toNat))

/-- PARCEL_POISON (R24). A beat arrives with an uncorrectable error; the parcel is poisoned, counted and sent again by
the flume's first stage. -/
def execParcelPoison (flume link : Nat) (op : FlowOp) (s : State) : Host.Outcome State Fault Refusal :=
  .next (onDev s (fun d => d.parcelPoison flume link op))

/-- PARCEL_RESEND_ARRIVE (R24). A repeated parcel arrives and the fault is classified as transient, or as lasting so
that the operation fails. -/
def execParcelResendArrive (flume : Nat) (clean retry : Bool) (s : State) : Host.Outcome State Fault Refusal :=
  .next (onDev s (fun d => d.parcelResend flume clean retry))

/-- FLUME_ROUTE_SWITCH (R26). Once every parcel in flight has left a stopped flume, its route is switched and its
first stage is released. -/
def execFlumeRouteSwitch (flume : Nat) (s : State) : Host.Outcome State Fault Refusal :=
  .next (onDev s (fun d => d.flumeRouteSwitch flume))

/-- PTP_LOCK (R488). The PTP servo first locks and steps the device time counter to TAI, raising event 0x0040. -/
def execPtpLock (port : Fin 128) (tai inc : Nat) (s : State) : Host.Outcome State Fault Refusal :=
  .next (onDev s (fun d => d.ptpLock port.val tai inc))

/-- PTP_LOCK_LOSS (R445). The PTP servo loses lock when its port goes down or rests in low-power idle, clearing
SYS_TIME_STATUS.LOCKED and letting the counter run free. -/
def execPtpLockLoss (s : State) : Host.Outcome State Fault Refusal :=
  .next (onDev s (fun d => d.ptpLost))

/-- PTP_RELOCK (R445). After a loss of lock the servo locks again, sets LOCKED and corrects the counter only through
the increment, without a step. -/
def execPtpRelock (port : Fin 128) (inc : Nat) (s : State) : Host.Outcome State Fault Refusal :=
  .next (onDev s (fun d => d.ptpRelock port.val inc))

/-- LANE_LOCK_LOSS (R37). A lane loses lock, fails readaptation, and its port narrows or goes down. -/
def execLaneLockLoss (port : Fin 128) (lane : Fin 8) (readapts : Bool) (s : State) : Host.Outcome State Fault Refusal :=
  .next (onDev s (fun d => d.laneLockLoss port.val lane.val readapts))

/-- LANE_RETRY (R37). Every 10 s the headgate tries each failed lane again and widens the port when AUTO_WIDEN is set.
-/
def execLaneRetry (port : Fin 128) (adapted : BitVec 8) (s : State) : Host.Outcome State Fault Refusal :=
  .next (onDev s (fun d => d.laneRetry port.val (fun j => adapted.getLsbD j)))

/-- RETRAIN (R37). A write of NET_PORT_CTRL.RETRAIN adapts again every lane of the port that is not adapted. -/
def execRetrain (port : Fin 128) (adapted : BitVec 8) (s : State) : Host.Outcome State Fault Refusal :=
  .next (onDev s (fun d => d.tryLanes port.val (fun j => adapted.getLsbD j)))

/-- WIDEN (R37). A write of NET_PORT_CTRL.WIDEN returns a narrowed port to its configured width when every lane is
adapted. -/
def execWiden (port : Fin 128) (s : State) : Host.Outcome State Fault Refusal :=
  .next (onDev s (fun d => d.portWiden port.val))

/-- REFCLK_LOSS (R466). A lost active reference switches the PLLs to the other one, or both lost enters holdover. -/
def execRefclkLoss (ref : Fin 2) (s : State) : Host.Outcome State Fault Refusal :=
  .next (onDev s (fun d => d.refLoss ref.val))

/-- REFCLK_VALID (R466). A lost reference valid again clears the degraded bit or ends holdover. -/
def execRefclkValid (ref : Fin 2) (s : State) : Host.Outcome State Fault Refusal :=
  .next (onDev s (fun d => d.refValid ref.val))

/-- REFCLK_REVERT (R466). With REVERT set, the PLLs return to the preferred reference after it has been valid for 1 s.
-/
def execRefclkRevert (s : State) : Host.Outcome State Fault Refusal :=
  .next (onDev s (fun d => d.refRevert))

/-- SENSOR_READ (R477). Every 100 µs die sensors are read and the thermal and Gecko levels change. -/
def execSensorRead (temps : List Nat) (found : Found) (flush : Flush) (s : State) : Host.Outcome State Fault Refusal :=
  .next (onDev s (fun d => d.sensorRead temps found flush))

/-- POWER_CAP_CHECK (R458). The 10 ms average package power is compared with CAP_W and level-2 actions taken or
released. -/
def execPowerCapCheck (deciwatts : Nat) (s : State) : Host.Outcome State Fault Refusal :=
  .next (onDev s (fun d => d.powerCapCheck deciwatts))

/-- TAP_INSTRUCTION (R475). An instruction is loaded through the IEEE 1149.1 TAP pins, and acts, or selects BYPASS
outside Maintenance mode for instructions other than the listed ones. -/
def execTapInstruction (code : Nat) (s : State) : Host.Outcome State Fault Refusal :=
  .next (onDev s (fun d => d.tapInstruction code))

/-- PERST (R464). PERST0_N or PERST1_N performs the fundamental reset of its PCIe link. -/
def execPerst (link : Fin 2) (s : State) : Host.Outcome State Fault Refusal :=
  .next (onDev s (fun d => d.perst link.val))

end Sys2Proof.Machine
end

