-- ==== Sys2Proof/Machine/RowsFlash.lean ====
section
/-! DEFINITION. The meanings of commands: Flash, carriers, journal, garbage collection and power failure. Each is its effect on the device; the queue of waiting commands
is not touched. -/
namespace Sys2Proof.Machine

/-- DIE_TIMEOUT (R149). A die with no completion within twice the profile's time has a die fault, is reset and its
operation fails. -/
def execDieTimeout (chan : Fin 32) (die : Fin 32) (op : Fin 3) (target : Nat) (fault : FaultClass) (s : State) : Host.Outcome State Fault Refusal :=
  .next (onDev s (fun d => d.dieTimeout chan.val die.val op.val target fault))

/-- FLASH_READ_DONE (R166). A codeword read returns and is decoded through the ladder, retried, or reconstructed from
stripe parity. -/
def execFlashReadDone (stripe pos cw : Nat) (erased : Bool) (first second : Ladder) (others : Bool) (s : State) : Host.Outcome State Fault Refusal :=
  .next (onDev s (fun d => d.flashReadDone stripe pos cw erased first second others))

/-- SUSPEND_TIMEOUT (R163). A die not suspended within tSUSP_MAX_US has the suspend abandoned, counted and event
0x4050 raised. -/
def execSuspendTimeout (chan : Fin 32) (die : Fin 32) (s : State) : Host.Outcome State Fault Refusal :=
  .next (onDev s (fun d => d.suspendTimeout chan.val die.val))

/-- PROGRAM_DONE (R156). A unit reports program status; when every member succeeds the stripe is programmed and
reported. -/
def execProgramDone (stripe : Nat) (carrier : Fin 16) (ok : Bool) (ns : Nat) (s : State) : Host.Outcome State Fault Refusal :=
  .next (onDev s (fun d => d.programDone stripe carrier.val ok ns))

/-- ERASE_DONE (R176). An erase completes, or fails and is repeated or the block retired. -/
def execEraseDone (superblock : Nat) (faults : List (Nat × FaultClass)) (s : State) : Host.Outcome State Fault Refusal :=
  .next (onDev s (fun d => d.eraseDone superblock faults))

/-- READ_LEVEL_SAVE (R175). Every 10 minutes the read-level table is saved to flash. -/
def execReadLevelSave (s : State) : Host.Outcome State Fault Refusal :=
  .next (onDev s (fun d => d.saveLevels false))

/-- TRAIN_PERIOD (R177). Every PERIOD_S a channel's periodic training starts, unless deferred. -/
def execTrainPeriod (chan : Fin 32) (s : State) : Host.Outcome State Fault Refusal :=
  .next (onDev s (fun d => d.trainPeriod chan.val))

/-- FLASH_TEMPERATURE_DRIFT (R177). When a channel's flash die temperature has moved by more than DELTA_C since its
last training, the channel trains. -/
def execFlashTemperatureDrift (chan : Fin 32) (temp : Nat) (s : State) : Host.Outcome State Fault Refusal :=
  .next (onDev s (fun d => d.tempDrift chan.val temp))

/-- CH_RETRAIN (R177). A write of FLS_CH_CTRL.RETRAIN requests training of the channel. -/
def execChRetrain (chan : Fin 32) (s : State) : Host.Outcome State Fault Refusal :=
  .next (onDev s (fun d => d.requestTraining chan.val false))

/-- TRAINING_DONE (R178). Channel training ends; on a second failure the channel is retired. -/
def execTrainingDone (chan : Fin 32) (ok : Bool) (temp : Nat) (s : State) : Host.Outcome State Fault Refusal :=
  .next (onDev s (fun d => (d.trainingDone chan.val ok temp).settle))

/-- CH_ENG_RESET (R179). A write of FLS_CH_CTRL.ENG_RESET resets every die of the channel and repeats its reads and
stripes. -/
def execChEngReset (chan : Fin 32) (s : State) : Host.Outcome State Fault Refusal :=
  .next (onDev s (fun d => d.channelReset chan.val))

/-- CPRES_CHANGE (R180). A debounced change of CPRES_k moves the carrier between ABSENT, POWERING, FAILED or OFF
states. -/
def execCpresChange (carrier : Fin 16) (high : Bool) (s : State) : Host.Outcome State Fault Refusal :=
  .next (onDev s (fun d => (d.cpresChange carrier.val high).settle))

/-- CARRIER_POWERED (R180). 50 ms after power-up the carrier supply has settled and it enters TRAINING. -/
def execCarrierPowered (carrier : Fin 16) (s : State) : Host.Outcome State Fault Refusal :=
  .next (onDev s (fun d => (d.carrierPowered carrier.val).settle))

/-- CARRIER_TRAINING_DONE (R182). After training, the carrier record decides between format, ONLINE or HELD. -/
def execCarrierTrainingDone (carrier : Fin 16) (ok0 ok1 : Bool) (record : Option CarrierRec) (dies : List (Nat × Nat
    × DieInfo)) (s : State) : Host.Outcome State Fault Refusal :=
  .next (onDev s (fun d => (d.carrierTrained carrier.val ok0 ok1 record dies).settle))

/-- FORMAT_DONE (R182). Carrier format finishes and the carrier enters REBUILDING. -/
def execFormatDone (carrier : Fin 16) (cols : List (Nat × Nat × Nat × Nat × Nat)) (s : State) : Host.Outcome State Fault Refusal :=
  .next (onDev s (fun d => (d.formatDone carrier.val cols).settle))

/-- REBUILD_DONE (R184). The last unit is rebuilt and the carrier enters ONLINE. -/
def execRebuildDone (carrier : Fin 16) (s : State) : Host.Outcome State Fault Refusal :=
  .next (onDev s (fun d => (d.rebuildDone carrier.val).settle))

/-- QUIESCE_DONE (R181). A quiescing carrier's operations end, CPWR_k is driven low and the carrier enters OFF. -/
def execQuiesceDone (carrier : Fin 16) (s : State) : Host.Outcome State Fault Refusal :=
  .next (onDev s (fun d => (d.quiesceDone carrier.val).settle))

/-- PREPARE_REMOVAL (R181). CMD 1 closes the carrier's superblocks and starts QUIESCING, unless another carrier is not
ONLINE. -/
def execPrepareRemoval (carrier : Fin 16) (s : State) : Host.Outcome State Fault Refusal :=
  .next (onDev s (fun d => (d.prepareRemoval carrier.val false).settle))

/-- CANCEL_REMOVAL (R181). CMD 2 returns a QUIESCING or OFF carrier to ONLINE after power-up and training. -/
def execCancelRemoval (carrier : Fin 16) (s : State) : Host.Outcome State Fault Refusal :=
  .next (onDev s (fun d => (d.cancelRemoval carrier.val).settle))

/-- FORMAT_HELD_CARRIER (R182). CMD 3 formats a HELD carrier and starts its rebuild. -/
def execFormatHeldCarrier (carrier : Fin 16) (cols : List (Nat × Nat × Nat × Nat × Nat)) (s : State) : Host.Outcome State Fault Refusal :=
  .next (onDev s (fun d => (d.formatHeld carrier.val cols).settle))

/-- POWER_ON_CARRIER (R180). CMD 4 powers an OFF carrier on. -/
def execPowerOnCarrier (carrier : Fin 16) (s : State) : Host.Outcome State Fault Refusal :=
  .next (onDev s (fun d => (d.powerOnCarrier carrier.val).settle))

/-- PREPARE_REMOVAL_FORCED (R181). CMD 5 prepares a carrier for removal regardless of other carriers. -/
def execPrepareRemovalForced (carrier : Fin 16) (s : State) : Host.Outcome State Fault Refusal :=
  .next (onDev s (fun d => (d.prepareRemoval carrier.val true).settle))

/-- MIRROR_DONE (R32). A host write is held in both buffer copies and is acknowledged with its CSEQ. -/
def execMirrorDone (cmd : Nat) (s : State) : Host.Outcome State Fault Refusal :=
  .next (onDev s (fun d => d.mirrorDone cmd))

/-- JOURNAL_PAGE_TIMER (R200). 100 µs after its first record, a journal page is programmed even if not full. -/
def execJournalPageTimer (s : State) : Host.Outcome State Fault Refusal :=
  .next (onDev s (fun d => d.pageTimer))

/-- JOURNAL_PAGE_WRITTEN (R201). Both copies of a journal page report program success and its records count as
written, in CSEQ order. -/
def execJournalPageWritten (okA okB : Bool) (s : State) : Host.Outcome State Fault Refusal :=
  .next (onDev s (fun d => (d.pageWritten okA okB).background))

/-- CHECKPOINT (R205). Every INTERVAL_S, or after JOURNAL_MIB of journal, dirty map pages and the superblock table are
written with a CHECKPOINT record. -/
def execCheckpoint (s : State) : Host.Outcome State Fault Refusal :=
  .next (onDev s (fun d => d.checkpointDue))

/-- GC_PASS (R218). Garbage collection picks a victim superblock, relocates its valid blocks and erases it. -/
def execGcPass (s : State) : Host.Outcome State Fault Refusal :=
  .next (onDev s (fun d => d.gcPass))

/-- FLASH_PATROL_SCRUB (R221). Patrol scrub reads every valid codeword each SCRUB_PERIOD_H and queues weak superblocks
for relocation. -/
def execFlashPatrolScrub (stripe : Nat) (weak : Bool) (cols : List (Nat × Nat × Nat × Nat × Nat)) (s : State) : Host.Outcome State Fault Refusal :=
  .next (onDev s (fun d => d.patrolScrub stripe weak cols))

/-- PROGRAM_TIME_WINDOW_EXPIRY (R197). The greatest page-set program time leaves the 10-minute window, so tP falls and
the dirty limit is recomputed with event 0x5031. -/
def execProgramTimeWindowExpiry (s : State) : Host.Outcome State Fault Refusal :=
  .next (onDev s (fun d => d.progWindow))

/-- POWER_FAIL_ASSERT (R208). The power-fail input asserts and the device enters Hold-up and flushes the protected
write buffer. -/
def execPowerFailAssert (flush : Flush) (s : State) : Host.Outcome State Fault Refusal :=
  .next (onDev s (fun d => d.powerFailAssert flush))

/-- POWER_FAIL_DEASSERT (R211). The power-fail input deasserts and the device leaves Hold-up through a cold reset
after the flush. -/
def execPowerFailDeassert (found : Found) (s : State) : Host.Outcome State Fault Refusal :=
  .next (onDev s (fun d => d.powerFailDeassert found))

/-- RAIL_UNDERVOLT (R461). A monitored rail falls below its minimum without power-fail and the device enters Hold-up.
-/
def execRailUndervolt (rail : Nat) (flush : Flush) (s : State) : Host.Outcome State Fault Refusal :=
  .next (onDev s (fun d => d.railUndervolt rail flush))

end Sys2Proof.Machine
end

