-- ==== Sys2Proof/Machine/RowsGecko.lean ====
section
/-! DEFINITION. The meanings of commands: The Gecko search array. Each is its effect on the device; the queue of waiting commands
is not touched. -/
namespace Sys2Proof.Machine

/-- GECKO_SEARCH (R259). SRCH_CMD SEARCH compares the key with a partition and returns the lowest matching position.
-/
def execGeckoSearch (ag : Agent) (ctx : Fin 276) (part : Fin 64) (fault : FaultClass) (s : State) : Host.Outcome State Fault Refusal :=
  .next (onDev s (fun d => d.search ag ctx.val part.val fault))

/-- GECKO_NEXT (R273). SRCH_CMD NEXT returns the next matching position above the last one of the handle. -/
def execGeckoNext (ag : Agent) (ctx : Fin 276) (s : State) : Host.Outcome State Fault Refusal :=
  .next (onDev s (fun d => d.searchNext ag ctx.val))

/-- GECKO_END (R273). SRCH_CMD END closes the context's handle. -/
def execGeckoEnd (ag : Agent) (ctx : Fin 276) (s : State) : Host.Outcome State Fault Refusal :=
  .next (onDev s (fun d => d.searchEnd ag ctx.val))

/-- GECKO_INVALIDATE (R268). UPD_CMD INVALIDATE clears VALID at a position. -/
def execGeckoInvalidate (ag : Agent) (ctx : Fin 276) (part : Fin 64) (pos : BitVec 20) (s : State) : Host.Outcome State Fault Refusal :=
  .next (onDev s (fun d => d.update ag ctx.val 0 part.val pos.toNat))

/-- GECKO_WRITE (R268). UPD_CMD WRITE writes an entry at an invalid position. -/
def execGeckoWrite (ag : Agent) (ctx : Fin 276) (part : Fin 64) (pos : BitVec 20) (s : State) : Host.Outcome State Fault Refusal :=
  .next (onDev s (fun d => d.update ag ctx.val 1 part.val pos.toNat))

/-- GECKO_VALIDATE (R268). UPD_CMD VALIDATE sets VALID at a position. -/
def execGeckoValidate (ag : Agent) (ctx : Fin 276) (part : Fin 64) (pos : BitVec 20) (s : State) : Host.Outcome State Fault Refusal :=
  .next (onDev s (fun d => d.update ag ctx.val 2 part.val pos.toNat))

/-- GECKO_INSERT (R271). UPD_CMD INSERT places an entry before a position by block moves. -/
def execGeckoInsert (ag : Agent) (ctx : Fin 276) (part : Fin 64) (pos : BitVec 20) (s : State) : Host.Outcome State Fault Refusal :=
  .next (onDev s (fun d => d.update ag ctx.val 3 part.val pos.toNat))

/-- GECKO_READ (R268). UPD_CMD READ loads an entry into the context's buffer. -/
def execGeckoRead (ag : Agent) (ctx : Fin 276) (part : Fin 64) (pos : BitVec 20) (s : State) : Host.Outcome State Fault Refusal :=
  .next (onDev s (fun d => d.update ag ctx.val 4 part.val pos.toNat))

/-- GECKO_REPLACE (R268). UPD_CMD REPLACE invalidates, writes and validates a position in consecutive slots. -/
def execGeckoReplace (ag : Agent) (ctx : Fin 276) (part : Fin 64) (pos : BitVec 20) (s : State) : Host.Outcome State Fault Refusal :=
  .next (onDev s (fun d => d.update ag ctx.val 5 part.val pos.toNat))

/-- STEP_HANDLE_EXPIRY (R274). A handle without a step within STEP_TIMEOUT_US expires. -/
def execStepHandleExpiry (ctx : Fin 276) (s : State) : Host.Outcome State Fault Refusal :=
  .next (onDev s (fun d => d.expireHandle ctx.val))

/-- PARTITION_MOVE_DONE (R275). A partition move to a new FIRST ends and event 0x7060 is raised. -/
def execPartitionMoveDone (part : Fin 64) (s : State) : Host.Outcome State Fault Refusal :=
  .next (onDev s (fun d => d.partMoveDone part.val))

/-- PARITY_SCAN (R278). A background pass checks every entry's parity each 100 ms and remaps lasting faults. -/
def execParityScan (found : List (Nat × FaultClass)) (s : State) : Host.Outcome State Fault Refusal :=
  .next (onDev s (fun d => d.parityScan found))

end Sys2Proof.Machine
end

