-- ==== Sys2Proof/Machine/RowsHost.lean ====
section
/-! DEFINITION. The meanings of commands: Host transports, queues and commands. Each is its effect on the device; the queue of waiting commands
is not touched. -/
namespace Sys2Proof.Machine

/-- ICREQ (R226). An ICReq sets up an NVMe/TCP connection, or is answered with a termination. -/
def execIcreq (conn pfv hpda : Nat) (hdgst ddgst : Bool) (maxr2t : Nat) (reserved : Bool) (s : State) : Host.Outcome State Fault Refusal :=
  .next (onDev s (fun d => d.icReq conn pfv hpda hdgst ddgst maxr2t reserved))

/-- TCP_SYN (R228). A TCP SYN opens a connection, or is answered with a reset when 65,536 exist. -/
def execTcpSyn (port : Fin 128) (peer : NetAddr) (dport : BitVec 16) (s : State) : Host.Outcome State Fault Refusal :=
  .next (onDev s (fun d => d.tcpSyn port.val peer dport.toNat))

/-- COMMAND_CAPSULE (R241). A command capsule with its in-capsule data is wholly received and the command arrives. -/
def execCommandCapsule (conn : Nat) (sqe data : List Byte) (pdu : Pdu) (s : State) : Host.Outcome State Fault Refusal :=
  .next (onDev s (fun d => d.capsule conn sqe data pdu))

/-- H2C_DATA (R227). An H2CData PDU carries write data, or fails its digest and the command completes with a transport
error. -/
def execH2cData (cmd off : Nat) (bytes : List Byte) (pdu : Pdu) (s : State) : Host.Outcome State Fault Refusal :=
  .next (onDev s (fun d => d.h2cData cmd off bytes pdu))

/-- SQE_FETCH_DONE (R241). The fetch of a PCIe submission queue entry completes and the command arrives. -/
def execSqeFetchDone (queue : Nat) (sqe : List Byte) (s : State) : Host.Outcome State Fault Refusal :=
  .next (onDev s (fun d => d.sqeFetched queue sqe))

/-- PCIE_DATA_FETCH_DONE (R246). The device's PCIe read of a write's data into reserved slots completes, or ends with
an error completion so that the command fails with Data Transfer Error. -/
def execPcieDataFetchDone (cmd : Nat) (bytes : Option (List Byte)) (s : State) : Host.Outcome State Fault Refusal :=
  .next (onDev s (fun d => d.pcieFetched cmd bytes))

/-- COMMAND_ADMIT (R242). Arbitration admits a waiting command into the hazard tracker, or refuses it at quota or a
full tracker. -/
def execCommandAdmit (s : State) : Host.Outcome State Fault Refusal :=
  .next (onDev s (fun d => d.admitCmd))

/-- SLOT_RESERVE (R246). Buffer slots for an admitted write become available and R2T or data intake proceeds. -/
def execSlotReserve (cmd : Nat) (s : State) : Host.Outcome State Fault Refusal :=
  .next (onDev s (fun d => d.slotReserve cmd))

/-- COMMAND_RELEASE (R248). The tracker releases a command once every overlapping command ordered before it has taken
effect. -/
def execCommandRelease (cmd : Nat) (s : State) : Host.Outcome State Fault Refusal :=
  .next (onDev s (fun d => d.releaseCmd cmd))

/-- KEEP_ALIVE_TIMEOUT (R229). No admin command within KATO ends the controller's association. -/
def execKeepAliveTimeout (ctrl : Nat) (s : State) : Host.Outcome State Fault Refusal :=
  .next (onDev s (fun d => d.keepAliveTimeout ctrl))

/-- CONNECTION_LOSS (R255). Loss of a TCP connection discards the unreleased commands of its queue or association. -/
def execConnectionLoss (conn : Nat) (s : State) : Host.Outcome State Fault Refusal :=
  .next (onDev s (fun d => d.loseConn conn false))

/-- CONTROLLER_RESET (R255). Clearing CC.EN discards unreleased commands, runs released ones silently and clears
CSTS.RDY. -/
def execControllerReset (ctrl : Nat) (s : State) : Host.Outcome State Fault Refusal :=
  .next (onDev s (fun d => d.resetController ctrl))

/-- CONTROLLER_ENABLE (R231). The host sets CC.EN over PCIe BAR0 and CSTS.RDY becomes 1 within the CAP.TO time. -/
def execControllerEnable (pf : Fin 64) (cc : BitVec 32) (s : State) : Host.Outcome State Fault Refusal :=
  .next (onDev s (fun d => d.enableController pf.val cc.toNat))

/-- NORMAL_SHUTDOWN (R255). Setting CC.SHN completes the queues and reports shutdown complete. -/
def execNormalShutdown (ctrl : Nat) (s : State) : Host.Outcome State Fault Refusal :=
  .next (onDev s (fun d => d.normalShutdown ctrl))

/-- ADMISSION_HOLD_TIMEOUT (R256). Admission closed for 50 ms in a firmware activation abandons the activation and
reopens admission. -/
def execAdmissionHoldTimeout (s : State) : Host.Outcome State Fault Refusal :=
  .next (onDev s (fun d => d.holdTimeout))

/-- DELETE_IO_SQ (R255). Delete I/O Submission Queue removes a PCIe submission queue. -/
def execDeleteIoSq (cmd : Nat) (s : State) : Host.Outcome State Fault Refusal :=
  .next (onDev s (fun d => d.deleteSq cmd))

/-- CREATE_IO_SQ (R243). Create I/O Submission Queue creates a PCIe queue with its QPRIO class. -/
def execCreateIoSq (cmd : Nat) (s : State) : Host.Outcome State Fault Refusal :=
  .next (onDev s (fun d => d.createSq cmd))

/-- DELETE_IO_CQ (R231). Delete I/O Completion Queue removes a PCIe completion queue. -/
def execDeleteIoCq (cmd : Nat) (s : State) : Host.Outcome State Fault Refusal :=
  .next (onDev s (fun d => d.deleteCq cmd))

/-- CREATE_IO_CQ (R231). Create I/O Completion Queue creates a PCIe completion queue. -/
def execCreateIoCq (cmd : Nat) (s : State) : Host.Outcome State Fault Refusal :=
  .next (onDev s (fun d => d.createCq cmd))

/-- GET_LOG_PAGE (R237). Get Log Page returns a supported log page. -/
def execGetLogPage (cmd : Nat) (s : State) : Host.Outcome State Fault Refusal :=
  .next (onDev s (fun d => d.getLogPage cmd))

/-- IDENTIFY (R236). Identify returns controller or namespace data. -/
def execIdentify (cmd : Nat) (s : State) : Host.Outcome State Fault Refusal :=
  .next (onDev s (fun d => d.identify cmd))

/-- ABORT (R251). Abort removes a named command that is not yet released. -/
def execAbort (cmd : Nat) (s : State) : Host.Outcome State Fault Refusal :=
  .next (onDev s (fun d => d.abort cmd))

/-- SET_FEATURES (R243). Set Features sets arbitration, queues, async event configuration, keep-alive, or a queue's
priority class. -/
def execSetFeatures (cmd : Nat) (s : State) : Host.Outcome State Fault Refusal :=
  .next (onDev s (fun d => d.setFeatures cmd))

/-- GET_FEATURES (R237). Get Features returns a supported feature. -/
def execGetFeatures (cmd : Nat) (s : State) : Host.Outcome State Fault Refusal :=
  .next (onDev s (fun d => d.getFeatures cmd))

/-- ASYNC_EVENT_REQUEST (R398). Asynchronous Event Request waits for a notice such as an outbound mailbox message. -/
def execAsyncEventRequest (cmd : Nat) (s : State) : Host.Outcome State Fault Refusal :=
  .next (onDev s (fun d => d.asyncRequest cmd))

/-- KEEP_ALIVE (R229). Keep Alive restarts the controller's keep-alive timer. -/
def execKeepAlive (cmd : Nat) (s : State) : Host.Outcome State Fault Refusal :=
  .next (onDev s (fun d => d.keepAlive cmd))

/-- PROPERTY_GET (R225). Fabrics Property Get reads a controller property. -/
def execPropertyGet (cmd : Nat) (s : State) : Host.Outcome State Fault Refusal :=
  .next (onDev s (fun d => d.propertyGet cmd))

/-- PROPERTY_SET (R225). Fabrics Property Set writes a controller property. -/
def execPropertySet (cmd : Nat) (s : State) : Host.Outcome State Fault Refusal :=
  .next (onDev s (fun d => d.propertySet cmd))

/-- CONNECT (R228). Fabrics Connect moves a connection to the instance named by its NQN, or is refused. -/
def execConnect (conn : Nat) (sqe data : List Byte) (s : State) : Host.Outcome State Fault Refusal :=
  .next (onDev s (fun d => d.connect conn sqe data))

/-- MAILBOX_SEND (R397). Mailbox Send enqueues a message in the instance's inbound mailbox. -/
def execMailboxSend (cmd : Nat) (s : State) : Host.Outcome State Fault Refusal :=
  .next (onDev s (fun d => d.mailboxSend cmd))

/-- MAILBOX_RECEIVE (R398). Mailbox Receive removes and returns the oldest outbound message. -/
def execMailboxReceive (cmd : Nat) (s : State) : Host.Outcome State Fault Refusal :=
  .next (onDev s (fun d => d.mailboxReceive cmd))

/-- INSTANCE_TELEMETRY (R401). Instance Telemetry returns the instance's telemetry page. -/
def execInstanceTelemetry (cmd : Nat) (s : State) : Host.Outcome State Fault Refusal :=
  .next (onDev s (fun d => d.instanceTelemetry cmd))

/-- FLUSH (R250). Flush completes once earlier completed writes and deallocates of its namespace are durable. -/
def execFlush (cmd : Nat) (s : State) : Host.Outcome State Fault Refusal :=
  .next (onDev s (fun d => d.flush cmd))

/-- WRITE (R246). Write takes buffer slots, receives its data and is acknowledged when mirrored. -/
def execWrite (cmd : Nat) (s : State) : Host.Outcome State Fault Refusal :=
  .next (onDev s (fun d => d.write cmd))

/-- READ (R249). Read resolves each granule to a buffer slot, a ring or flash and returns the data. -/
def execRead (cmd : Nat) (s : State) : Host.Outcome State Fault Refusal :=
  .next (onDev s (fun d => d.read cmd))

/-- COMPARE (R237). Compare reads data and reports a miscompare. -/
def execCompare (cmd : Nat) (s : State) : Host.Outcome State Fault Refusal :=
  .next (onDev s (fun d => d.compare cmd))

/-- WRITE_ZEROES (R192). Write Zeroes acts as a Deallocate of its range. -/
def execWriteZeroes (cmd : Nat) (s : State) : Host.Outcome State Fault Refusal :=
  .next (onDev s (fun d => d.writeZeroes cmd))

/-- DATASET_MANAGEMENT (R192). Dataset Management deallocates its ranges. -/
def execDatasetManagement (cmd : Nat) (s : State) : Host.Outcome State Fault Refusal :=
  .next (onDev s (fun d => d.datasetManagement cmd))

/-- VERIFY (R374). Verify reads, decodes, decompresses and checks guards without transferring data. -/
def execVerify (cmd : Nat) (s : State) : Host.Outcome State Fault Refusal :=
  .next (onDev s (fun d => d.verify cmd))

/-- RESERVATION_REGISTER (R237). Reservation Register registers a reservation key. -/
def execReservationRegister (cmd : Nat) (s : State) : Host.Outcome State Fault Refusal :=
  .next (onDev s (fun d => d.resvRegister cmd))

/-- RESERVATION_REPORT (R237). Reservation Report returns the reservation status. -/
def execReservationReport (cmd : Nat) (s : State) : Host.Outcome State Fault Refusal :=
  .next (onDev s (fun d => d.resvReport cmd))

/-- RESERVATION_ACQUIRE (R237). Reservation Acquire takes a Write Exclusive reservation. -/
def execReservationAcquire (cmd : Nat) (s : State) : Host.Outcome State Fault Refusal :=
  .next (onDev s (fun d => d.resvAcquire cmd))

/-- RESERVATION_RELEASE (R237). Reservation Release releases a reservation. -/
def execReservationRelease (cmd : Nat) (s : State) : Host.Outcome State Fault Refusal :=
  .next (onDev s (fun d => d.resvRelease cmd))

/-- RETRIEVE (R238). Retrieve returns a frame's value from a frame-view namespace. -/
def execRetrieve (cmd : Nat) (s : State) : Host.Outcome State Fault Refusal :=
  .next (onDev s (fun d => d.retrieve cmd))

/-- EXIST (R238). Exist reports whether a frame key exists. -/
def execExist (cmd : Nat) (s : State) : Host.Outcome State Fault Refusal :=
  .next (onDev s (fun d => d.exist cmd))

/-- LIST (R238). List returns keys in ascending order from a given key. -/
def execList (cmd : Nat) (s : State) : Host.Outcome State Fault Refusal :=
  .next (onDev s (fun d => d.list cmd))

/-- STORE (R238). Store on a frame view completes with Namespace is Write Protected. -/
def execStore (cmd : Nat) (s : State) : Host.Outcome State Fault Refusal :=
  .next (onDev s (fun d => d.viewWrite cmd 0x01))

/-- DELETE (R238). Delete on a frame view completes with Namespace is Write Protected. -/
def execDelete (cmd : Nat) (s : State) : Host.Outcome State Fault Refusal :=
  .next (onDev s (fun d => d.viewWrite cmd 0x10))

/-- UNSUPPORTED_OPCODE (R239). A command with an unlisted opcode completes with Invalid Command Opcode. -/
def execUnsupportedOpcode (cmd : Nat) (s : State) : Host.Outcome State Fault Refusal :=
  .next (onDev s (fun d => d.unsupported cmd))

end Sys2Proof.Machine
end

