-- ==== Sys2Proof/Machine/RowsInstance.lean ====
section
/-! DEFINITION. The meanings of commands: Instances, shares and mailboxes. Each is its effect on the device; the queue of waiting commands
is not touched. -/
namespace Sys2Proof.Machine

/-- PUSH with a length; a length above 1,008 is out of range (R13, R399). -/
def Dev.mbxPushCmd (d : Dev) (n len type : Nat) : Dev :=
  if 1008 < len then d.raise 0x0022 [(4, Block.ins.base + n * 0x1000 + 0x84)] else d.mbxPush n len type

/-- INSTANCE_RESET (R402). A write of INS_CTRL.RESET runs the instance reset sequence, fencing the instance's started
work. -/
def execInstanceReset (inst : Fin 256) (s : State) : Host.Outcome State Fault Refusal :=
  .next (onDev s (fun d => d.instanceReset inst.val))

/-- SHARE_WRITE (R391). A write of an instance share or quota is checked and applied at the next epoch, or rejected.
-/
def execShareWrite (inst : Fin 256) (off : BitVec 12) (value : W32) (s : State) : Host.Outcome State Fault Refusal :=
  .next (onDev s (fun d => d.shareWrite inst.val off.toNat value.toNat))

/-- EPOCH_BOUNDARY (R387). At each 10 µs epoch, arbiters give each instance its credit. -/
def execEpochBoundary (s : State) : Host.Outcome State Fault Refusal :=
  .next (onDev s (fun d => d.epochBoundary))

/-- MBX_POP (R399). INS_MBX_CTRL.POP removes the oldest inbound message. -/
def execMbxPop (inst : Fin 256) (s : State) : Host.Outcome State Fault Refusal :=
  .next (onDev s (fun d => d.mbxPop inst.val))

/-- MBX_PUSH (R399). INS_MBX_CTRL.PUSH enqueues INS_MBX_OUT as an outbound message. -/
def execMbxPush (inst : Fin 256) (len : Nat) (type : BitVec 16) (s : State) : Host.Outcome State Fault Refusal :=
  .next (onDev s (fun d => d.mbxPushCmd inst.val len type.toNat))

/-- EVENT_SECOND_END (R487). At the end of a second, counted events such as 0xB001 and 0xC201 are raised with the
second's count. -/
def execEventSecondEnd (s : State) : Host.Outcome State Fault Refusal :=
  .next (onDev s (fun d => d.secondEnd))

end Sys2Proof.Machine
end

