-- ==== Sys2Proof/Machine/RowsMemory.lean ====
section
/-! DEFINITION. The meanings of commands: Stacked memory and the check units. Each is its effect on the device; the queue of waiting commands
is not touched. -/
namespace Sys2Proof.Machine

/-- MEM_REQUEST (R340). A memory request passes the protection stage and is served by its bank in rank order. -/
def execMemRequest (levels : List (Nat × Nat)) (requests : List MemReq) (readable : Bool) (s : State) : Host.Outcome State Fault Refusal :=
  .next (onDev s (fun d => d.memRequests levels requests readable))

/-- REFRESH_DUE (R347). A per-bank refresh falls due and is issued or owed against the bank's credits. -/
def execRefreshDue (pc : Fin 256) (bank : Fin 64) (kept : Bool) (issued : Nat) (s : State) : Host.Outcome State Fault Refusal :=
  .next (onDev s (fun d => d.refreshDue pc.val bank.val kept issued))

/-- ACT_TABLE_CLEAR (R348). Every tREFW / 8 the activate-count tables and SP clear. -/
def execActTableClear (stack : Fin 4) (s : State) : Host.Outcome State Fault Refusal :=
  .next (onDev s (fun d => d.actTableClear stack.val))

/-- STACK_TEMP_READ (R346). Every 100 µs a stack's temperature report is read and HOT set or cleared. -/
def execStackTempRead (stack : Fin 4) (temp : Nat) (s : State) : Host.Outcome State Fault Refusal :=
  .next (onDev s (fun d => d.stackTemp stack.val temp))

/-- MEM_PATROL_SCRUB (R354). Patrol scrub reads a line and writes a corrected line back when no write intervened. -/
def execMemPatrolScrub (line : Nat) (found : ScrubRead) (written readable : Bool) (s : State) : Host.Outcome State Fault Refusal :=
  .next (onDev s (fun d => d.memScrub line found written readable))

/-- TRACKING_STEP (R357). Every 10 µs a channel checks its data eye and may start full retraining. -/
def execTrackingStep (chan : Fin 128) (margin : Nat) (s : State) : Host.Outcome State Fault Refusal :=
  .next (onDev s (fun d => d.trackingStep chan.val margin))

/-- RETRAIN_STEP (R357). A step of full memory retraining runs when due, waiting for a panic to clear. -/
def execRetrainStep (chan : Fin 128) (s : State) : Host.Outcome State Fault Refusal :=
  .next (onDev s (fun d => d.retrainStep chan.val))

/-- RETRAIN_END (R358). Full retraining ends, or fails twice and the channel is retired. -/
def execRetrainEnd (chan : Fin 128) (margin : Option Nat) (readable : Bool) (s : State) : Host.Outcome State Fault Refusal :=
  .next (onDev s (fun d => d.retrainEnd chan.val margin readable))

/-- MIGRATION_STEP (R360). A 4 KiB migration step copies a block toward its relief block, completing migration at the
last. -/
def execMigrationStep (chan : Fin 128) (failed : List Nat) (s : State) : Host.Outcome State Fault Refusal :=
  .next (onDev s (fun d => d.migrationStep chan.val failed))

/-- MEM_CONTROLLER_ENGINE_RESET (R441). The steward engine-resets a stacked-memory channel controller, holding the
channel in self-refresh for at most 20 µs and repeating reads in flight. -/
def execMemControllerEngineReset (chan : Fin 128) (s : State) : Host.Outcome State Fault Refusal :=
  .next (onDev s (fun d => d.memChannelReset chan.val))

/-- CTX_INIT (R380). Check context INIT sets the running value to the initial value. -/
def execCtxInit (ag : Agent) (ctx : Fin 1024) (notify : Bool) (flag : Fin 32) (task : Fin 65536) (s : State) : Host.Outcome State Fault Refusal :=
  .next (onDev s (fun d => d.ctxGo ag ctx.val (fun d => d.ctxInit ctx.val notify flag.val task.val)))

/-- CTX_FEED (R380). Check context FEED starts feeding LEN bytes from SRC into the running value. -/
def execCtxFeed (ag : Agent) (ctx : Fin 1024) (notify : Bool) (flag : Fin 32) (task : Fin 65536) (s : State) : Host.Outcome State Fault Refusal :=
  .next (onDev s (fun d => d.ctxGo ag ctx.val (fun d => d.ctxFeed ctx.val notify flag.val task.val)))

/-- CTX_SET (R380). Check context SET loads the running value from VAL. -/
def execCtxSet (ag : Agent) (ctx : Fin 1024) (notify : Bool) (flag : Fin 32) (task : Fin 65536) (s : State) : Host.Outcome State Fault Refusal :=
  .next (onDev s (fun d => d.ctxGo ag ctx.val (fun d => d.ctxSet ctx.val notify flag.val task.val)))

/-- FEED_DONE (R381). A FEED ends, returning the context to IDLE or FAULT and notifying Eft. -/
def execFeedDone (ctx : Fin 1024) (fault : FaultClass) (s : State) : Host.Outcome State Fault Refusal :=
  .next (onDev s (fun d => d.feedDone ctx.val fault))

/-- CHECK_ENGINE_RESET (R384). The steward engine-resets a check engine and every context of the engine is lost. -/
def execCheckEngineReset (engine : Fin 16) (s : State) : Host.Outcome State Fault Refusal :=
  .next (onDev s (fun d => d.checkReset engine.val))

end Sys2Proof.Machine
end

