-- ==== Sys2Proof/Machine/RowsMgmt.lean ====
section
/-! DEFINITION. The meanings of commands: Management requests. Each is its effect on the device; the queue of waiting commands
is not touched. -/
namespace Sys2Proof.Machine

/-- MGT_HELLO (R409). A management HELLO negotiates the protocol version. -/
def execMgtHello (via : Via) (msg : List Byte) (s : State) : Host.Outcome State Fault Refusal :=
  .next (onDev s (fun d => d.mgtHello via msg))

/-- OP_STATUS (R410). OP_STATUS returns the state and final status of a long operation. -/
def execOpStatus (via : Via) (msg : List Byte) (s : State) : Host.Outcome State Fault Refusal :=
  .next (onDev s (fun d => d.opStatus via msg))

/-- REG_READ (R413). REG_READ reads COUNT consecutive registers. -/
def execRegRead (via : Via) (msg : List Byte) (s : State) : Host.Outcome State Fault Refusal :=
  .next (onDev s (fun d => d.regRead via msg))

/-- REG_WRITE (R413). REG_WRITE writes COUNT consecutive registers. -/
def execRegWrite (via : Via) (msg : List Byte) (s : State) : Host.Outcome State Fault Refusal :=
  .next (onDev s (fun d => d.regWrite via msg))

/-- EVENT_READ (R416). EVENT_READ returns event records from a cursor. -/
def execEventRead (via : Via) (msg : List Byte) (s : State) : Host.Outcome State Fault Refusal :=
  .next (onDev s (fun d => d.eventRead via msg))

/-- EVENT_SUBSCRIBE (R417). EVENT_SUBSCRIBE sets or ends the event subscription address. -/
def execEventSubscribe (via : Via) (msg : List Byte) (s : State) : Host.Outcome State Fault Refusal :=
  .next (onDev s (fun d => d.eventSubscribe via msg))

/-- LOG_READ (R417). LOG_READ returns records from the persistent log. -/
def execLogRead (via : Via) (msg : List Byte) (s : State) : Host.Outcome State Fault Refusal :=
  .next (onDev s (fun d => d.logRead via msg))

/-- TELEMETRY (R418). TELEMETRY returns part of the device or an instance telemetry page. -/
def execTelemetry (via : Via) (msg : List Byte) (s : State) : Host.Outcome State Fault Refusal :=
  .next (onDev s (fun d => d.telemetry via msg))

/-- MODE_SERVICE (R434). MODE TARGET 0 enters Service from Configuration through Recovery. -/
def execModeService (via : Via) (msg : List Byte) (s : State) : Host.Outcome State Fault Refusal :=
  .next (onDev s (fun d => d.modeService via msg))

/-- MODE_ENTER_MAINTENANCE (R436). MODE TARGET 1 closes admission, drains windows and enters Maintenance. -/
def execModeEnterMaintenance (via : Via) (msg : List Byte) (s : State) : Host.Outcome State Fault Refusal :=
  .next (onDev s (fun d => d.modeEnterMaintenance via msg))

/-- MODE_LEAVE_MAINTENANCE (R436). MODE TARGET 2 reopens admission and leaves Maintenance. -/
def execModeLeaveMaintenance (via : Via) (msg : List Byte) (s : State) : Host.Outcome State Fault Refusal :=
  .next (onDev s (fun d => d.modeLeaveMaintenance via msg))

/-- MODE_ENTER_STANDBY (R443). MODE TARGET 3 runs the Standby entry steps. -/
def execModeEnterStandby (via : Via) (msg : List Byte) (s : State) : Host.Outcome State Fault Refusal :=
  .next (onDev s (fun d => d.modeEnterStandby via msg))

/-- IMAGE_STAGE (R420). IMAGE_STAGE writes a chunk into a staging buffer. -/
def execImageStage (via : Via) (msg : List Byte) (s : State) : Host.Outcome State Fault Refusal :=
  .next (onDev s (fun d => d.imageStage via msg))

/-- BOOT_SELECT (R425). BOOT_SELECT writes a staged image to the inactive slot as the boot image. -/
def execBootSelect (via : Via) (msg : List Byte) (s : State) : Host.Outcome State Fault Refusal :=
  .next (onDev s (fun d => d.bootSelect via msg))

/-- NS_CREATE (R419). NS_CREATE creates a namespace for an instance. -/
def execNsCreate (via : Via) (msg : List Byte) (s : State) : Host.Outcome State Fault Refusal :=
  .next (onDev s (fun d => d.nsCreate via msg))

/-- NS_DELETE (R419). NS_DELETE deletes a namespace. -/
def execNsDelete (via : Via) (msg : List Byte) (s : State) : Host.Outcome State Fault Refusal :=
  .next (onDev s (fun d => d.nsDelete via msg))

/-- NS_FORMAT (R419). NS_FORMAT reformats a namespace. -/
def execNsFormat (via : Via) (msg : List Byte) (s : State) : Host.Outcome State Fault Refusal :=
  .next (onDev s (fun d => d.nsFormat via msg))

/-- NQN_SET (R419). NQN_SET sets an instance's subsystem NQN. -/
def execNqnSet (via : Via) (msg : List Byte) (s : State) : Host.Outcome State Fault Refusal :=
  .next (onDev s (fun d => d.nqnSet via msg))

/-- PROGRAM_LOAD (R336). PROGRAM_LOAD loads an Evryn image and creates its task records. -/
def execProgramLoad (via : Via) (msg : List Byte) (s : State) : Host.Outcome State Fault Refusal :=
  .next (onDev s (fun d => d.programLoad via msg))

/-- PROGRAM_UNLOAD (R337). PROGRAM_UNLOAD puts a program's tasks into DELETING. -/
def execProgramUnload (via : Via) (msg : List Byte) (s : State) : Host.Outcome State Fault Refusal :=
  .next (onDev s (fun d => d.programUnload via msg))

/-- LOCK (R415). LOCK acquires the management lock when free. -/
def execLock (via : Via) (msg : List Byte) (s : State) : Host.Outcome State Fault Refusal :=
  .next (onDev s (fun d => d.lock via msg))

/-- UNLOCK (R415). UNLOCK releases the lock for the holder's TAG. -/
def execUnlock (via : Via) (msg : List Byte) (s : State) : Host.Outcome State Fault Refusal :=
  .next (onDev s (fun d => d.unlock via msg))

/-- KEY_MGR_SET (R429). KEY_MGR_SET sets or changes the manager's key and rewraps instance keys. -/
def execKeyMgrSet (via : Via) (msg : List Byte) (s : State) : Host.Outcome State Fault Refusal :=
  .next (onDev s (fun d => d.keyMgrSet via msg))

/-- KEY_UNLOCK (R429). KEY_UNLOCK supplies the manager's key after a reset in MODE 1. -/
def execKeyUnlock (via : Via) (msg : List Byte) (s : State) : Host.Outcome State Fault Refusal :=
  .next (onDev s (fun d => d.keyUnlock via msg))

/-- KEY_LOAD (R430). KEY_LOAD unwraps and loads an instance key into its slot. -/
def execKeyLoad (via : Via) (msg : List Byte) (s : State) : Host.Outcome State Fault Refusal :=
  .next (onDev s (fun d => d.keyLoad via msg))

/-- KEY_GENERATE (R430). KEY_GENERATE draws, loads and returns a wrapped instance key. -/
def execKeyGenerate (via : Via) (msg : List Byte) (s : State) : Host.Outcome State Fault Refusal :=
  .next (onDev s (fun d => d.keyGenerate via msg))

/-- SVN_COMMIT (R427). SVN_COMMIT raises the fused SVN minimum. -/
def execSvnCommit (via : Via) (msg : List Byte) (s : State) : Host.Outcome State Fault Refusal :=
  .next (onDev s (fun d => d.svnCommit via msg))

/-- UNSUPPORTED_MGMT_TYPE (R409). A management request of a TYPE that the negotiated version does not define is
answered with status 0x03. -/
def execUnsupportedMgmtType (via : Via) (msg : List Byte) (s : State) : Host.Outcome State Fault Refusal :=
  .next (onDev s (fun d => d.unsupportedType via msg))

/-- MODE_LEAVE_STANDBY (R444). MODE TARGET 4 runs the Standby exit steps. -/
def execModeLeaveStandby (via : Via) (msg : List Byte) (found : Found) (s : State) : Host.Outcome State Fault Refusal :=
  .next (onDev s (fun d => d.modeLeaveStandby via msg found))

/-- RESET_WARM (R440). RESET KIND 0 performs a warm reset and rebuilds the data path. -/
def execResetWarm (via : Via) (msg : List Byte) (found : Found) (s : State) : Host.Outcome State Fault Refusal :=
  .next (onDev s (fun d => d.resetWarm via msg found))

/-- RESET_COLD (R438). RESET KIND 1 performs a cold reset, dumping dirty slots first. -/
def execResetCold (via : Via) (msg : List Byte) (found : Found) (flush : Flush) (s : State) : Host.Outcome State Fault Refusal :=
  .next (onDev s (fun d => d.resetCold via msg found flush))

/-- ACTIVATE_FIRMWARE (R422). ACTIVATE KIND 0 runs the firmware activation steps. -/
def execActivateFirmware (via : Via) (msg : List Byte) (switch : Switch) (s : State) : Host.Outcome State Fault Refusal :=
  .next (onDev s (fun d => d.activateFirmware via msg switch))

/-- ACTIVATE_STRUCTURE (R62). ACTIVATE KIND 1 validates and live-replaces the Uzorov image. -/
def execActivateStructure (via : Via) (msg : List Byte) (badLanes : List Nat) (mid : Option (Nat × Resource)) (s :
    State) : Host.Outcome State Fault Refusal :=
  .next (onDev s (fun d => d.activateStructure via msg badLanes mid))

/-- ACTIVATE_BOTH (R424). ACTIVATE KIND 2 activates firmware and then the structure image. -/
def execActivateBoth (via : Via) (msg : List Byte) (switch : Switch) (badLanes : List Nat) (mid : Option (Nat ×
    Resource)) (s : State) : Host.Outcome State Fault Refusal :=
  .next (onDev s (fun d => d.activateBoth via msg switch badLanes mid))

/-- SANITIZE_INSTANCE (R432). SANITIZE of an instance resets it, erases its key and deletes its data. -/
def execSanitizeInstance (via : Via) (msg : List Byte) (steps : Nat) (s : State) : Host.Outcome State Fault Refusal :=
  .next (onDev s (fun d => d.sanitizeRequest via msg false steps))

/-- SANITIZE_DEVICE (R432). SANITIZE of the device, in Maintenance, erases every block, memory and key. -/
def execSanitizeDevice (via : Via) (msg : List Byte) (steps : Nat) (s : State) : Host.Outcome State Fault Refusal :=
  .next (onDev s (fun d => d.sanitizeRequest via msg true steps))

/-- LOCK_EXPIRY (R415). The management lock expires at the end of its time. -/
def execLockExpiry (s : State) : Host.Outcome State Fault Refusal :=
  .next (onDev s (fun d => d.lockExpiry))

/-- LOG_COPY (R417). Every second, or at 512 waiting records, always-on records are copied to the persistent log. -/
def execLogCopy (s : State) : Host.Outcome State Fault Refusal :=
  .next (onDev s (fun d => d.copyLog))

end Sys2Proof.Machine
end

