-- ==== Sys2Proof/Machine/Dispatch.lean ====
section
/-! DEFINITION. The meaning of every command, arm by arm. -/
namespace Sys2Proof.Machine

def exec (i : Instr) (s : State) : Host.Outcome State Fault Refusal :=
  match i with
  | .registerWrite ag addr value => Sys2Proof.Machine.execRegisterWrite ag addr value s
  | .pairLoRead ag addr => Sys2Proof.Machine.execPairLoRead ag addr s
  | .pairHiRead ag addr => Sys2Proof.Machine.execPairHiRead ag addr s
  | .parcelPoison flume link op => Sys2Proof.Machine.execParcelPoison flume link op s
  | .parcelResendArrive flume clean retry => Sys2Proof.Machine.execParcelResendArrive flume clean retry s
  | .flumeRouteSwitch flume => Sys2Proof.Machine.execFlumeRouteSwitch flume s
  | .ptpLock port tai inc => Sys2Proof.Machine.execPtpLock port tai inc s
  | .laneLockLoss port lane readapts => Sys2Proof.Machine.execLaneLockLoss port lane readapts s
  | .laneRetry port adapted => Sys2Proof.Machine.execLaneRetry port adapted s
  | .retrain port adapted => Sys2Proof.Machine.execRetrain port adapted s
  | .widen port => Sys2Proof.Machine.execWiden port s
  | .powerOnReset supplies found => Sys2Proof.Machine.execPowerOnReset supplies found s
  | .coldResetPin found flush => Sys2Proof.Machine.execColdResetPin found flush s
  | .recoveryRun bad undecoded => Sys2Proof.Machine.execRecoveryRun bad undecoded s
  | .hello arrival src bytes => Sys2Proof.Machine.execHello arrival src bytes s
  | .openStream arrival src bytes => Sys2Proof.Machine.execOpenStream arrival src bytes s
  | .close arrival src bytes => Sys2Proof.Machine.execClose arrival src bytes s
  | .closeAck arrival src bytes => Sys2Proof.Machine.execCloseAck arrival src bytes s
  | .heartbeat arrival src bytes => Sys2Proof.Machine.execHeartbeat arrival src bytes s
  | .kfspDataPacket arrival src raw bytes => Sys2Proof.Machine.execKfspDataPacket arrival src raw bytes s
  | .ethernetFrame arrival toPort dmac vlan tagged l3 proto dport sport src bytes => Sys2Proof.Machine.execEthernetFrame arrival toPort dmac vlan tagged l3 proto dport sport src bytes s
  | .tokenRefill => Sys2Proof.Machine.execTokenRefill s
  | .nakTimeout stream frame => Sys2Proof.Machine.execNakTimeout stream frame s
  | .repairDeadline stream frame => Sys2Proof.Machine.execRepairDeadline stream frame s
  | .streamIdle stream => Sys2Proof.Machine.execStreamIdle stream s
  | .streamIdleClose stream => Sys2Proof.Machine.execStreamIdleClose stream s
  | .verdictBudgetExpiry stream frame => Sys2Proof.Machine.execVerdictBudgetExpiry stream frame s
  | .triggerInputEdge pin rising => Sys2Proof.Machine.execTriggerInputEdge pin rising s
  | .triggerDebounceExpiry pin => Sys2Proof.Machine.execTriggerDebounceExpiry pin s
  | .swTrig group => Sys2Proof.Machine.execSwTrig group s
  | .trigOutSecondPulse => Sys2Proof.Machine.execTrigOutSecondPulse s
  | .trigOutPulseEnd output => Sys2Proof.Machine.execTrigOutPulseEnd output s
  | .windowCloseGuard window => Sys2Proof.Machine.execWindowCloseGuard window s
  | .drainDispatch => Sys2Proof.Machine.execDrainDispatch s
  | .drainResume stream => Sys2Proof.Machine.execDrainResume stream s
  | .captureArm cmd => Sys2Proof.Machine.execCaptureArm cmd s
  | .captureDisarm cmd => Sys2Proof.Machine.execCaptureDisarm cmd s
  | .freezeWindow cmd => Sys2Proof.Machine.execFreezeWindow cmd s
  | .frameQuery cmd => Sys2Proof.Machine.execFrameQuery cmd s
  | .queryNextMatch cmd => Sys2Proof.Machine.execQueryNextMatch cmd s
  | .queryHandleExpiry handle => Sys2Proof.Machine.execQueryHandleExpiry handle s
  | .frameRead cmd => Sys2Proof.Machine.execFrameRead cmd s
  | .cdcQSqTailWrite queue tail => Sys2Proof.Machine.execCdcQSqTailWrite queue tail s
  | .cqHeadWrite queue head => Sys2Proof.Machine.execCqHeadWrite queue head s
  | .jobDispatch => Sys2Proof.Machine.execJobDispatch s
  | .jobComplete engine first second checks => Sys2Proof.Machine.execJobComplete engine first second checks s
  | .engReset engine => Sys2Proof.Machine.execEngReset engine s
  | .ctxFree slot => Sys2Proof.Machine.execCtxFree slot s
  | .suspectClear what die => Sys2Proof.Machine.execSuspectClear what die s
  | .dieTimeout chan die op target fault => Sys2Proof.Machine.execDieTimeout chan die op target fault s
  | .flashReadDone stripe pos cw erased first second others => Sys2Proof.Machine.execFlashReadDone stripe pos cw erased first second others s
  | .suspendTimeout chan die => Sys2Proof.Machine.execSuspendTimeout chan die s
  | .programDone stripe carrier ok ns => Sys2Proof.Machine.execProgramDone stripe carrier ok ns s
  | .eraseDone superblock faults => Sys2Proof.Machine.execEraseDone superblock faults s
  | .readLevelSave => Sys2Proof.Machine.execReadLevelSave s
  | .trainPeriod chan => Sys2Proof.Machine.execTrainPeriod chan s
  | .chRetrain chan => Sys2Proof.Machine.execChRetrain chan s
  | .trainingDone chan ok temp => Sys2Proof.Machine.execTrainingDone chan ok temp s
  | .chEngReset chan => Sys2Proof.Machine.execChEngReset chan s
  | .cpresChange carrier high => Sys2Proof.Machine.execCpresChange carrier high s
  | .carrierPowered carrier => Sys2Proof.Machine.execCarrierPowered carrier s
  | .carrierTrainingDone carrier ok0 ok1 record dies => Sys2Proof.Machine.execCarrierTrainingDone carrier ok0 ok1 record dies s
  | .formatDone carrier cols => Sys2Proof.Machine.execFormatDone carrier cols s
  | .rebuildDone carrier => Sys2Proof.Machine.execRebuildDone carrier s
  | .quiesceDone carrier => Sys2Proof.Machine.execQuiesceDone carrier s
  | .prepareRemoval carrier => Sys2Proof.Machine.execPrepareRemoval carrier s
  | .cancelRemoval carrier => Sys2Proof.Machine.execCancelRemoval carrier s
  | .formatHeldCarrier carrier cols => Sys2Proof.Machine.execFormatHeldCarrier carrier cols s
  | .powerOnCarrier carrier => Sys2Proof.Machine.execPowerOnCarrier carrier s
  | .prepareRemovalForced carrier => Sys2Proof.Machine.execPrepareRemovalForced carrier s
  | .mirrorDone cmd => Sys2Proof.Machine.execMirrorDone cmd s
  | .journalPageTimer => Sys2Proof.Machine.execJournalPageTimer s
  | .journalPageWritten okA okB => Sys2Proof.Machine.execJournalPageWritten okA okB s
  | .checkpoint => Sys2Proof.Machine.execCheckpoint s
  | .gcPass => Sys2Proof.Machine.execGcPass s
  | .flashPatrolScrub stripe weak cols => Sys2Proof.Machine.execFlashPatrolScrub stripe weak cols s
  | .powerFailAssert flush => Sys2Proof.Machine.execPowerFailAssert flush s
  | .powerFailDeassert found => Sys2Proof.Machine.execPowerFailDeassert found s
  | .railUndervolt rail flush => Sys2Proof.Machine.execRailUndervolt rail flush s
  | .icreq conn pfv hpda hdgst ddgst maxr2t reserved => Sys2Proof.Machine.execIcreq conn pfv hpda hdgst ddgst maxr2t reserved s
  | .tcpSyn port peer dport => Sys2Proof.Machine.execTcpSyn port peer dport s
  | .commandCapsule conn sqe data pdu => Sys2Proof.Machine.execCommandCapsule conn sqe data pdu s
  | .h2cData cmd off bytes pdu => Sys2Proof.Machine.execH2cData cmd off bytes pdu s
  | .sqeFetchDone queue sqe => Sys2Proof.Machine.execSqeFetchDone queue sqe s
  | .commandAdmit => Sys2Proof.Machine.execCommandAdmit s
  | .slotReserve cmd => Sys2Proof.Machine.execSlotReserve cmd s
  | .commandRelease cmd => Sys2Proof.Machine.execCommandRelease cmd s
  | .keepAliveTimeout ctrl => Sys2Proof.Machine.execKeepAliveTimeout ctrl s
  | .connectionLoss conn => Sys2Proof.Machine.execConnectionLoss conn s
  | .controllerReset ctrl => Sys2Proof.Machine.execControllerReset ctrl s
  | .normalShutdown ctrl => Sys2Proof.Machine.execNormalShutdown ctrl s
  | .perst link => Sys2Proof.Machine.execPerst link s
  | .admissionHoldTimeout => Sys2Proof.Machine.execAdmissionHoldTimeout s
  | .deleteIoSq cmd => Sys2Proof.Machine.execDeleteIoSq cmd s
  | .createIoSq cmd => Sys2Proof.Machine.execCreateIoSq cmd s
  | .deleteIoCq cmd => Sys2Proof.Machine.execDeleteIoCq cmd s
  | .createIoCq cmd => Sys2Proof.Machine.execCreateIoCq cmd s
  | .getLogPage cmd => Sys2Proof.Machine.execGetLogPage cmd s
  | .identify cmd => Sys2Proof.Machine.execIdentify cmd s
  | .abort cmd => Sys2Proof.Machine.execAbort cmd s
  | .setFeatures cmd => Sys2Proof.Machine.execSetFeatures cmd s
  | .getFeatures cmd => Sys2Proof.Machine.execGetFeatures cmd s
  | .asyncEventRequest cmd => Sys2Proof.Machine.execAsyncEventRequest cmd s
  | .keepAlive cmd => Sys2Proof.Machine.execKeepAlive cmd s
  | .propertyGet cmd => Sys2Proof.Machine.execPropertyGet cmd s
  | .propertySet cmd => Sys2Proof.Machine.execPropertySet cmd s
  | .connect conn sqe data => Sys2Proof.Machine.execConnect conn sqe data s
  | .mailboxSend cmd => Sys2Proof.Machine.execMailboxSend cmd s
  | .mailboxReceive cmd => Sys2Proof.Machine.execMailboxReceive cmd s
  | .instanceTelemetry cmd => Sys2Proof.Machine.execInstanceTelemetry cmd s
  | .flush cmd => Sys2Proof.Machine.execFlush cmd s
  | .write cmd => Sys2Proof.Machine.execWrite cmd s
  | .read cmd => Sys2Proof.Machine.execRead cmd s
  | .compare cmd => Sys2Proof.Machine.execCompare cmd s
  | .writeZeroes cmd => Sys2Proof.Machine.execWriteZeroes cmd s
  | .datasetManagement cmd => Sys2Proof.Machine.execDatasetManagement cmd s
  | .verify cmd => Sys2Proof.Machine.execVerify cmd s
  | .reservationRegister cmd => Sys2Proof.Machine.execReservationRegister cmd s
  | .reservationReport cmd => Sys2Proof.Machine.execReservationReport cmd s
  | .reservationAcquire cmd => Sys2Proof.Machine.execReservationAcquire cmd s
  | .reservationRelease cmd => Sys2Proof.Machine.execReservationRelease cmd s
  | .retrieve cmd => Sys2Proof.Machine.execRetrieve cmd s
  | .exist cmd => Sys2Proof.Machine.execExist cmd s
  | .list cmd => Sys2Proof.Machine.execList cmd s
  | .store cmd => Sys2Proof.Machine.execStore cmd s
  | .delete cmd => Sys2Proof.Machine.execDelete cmd s
  | .unsupportedOpcode cmd => Sys2Proof.Machine.execUnsupportedOpcode cmd s
  | .geckoSearch ag ctx part fault => Sys2Proof.Machine.execGeckoSearch ag ctx part fault s
  | .geckoNext ag ctx => Sys2Proof.Machine.execGeckoNext ag ctx s
  | .geckoEnd ag ctx => Sys2Proof.Machine.execGeckoEnd ag ctx s
  | .geckoInvalidate ag ctx part pos => Sys2Proof.Machine.execGeckoInvalidate ag ctx part pos s
  | .geckoWrite ag ctx part pos => Sys2Proof.Machine.execGeckoWrite ag ctx part pos s
  | .geckoValidate ag ctx part pos => Sys2Proof.Machine.execGeckoValidate ag ctx part pos s
  | .geckoInsert ag ctx part pos => Sys2Proof.Machine.execGeckoInsert ag ctx part pos s
  | .geckoRead ag ctx part pos => Sys2Proof.Machine.execGeckoRead ag ctx part pos s
  | .geckoReplace ag ctx part pos => Sys2Proof.Machine.execGeckoReplace ag ctx part pos s
  | .stepHandleExpiry ctx => Sys2Proof.Machine.execStepHandleExpiry ctx s
  | .partitionMoveDone part => Sys2Proof.Machine.execPartitionMoveDone part s
  | .parityScan found => Sys2Proof.Machine.execParityScan found s
  | .add u b rd ra rb => Sys2Proof.Machine.execAdd u b rd ra rb s
  | .sub u b rd ra rb => Sys2Proof.Machine.execSub u b rd ra rb s
  | .and u b rd ra rb => Sys2Proof.Machine.execAnd u b rd ra rb s
  | .or u b rd ra rb => Sys2Proof.Machine.execOr u b rd ra rb s
  | .xor u b rd ra rb => Sys2Proof.Machine.execXor u b rd ra rb s
  | .andn u b rd ra rb => Sys2Proof.Machine.execAndn u b rd ra rb s
  | .shl u b rd ra rb => Sys2Proof.Machine.execShl u b rd ra rb s
  | .shr u b rd ra rb => Sys2Proof.Machine.execShr u b rd ra rb s
  | .sar u b rd ra rb => Sys2Proof.Machine.execSar u b rd ra rb s
  | .mul u b rd ra rb => Sys2Proof.Machine.execMul u b rd ra rb s
  | .mulhu u b rd ra rb => Sys2Proof.Machine.execMulhu u b rd ra rb s
  | .mulhs u b rd ra rb => Sys2Proof.Machine.execMulhs u b rd ra rb s
  | .min u b rd ra rb => Sys2Proof.Machine.execMin u b rd ra rb s
  | .max u b rd ra rb => Sys2Proof.Machine.execMax u b rd ra rb s
  | .minu u b rd ra rb => Sys2Proof.Machine.execMinu u b rd ra rb s
  | .maxu u b rd ra rb => Sys2Proof.Machine.execMaxu u b rd ra rb s
  | .cmp u b cond pd ra rb => Sys2Proof.Machine.execCmp u b cond pd ra rb s
  | .sel u b rd ra rb p => Sys2Proof.Machine.execSel u b rd ra rb p s
  | .unary u b fn rd ra => Sys2Proof.Machine.execUnary u b fn rd ra s
  | .plog u b fn pd pa pb => Sys2Proof.Machine.execPlog u b fn pd pa pb s
  | .mfs u b rd sel => Sys2Proof.Machine.execMfs u b rd sel s
  | .mts u b sel ra => Sys2Proof.Machine.execMts u b sel ra s
  | .mfp u b rd => Sys2Proof.Machine.execMfp u b rd s
  | .mtp u b ra => Sys2Proof.Machine.execMtp u b ra s
  | .addi u b rd ra imm => Sys2Proof.Machine.execAddi u b rd ra imm s
  | .andi u b rd ra imm => Sys2Proof.Machine.execAndi u b rd ra imm s
  | .ori u b rd ra imm => Sys2Proof.Machine.execOri u b rd ra imm s
  | .xori u b rd ra imm => Sys2Proof.Machine.execXori u b rd ra imm s
  | .shli u b rd ra sh => Sys2Proof.Machine.execShli u b rd ra sh s
  | .shri u b rd ra sh => Sys2Proof.Machine.execShri u b rd ra sh s
  | .sari u b rd ra sh => Sys2Proof.Machine.execSari u b rd ra sh s
  | .cmpi u b cond pd ra imm => Sys2Proof.Machine.execCmpi u b cond pd ra imm s
  | .movi u b rd imm => Sys2Proof.Machine.execMovi u b rd imm s
  | .movk u b h rd imm => Sys2Proof.Machine.execMovk u b h rd imm s
  | .pcadd u b rd imm => Sys2Proof.Machine.execPcadd u b rd imm s
  | .br u p n off => Sys2Proof.Machine.execBr u p n off s
  | .call u off => Sys2Proof.Machine.execCall u off s
  | .jr u ra => Sys2Proof.Machine.execJr u ra s
  | .jalr u ra => Sys2Proof.Machine.execJalr u ra s
  | .ret u => Sys2Proof.Machine.execRet u s
  | .rep u count => Sys2Proof.Machine.execRep u count s
  | .repi u count upTo => Sys2Proof.Machine.execRepi u count upTo s
  | .wfe u rd => Sys2Proof.Machine.execWfe u rd s
  | .waitt u rd ra => Sys2Proof.Machine.execWaitt u rd ra s
  | .waitWake core => Sys2Proof.Machine.execWaitWake core s
  | .sev u ra => Sys2Proof.Machine.execSev u ra s
  | .trap u code => Sys2Proof.Machine.execTrap u code s
  | .endw u => Sys2Proof.Machine.execEndw u s
  | .fence u fn => Sys2Proof.Machine.execFence u fn s
  | .eret u upTo => Sys2Proof.Machine.execEret u upTo s
  | .ldb u rd ra imm => Sys2Proof.Machine.execLdb u rd ra imm s
  | .ldbs u rd ra imm => Sys2Proof.Machine.execLdbs u rd ra imm s
  | .ldh u rd ra imm => Sys2Proof.Machine.execLdh u rd ra imm s
  | .ldhs u rd ra imm => Sys2Proof.Machine.execLdhs u rd ra imm s
  | .ldw u rd ra imm => Sys2Proof.Machine.execLdw u rd ra imm s
  | .ldws u rd ra imm => Sys2Proof.Machine.execLdws u rd ra imm s
  | .ldd u rd ra imm => Sys2Proof.Machine.execLdd u rd ra imm s
  | .stb u rs ra imm => Sys2Proof.Machine.execStb u rs ra imm s
  | .sth u rs ra imm => Sys2Proof.Machine.execSth u rs ra imm s
  | .stw u rs ra imm => Sys2Proof.Machine.execStw u rs ra imm s
  | .std u rs ra imm => Sys2Proof.Machine.execStd u rs ra imm s
  | .ldv u vd ra imm => Sys2Proof.Machine.execLdv u vd ra imm s
  | .stv u vs ra imm => Sys2Proof.Machine.execStv u vs ra imm s
  | .lddx u rd ra rb => Sys2Proof.Machine.execLddx u rd ra rb s
  | .amoadd u rd ra rb => Sys2Proof.Machine.execAmoadd u rd ra rb s
  | .amoswp u rd ra rb => Sys2Proof.Machine.execAmoswp u rd ra rb s
  | .cas u rd ra rb => Sys2Proof.Machine.execCas u rd ra rb s
  | .xfer u rl ra rb k => Sys2Proof.Machine.execXfer u rl ra rb k s
  | .xferDone core index fault => Sys2Proof.Machine.execXferDone core index fault s
  | .inp u rd ra imm => Sys2Proof.Machine.execInp u rd ra imm s
  | .outp u rs ra imm => Sys2Proof.Machine.execOutp u rs ra imm s
  | .ldc u rd ra imm => Sys2Proof.Machine.execLdc u rd ra imm s
  | .stc u rs ra imm => Sys2Proof.Machine.execStc u rs ra imm s
  | .vadd u vd va vb ew => Sys2Proof.Machine.execVadd u vd va vb ew s
  | .vsub u vd va vb ew => Sys2Proof.Machine.execVsub u vd va vb ew s
  | .vaddsu u vd va vb ew => Sys2Proof.Machine.execVaddsu u vd va vb ew s
  | .vsubsu u vd va vb ew => Sys2Proof.Machine.execVsubsu u vd va vb ew s
  | .vmul u vd va vb ew => Sys2Proof.Machine.execVmul u vd va vb ew s
  | .vminu u vd va vb ew => Sys2Proof.Machine.execVminu u vd va vb ew s
  | .vmaxu u vd va vb ew => Sys2Proof.Machine.execVmaxu u vd va vb ew s
  | .vmin u vd va vb ew => Sys2Proof.Machine.execVmin u vd va vb ew s
  | .vmax u vd va vb ew => Sys2Proof.Machine.execVmax u vd va vb ew s
  | .vabsdu u vd va vb ew => Sys2Proof.Machine.execVabsdu u vd va vb ew s
  | .vand u vd va vb => Sys2Proof.Machine.execVand u vd va vb s
  | .vor u vd va vb => Sys2Proof.Machine.execVor u vd va vb s
  | .vxor u vd va vb => Sys2Proof.Machine.execVxor u vd va vb s
  | .vshli u vd va ew imm => Sys2Proof.Machine.execVshli u vd va ew imm s
  | .vshri u vd va ew imm => Sys2Proof.Machine.execVshri u vd va ew imm s
  | .vsari u vd va ew imm => Sys2Proof.Machine.execVsari u vd va ew imm s
  | .vcmpeq u vd va vb ew => Sys2Proof.Machine.execVcmpeq u vd va vb ew s
  | .vcmpgtu u vd va vb ew => Sys2Proof.Machine.execVcmpgtu u vd va vb ew s
  | .vcmpgt u vd va vb ew => Sys2Proof.Machine.execVcmpgt u vd va vb ew s
  | .vsel u vd va vb vm => Sys2Proof.Machine.execVsel u vd va vb vm s
  | .vbcst u v g ew => Sys2Proof.Machine.execVbcst u v g ew s
  | .vget u g v ew idx => Sys2Proof.Machine.execVget u g v ew idx s
  | .vrsum u g v ew => Sys2Proof.Machine.execVrsum u g v ew s
  | .vunp u vd va msb depth => Sys2Proof.Machine.execVunp u vd va msb depth s
  | .budgetExpiry core => Sys2Proof.Machine.execBudgetExpiry core s
  | .halt core why => Sys2Proof.Machine.execHalt core why s
  | .set ag task flag => Sys2Proof.Machine.execSet ag task flag s
  | .clear ag task flag withSet => Sys2Proof.Machine.execClear ag task flag withSet s
  | .cancel ag task race => Sys2Proof.Machine.execCancel ag task race s
  | .delayStart ag task => Sys2Proof.Machine.execDelayStart ag task s
  | .delayStop ag task => Sys2Proof.Machine.execDelayStop ag task s
  | .enable ag task => Sys2Proof.Machine.execEnable ag task s
  | .disable ag task => Sys2Proof.Machine.execDisable ag task s
  | .post ag addr64 => Sys2Proof.Machine.execPost ag addr64 s
  | .taskPriorityWrite ag task value => Sys2Proof.Machine.execTaskPriorityWrite ag task value s
  | .dispatch => Sys2Proof.Machine.execDispatch s
  | .delayExpiry => Sys2Proof.Machine.execDelayExpiry s
  | .programUnloadDone inst program => Sys2Proof.Machine.execProgramUnloadDone inst program s
  | .memRequest levels requests readable => Sys2Proof.Machine.execMemRequest levels requests readable s
  | .refreshDue pc bank kept issued => Sys2Proof.Machine.execRefreshDue pc bank kept issued s
  | .actTableClear stack => Sys2Proof.Machine.execActTableClear stack s
  | .stackTempRead stack temp => Sys2Proof.Machine.execStackTempRead stack temp s
  | .memPatrolScrub line found written readable => Sys2Proof.Machine.execMemPatrolScrub line found written readable s
  | .trackingStep chan margin => Sys2Proof.Machine.execTrackingStep chan margin s
  | .retrainStep chan => Sys2Proof.Machine.execRetrainStep chan s
  | .retrainEnd chan margin readable => Sys2Proof.Machine.execRetrainEnd chan margin readable s
  | .migrationStep chan failed => Sys2Proof.Machine.execMigrationStep chan failed s
  | .ctxInit ag ctx notify flag task => Sys2Proof.Machine.execCtxInit ag ctx notify flag task s
  | .ctxFeed ag ctx notify flag task => Sys2Proof.Machine.execCtxFeed ag ctx notify flag task s
  | .ctxSet ag ctx notify flag task => Sys2Proof.Machine.execCtxSet ag ctx notify flag task s
  | .feedDone ctx fault => Sys2Proof.Machine.execFeedDone ctx fault s
  | .instanceReset inst => Sys2Proof.Machine.execInstanceReset inst s
  | .shareWrite inst off value => Sys2Proof.Machine.execShareWrite inst off value s
  | .epochBoundary => Sys2Proof.Machine.execEpochBoundary s
  | .mbxPop inst => Sys2Proof.Machine.execMbxPop inst s
  | .mbxPush inst len type => Sys2Proof.Machine.execMbxPush inst len type s
  | .eventSecondEnd => Sys2Proof.Machine.execEventSecondEnd s
  | .mgtHello via msg => Sys2Proof.Machine.execMgtHello via msg s
  | .opStatus via msg => Sys2Proof.Machine.execOpStatus via msg s
  | .regRead via msg => Sys2Proof.Machine.execRegRead via msg s
  | .regWrite via msg => Sys2Proof.Machine.execRegWrite via msg s
  | .eventRead via msg => Sys2Proof.Machine.execEventRead via msg s
  | .eventSubscribe via msg => Sys2Proof.Machine.execEventSubscribe via msg s
  | .logRead via msg => Sys2Proof.Machine.execLogRead via msg s
  | .telemetry via msg => Sys2Proof.Machine.execTelemetry via msg s
  | .modeService via msg => Sys2Proof.Machine.execModeService via msg s
  | .modeEnterMaintenance via msg => Sys2Proof.Machine.execModeEnterMaintenance via msg s
  | .modeLeaveMaintenance via msg => Sys2Proof.Machine.execModeLeaveMaintenance via msg s
  | .modeEnterStandby via msg => Sys2Proof.Machine.execModeEnterStandby via msg s
  | .modeLeaveStandby via msg found => Sys2Proof.Machine.execModeLeaveStandby via msg found s
  | .resetWarm via msg found => Sys2Proof.Machine.execResetWarm via msg found s
  | .resetCold via msg found flush => Sys2Proof.Machine.execResetCold via msg found flush s
  | .imageStage via msg => Sys2Proof.Machine.execImageStage via msg s
  | .activateFirmware via msg switch => Sys2Proof.Machine.execActivateFirmware via msg switch s
  | .activateStructure via msg badLanes mid => Sys2Proof.Machine.execActivateStructure via msg badLanes mid s
  | .activateBoth via msg switch badLanes mid => Sys2Proof.Machine.execActivateBoth via msg switch badLanes mid s
  | .bootSelect via msg => Sys2Proof.Machine.execBootSelect via msg s
  | .nsCreate via msg => Sys2Proof.Machine.execNsCreate via msg s
  | .nsDelete via msg => Sys2Proof.Machine.execNsDelete via msg s
  | .nsFormat via msg => Sys2Proof.Machine.execNsFormat via msg s
  | .nqnSet via msg => Sys2Proof.Machine.execNqnSet via msg s
  | .programLoad via msg => Sys2Proof.Machine.execProgramLoad via msg s
  | .programUnload via msg => Sys2Proof.Machine.execProgramUnload via msg s
  | .lock via msg => Sys2Proof.Machine.execLock via msg s
  | .unlock via msg => Sys2Proof.Machine.execUnlock via msg s
  | .lockExpiry => Sys2Proof.Machine.execLockExpiry s
  | .keyMgrSet via msg => Sys2Proof.Machine.execKeyMgrSet via msg s
  | .keyUnlock via msg => Sys2Proof.Machine.execKeyUnlock via msg s
  | .keyLoad via msg => Sys2Proof.Machine.execKeyLoad via msg s
  | .keyGenerate via msg => Sys2Proof.Machine.execKeyGenerate via msg s
  | .sanitizeInstance via msg steps => Sys2Proof.Machine.execSanitizeInstance via msg steps s
  | .sanitizeDevice via msg steps => Sys2Proof.Machine.execSanitizeDevice via msg steps s
  | .svnCommit via msg => Sys2Proof.Machine.execSvnCommit via msg s
  | .logCopy => Sys2Proof.Machine.execLogCopy s
  | .stewardMismatch pair passes found => Sys2Proof.Machine.execStewardMismatch pair passes found s
  | .stopDetect port start ms => Sys2Proof.Machine.execStopDetect port start ms s
  | .lifeTick => Sys2Proof.Machine.execLifeTick s
  | .lifeSave => Sys2Proof.Machine.execLifeSave s
  | .refclkLoss ref => Sys2Proof.Machine.execRefclkLoss ref s
  | .refclkValid ref => Sys2Proof.Machine.execRefclkValid ref s
  | .refclkRevert => Sys2Proof.Machine.execRefclkRevert s
  | .sensorRead temps found flush => Sys2Proof.Machine.execSensorRead temps found flush s
  | .powerCapCheck deciwatts => Sys2Proof.Machine.execPowerCapCheck deciwatts s
  | .ptpLockLoss => Sys2Proof.Machine.execPtpLockLoss s
  | .ptpRelock port inc => Sys2Proof.Machine.execPtpRelock port inc s
  | .flashTemperatureDrift chan temp => Sys2Proof.Machine.execFlashTemperatureDrift chan temp s
  | .programTimeWindowExpiry => Sys2Proof.Machine.execProgramTimeWindowExpiry s
  | .memControllerEngineReset chan => Sys2Proof.Machine.execMemControllerEngineReset chan s
  | .checkEngineReset engine => Sys2Proof.Machine.execCheckEngineReset engine s
  | .undefinedOpcode u word => Sys2Proof.Machine.execUndefinedOpcode u word s
  | .unsupportedMgmtType via msg => Sys2Proof.Machine.execUnsupportedMgmtType via msg s
  | .pcieDataFetchDone cmd bytes => Sys2Proof.Machine.execPcieDataFetchDone cmd bytes s
  | .controllerEnable pf cc => Sys2Proof.Machine.execControllerEnable pf cc s
  | .tapInstruction code => Sys2Proof.Machine.execTapInstruction code s

end Sys2Proof.Machine
end

