-- ==== Sys2Proof/WellFormed.lean ====
section
/-! DEFINITION. Which commands can come from outside: their operands name resources that the device has, and messages have
the sizes of their formats. A meaning is total; it does not rest on these checks. -/
namespace Sys2Proof

/-- The bundle around an instruction: a fifth syllable is always out of order (R281), so a bundle is at most five words
with the instruction's own. -/
def Bundle.wf (u : Bundle) : Bool := decide (u.before.length + u.after.length ≤ 4)

/-- The addresses fit their fields. -/
def NetAddr.wf (x : NetAddr) : Bool :=
  decide (x.ip < 2 ^ (if x.v6 then 128 else 32)) && decide (x.l4 < 2 ^ 16) && decide (x.mac < 2 ^ 48)

/-- The port exists, the frame has bytes, and the buffer's level is in per mille. -/
def Arrival.wf (a : Arrival) : Bool := decide (a.port < 128) && decide (0 < a.wire) && decide (a.level ≤ 1000)

/-- A management message comes from a peer to a UDP port, or from the mailbox. -/
def Via.wf : Via → Bool
  | .udp peer port => peer.wf && decide (port < 2 ^ 16)
  | .pf0 => true

/-- The resource exists: 64 links, 1,024 lanes, 272 cores, 32 codec engines, 16 check engines, 32 flash channels, 128 memory
channels, 2^20 Gecko positions. -/
def Resource.wf : Resource → Bool
  | .link k => decide (k < 64)
  | .lane k => decide (k < 1024)
  | .core c => decide (c < 272)
  | .codec e => decide (e < 32)
  | .check e => decide (e < 16)
  | .flash c => decide (c < 32)
  | .memory c => decide (c < 128)
  | .gecko i => decide (i < 2 ^ 20)

/-- Self-test names resources that exist, dies are on the 32 channels, carriers in the 16 slots. -/
def Found.wf (f : Found) : Bool :=
  f.bad.all Resource.wf && f.dies.all (fun x => decide (x.1 < 32) && decide (x.2.1 < 32)) &&
  f.present.all (fun k => decide (k < 16)) && f.records.all (fun r => decide (r.1 < 16)) &&
  f.swapped.all (fun k => decide (k < 16))

/-- A memory request has one of the three classes, and bytes to move that lie in the address space. -/
def MemReq.wf (r : MemReq) : Bool :=
  decide (r.cls < 3) && decide (0 < r.len) && decide (r.addr + r.len ≤ 2 ^ 38) &&
  (match r.write with | some bs => decide (bs.length = r.len) | none => true)

/-- The flow of a lost parcel names a port and a stream that exist. -/
def FlowOp.wf : FlowOp → Bool
  | .ingest port stream _ _ => decide (port < 128) && decide (stream < 4096)
  | .thumbnail stream _ => decide (stream < 4096)
  | .drain stream _ => decide (stream < 4096)
  | .forward port => decide (port < 128)
  | .host _ | .mirrorWrite _ | .gc _ => true

/-- No more bits than a codeword has were read across a boundary. -/
def Ladder.wf (l : Ladder) : Bool := l.bounds.all (fun b => decide (b.1 ≤ 65536) && decide (b.2 ≤ 65536))

/-- Is the command well formed? -/
def Instr.wf (i : Instr) : Bool :=
  match i with
  | .registerWrite _ _ _ => true
  | .pairLoRead _ _ => true
  | .pairHiRead _ _ => true
  | .parcelPoison flume link op => decide (flume < 16384) && decide (link < 64) && op.wf
  | .parcelResendArrive flume _ _ => decide (flume < 16384)
  | .flumeRouteSwitch flume => decide (flume < 16384)
  | .ptpLock _ _ _ => true
  | .laneLockLoss _ _ _ => true
  | .laneRetry _ _ => true
  | .retrain _ _ => true
  | .widen _ => true
  | .powerOnReset _ found => found.wf
  | .coldResetPin found _ => found.wf
  | .recoveryRun _ _ => true
  | .hello arrival src _ => arrival.wf && src.wf
  | .openStream arrival src _ => arrival.wf && src.wf
  | .close arrival src _ => arrival.wf && src.wf
  | .closeAck arrival src _ => arrival.wf && src.wf
  | .heartbeat arrival src _ => arrival.wf && src.wf
  | .kfspDataPacket arrival src _ _ => arrival.wf && src.wf
  | .ethernetFrame arrival _ _ _ _ _ _ _ _ src _ => arrival.wf && src.wf
  | .tokenRefill => true
  | .nakTimeout _ _ => true
  | .repairDeadline _ _ => true
  | .streamIdle _ => true
  | .streamIdleClose _ => true
  | .verdictBudgetExpiry _ _ => true
  | .triggerInputEdge pin _ => decide (pin < 8)
  | .triggerDebounceExpiry pin => decide (pin < 8)
  | .swTrig _ => true
  | .trigOutSecondPulse => true
  | .trigOutPulseEnd output => decide (output < 8)
  | .windowCloseGuard _ => true
  | .drainDispatch => true
  | .drainResume _ => true
  | .captureArm _ => true
  | .captureDisarm _ => true
  | .freezeWindow _ => true
  | .frameQuery _ => true
  | .queryNextMatch _ => true
  | .queryHandleExpiry _ => true
  | .frameRead _ => true
  | .cdcQSqTailWrite _ _ => true
  | .cqHeadWrite _ _ => true
  | .jobDispatch => true
  | .jobComplete _ _ _ _ => true
  | .engReset _ => true
  | .ctxFree _ => true
  | .suspectClear what _ => what.wf
  | .dieTimeout _ _ _ _ _ => true
  | .flashReadDone _ pos _ _ first second _ => decide (pos < 16) && first.wf && second.wf
  | .suspendTimeout _ _ => true
  | .programDone _ _ _ _ => true
  | .eraseDone _ _ => true
  | .readLevelSave => true
  | .trainPeriod _ => true
  | .chRetrain _ => true
  | .trainingDone _ _ _ => true
  | .chEngReset _ => true
  | .cpresChange _ _ => true
  | .carrierPowered _ => true
  | .carrierTrainingDone _ _ _ _ _ => true
  | .formatDone _ _ => true
  | .rebuildDone _ => true
  | .quiesceDone _ => true
  | .prepareRemoval _ => true
  | .cancelRemoval _ => true
  | .formatHeldCarrier _ _ => true
  | .powerOnCarrier _ => true
  | .prepareRemovalForced _ => true
  | .mirrorDone _ => true
  | .journalPageTimer => true
  | .journalPageWritten _ _ => true
  | .checkpoint => true
  | .gcPass => true
  | .flashPatrolScrub _ _ _ => true
  | .powerFailAssert _ => true
  | .powerFailDeassert found => found.wf
  | .railUndervolt rail _ => decide (rail < 9)
  | .icreq _ _ _ _ _ _ _ => true
  | .tcpSyn _ peer _ => peer.wf
  | .commandCapsule _ sqe _ _ => decide (sqe.length = 64)
  | .h2cData _ _ _ _ => true
  | .sqeFetchDone _ sqe => decide (sqe.length = 64)
  | .commandAdmit => true
  | .slotReserve _ => true
  | .commandRelease _ => true
  | .keepAliveTimeout _ => true
  | .connectionLoss _ => true
  | .controllerReset _ => true
  | .normalShutdown _ => true
  | .perst link => decide (link < 64)
  | .admissionHoldTimeout => true
  | .deleteIoSq _ => true
  | .createIoSq _ => true
  | .deleteIoCq _ => true
  | .createIoCq _ => true
  | .getLogPage _ => true
  | .identify _ => true
  | .abort _ => true
  | .setFeatures _ => true
  | .getFeatures _ => true
  | .asyncEventRequest _ => true
  | .keepAlive _ => true
  | .propertyGet _ => true
  | .propertySet _ => true
  | .connect _ sqe _ => decide (sqe.length = 64)
  | .mailboxSend _ => true
  | .mailboxReceive _ => true
  | .instanceTelemetry _ => true
  | .flush _ => true
  | .write _ => true
  | .read _ => true
  | .compare _ => true
  | .writeZeroes _ => true
  | .datasetManagement _ => true
  | .verify _ => true
  | .reservationRegister _ => true
  | .reservationReport _ => true
  | .reservationAcquire _ => true
  | .reservationRelease _ => true
  | .retrieve _ => true
  | .exist _ => true
  | .list _ => true
  | .store _ => true
  | .delete _ => true
  | .unsupportedOpcode _ => true
  | .geckoSearch _ _ _ _ => true
  | .geckoNext _ _ => true
  | .geckoEnd _ _ => true
  | .geckoInvalidate _ _ _ _ => true
  | .geckoWrite _ _ _ _ => true
  | .geckoValidate _ _ _ _ => true
  | .geckoInsert _ _ _ _ => true
  | .geckoRead _ _ _ _ => true
  | .geckoReplace _ _ _ _ => true
  | .stepHandleExpiry _ => true
  | .partitionMoveDone _ => true
  | .parityScan _ => true
  | .add u _ _ _ _ => u.wf
  | .sub u _ _ _ _ => u.wf
  | .and u _ _ _ _ => u.wf
  | .or u _ _ _ _ => u.wf
  | .xor u _ _ _ _ => u.wf
  | .andn u _ _ _ _ => u.wf
  | .shl u _ _ _ _ => u.wf
  | .shr u _ _ _ _ => u.wf
  | .sar u _ _ _ _ => u.wf
  | .mul u _ _ _ _ => u.wf
  | .mulhu u _ _ _ _ => u.wf
  | .mulhs u _ _ _ _ => u.wf
  | .min u _ _ _ _ => u.wf
  | .max u _ _ _ _ => u.wf
  | .minu u _ _ _ _ => u.wf
  | .maxu u _ _ _ _ => u.wf
  | .cmp u _ _ _ _ _ => u.wf
  | .sel u _ _ _ _ _ => u.wf
  | .unary u _ _ _ _ => u.wf
  | .plog u _ _ _ _ _ => u.wf
  | .mfs u _ _ _ => u.wf
  | .mts u _ _ _ => u.wf
  | .mfp u _ _ => u.wf
  | .mtp u _ _ => u.wf
  | .addi u _ _ _ _ => u.wf
  | .andi u _ _ _ _ => u.wf
  | .ori u _ _ _ _ => u.wf
  | .xori u _ _ _ _ => u.wf
  | .shli u _ _ _ _ => u.wf
  | .shri u _ _ _ _ => u.wf
  | .sari u _ _ _ _ => u.wf
  | .cmpi u _ _ _ _ _ => u.wf
  | .movi u _ _ _ => u.wf
  | .movk u _ _ _ _ => u.wf
  | .pcadd u _ _ _ => u.wf
  | .br u _ _ _ => u.wf
  | .call u _ => u.wf
  | .jr u _ => u.wf
  | .jalr u _ => u.wf
  | .ret u => u.wf
  | .rep u _ => u.wf
  | .repi u _ _ => u.wf
  | .wfe u _ => u.wf
  | .waitt u _ _ => u.wf
  | .waitWake _ => true
  | .sev u _ => u.wf
  | .trap u _ => u.wf
  | .endw u => u.wf
  | .fence u _ => u.wf
  | .eret u _ => u.wf
  | .ldb u _ _ _ => u.wf
  | .ldbs u _ _ _ => u.wf
  | .ldh u _ _ _ => u.wf
  | .ldhs u _ _ _ => u.wf
  | .ldw u _ _ _ => u.wf
  | .ldws u _ _ _ => u.wf
  | .ldd u _ _ _ => u.wf
  | .stb u _ _ _ => u.wf
  | .sth u _ _ _ => u.wf
  | .stw u _ _ _ => u.wf
  | .std u _ _ _ => u.wf
  | .ldv u _ _ _ => u.wf
  | .stv u _ _ _ => u.wf
  | .lddx u _ _ _ => u.wf
  | .amoadd u _ _ _ => u.wf
  | .amoswp u _ _ _ => u.wf
  | .cas u _ _ _ => u.wf
  | .xfer u _ _ _ _ => u.wf
  | .xferDone _ _ _ => true
  | .inp u _ _ _ => u.wf
  | .outp u _ _ _ => u.wf
  | .ldc u _ _ _ => u.wf
  | .stc u _ _ _ => u.wf
  | .vadd u _ _ _ _ => u.wf
  | .vsub u _ _ _ _ => u.wf
  | .vaddsu u _ _ _ _ => u.wf
  | .vsubsu u _ _ _ _ => u.wf
  | .vmul u _ _ _ _ => u.wf
  | .vminu u _ _ _ _ => u.wf
  | .vmaxu u _ _ _ _ => u.wf
  | .vmin u _ _ _ _ => u.wf
  | .vmax u _ _ _ _ => u.wf
  | .vabsdu u _ _ _ _ => u.wf
  | .vand u _ _ _ => u.wf
  | .vor u _ _ _ => u.wf
  | .vxor u _ _ _ => u.wf
  | .vshli u _ _ _ _ => u.wf
  | .vshri u _ _ _ _ => u.wf
  | .vsari u _ _ _ _ => u.wf
  | .vcmpeq u _ _ _ _ => u.wf
  | .vcmpgtu u _ _ _ _ => u.wf
  | .vcmpgt u _ _ _ _ => u.wf
  | .vsel u _ _ _ _ => u.wf
  | .vbcst u _ _ _ => u.wf
  | .vget u _ _ _ _ => u.wf
  | .vrsum u _ _ _ => u.wf
  | .vunp u _ _ _ _ => u.wf
  | .budgetExpiry _ => true
  | .halt _ _ => true
  | .set _ _ _ => true
  | .clear _ _ _ _ => true
  | .cancel _ _ _ => true
  | .delayStart _ _ => true
  | .delayStop _ _ => true
  | .enable _ _ => true
  | .disable _ _ => true
  | .post _ _ => true
  | .taskPriorityWrite _ _ _ => true
  | .dispatch => true
  | .delayExpiry => true
  | .programUnloadDone _ _ => true
  | .memRequest _ requests _ => requests.all MemReq.wf
  | .refreshDue _ _ _ _ => true
  | .actTableClear _ => true
  | .stackTempRead _ _ => true
  | .memPatrolScrub line _ _ _ => decide (line < 2 ^ 32)
  | .trackingStep _ _ => true
  | .retrainStep _ => true
  | .retrainEnd _ margin _ => margin.all (fun m => decide (m < 256))
  | .migrationStep _ _ => true
  | .ctxInit _ _ _ _ _ => true
  | .ctxFeed _ _ _ _ _ => true
  | .ctxSet _ _ _ _ _ => true
  | .feedDone _ _ => true
  | .instanceReset _ => true
  | .shareWrite _ _ _ => true
  | .epochBoundary => true
  | .mbxPop _ => true
  | .mbxPush _ len _ => decide (len < 65536)
  | .eventSecondEnd => true
  | .mgtHello via _ => via.wf
  | .opStatus via _ => via.wf
  | .regRead via _ => via.wf
  | .regWrite via _ => via.wf
  | .eventRead via _ => via.wf
  | .eventSubscribe via _ => via.wf
  | .logRead via _ => via.wf
  | .telemetry via _ => via.wf
  | .modeService via _ => via.wf
  | .modeEnterMaintenance via _ => via.wf
  | .modeLeaveMaintenance via _ => via.wf
  | .modeEnterStandby via _ => via.wf
  | .modeLeaveStandby via _ found => via.wf && found.wf
  | .resetWarm via _ found => via.wf && found.wf
  | .resetCold via _ found _ => via.wf && found.wf
  | .imageStage via _ => via.wf
  | .activateFirmware via _ _ => via.wf
  | .activateStructure via _ badLanes mid => via.wf && badLanes.all (fun k => decide (k < 1024)) && mid.all (fun m => m.2.wf)
  | .activateBoth via _ _ badLanes mid => via.wf && badLanes.all (fun k => decide (k < 1024)) && mid.all (fun m => m.2.wf)
  | .bootSelect via _ => via.wf
  | .nsCreate via _ => via.wf
  | .nsDelete via _ => via.wf
  | .nsFormat via _ => via.wf
  | .nqnSet via _ => via.wf
  | .programLoad via _ => via.wf
  | .programUnload via _ => via.wf
  | .lock via _ => via.wf
  | .unlock via _ => via.wf
  | .lockExpiry => true
  | .keyMgrSet via _ => via.wf
  | .keyUnlock via _ => via.wf
  | .keyLoad via _ => via.wf
  | .keyGenerate via _ => via.wf
  | .sanitizeInstance via _ _ => via.wf
  | .sanitizeDevice via _ _ => via.wf
  | .svnCommit via _ => via.wf
  | .logCopy => true
  | .stewardMismatch _ _ found => found.wf
  | .stopDetect _ _ _ => true
  | .lifeTick => true
  | .lifeSave => true
  | .refclkLoss _ => true
  | .refclkValid _ => true
  | .refclkRevert => true
  | .sensorRead temps found _ => decide (temps.length = 24) && found.wf
  | .powerCapCheck deciwatts => decide (deciwatts < 65536)
  | .ptpLockLoss => true
  | .ptpRelock _ _ => true
  | .flashTemperatureDrift _ _ => true
  | .programTimeWindowExpiry => true
  | .memControllerEngineReset _ => true
  | .checkEngineReset _ => true
  | .undefinedOpcode u word => u.wf && (Machine.decodeSyl word).isNone
  | .unsupportedMgmtType via _ => via.wf
  | .pcieDataFetchDone _ _ => true
  | .controllerEnable _ _ => true
  | .tapInstruction code => decide (code < 256)

end Sys2Proof
end

