-- ==== Sys2Proof/Safety.lean ====
section
/-! DEFINITION. The terms in which claims about the block are made: what a command does, what a state keeps, and the forms
that every state should have. -/
namespace Sys2Proof.Machine

/-- The command completes: the device is then `e`, and the queue of waiting commands is as it was. -/
def Does (c : Instr) (s : State) (e : Dev) : Prop := exec c s = .next { s with dev := e }

/-- The command completes with a device of which `P` holds, and the queue of waiting commands is as it was. -/
def Ends (c : Instr) (s : State) (P : Dev → Prop) : Prop := ∃ e, Does c s e ∧ P e

/-- Device memory reads the same in both, byte by byte. -/
def SameMem (d e : Dev) : Prop := ∀ a, e.readByte a = d.readByte a

/-- Every field of the register file reads the same in both, but for those that `but` names. -/
def SameRegs (but : Fld → Nat → Bool) (d e : Dev) : Prop := ∀ f i, but f i = false → e.rd f i = d.rd f i

/-- Command `h` of an admin or an I/O queue, with this opcode, has come as far as `stage` and passes what every command is
checked for (R27, R237): its row runs it. -/
def Dev.ready (d : Dev) (h : Nat) (admin : Bool) (op stage : Nat) (c : HCmd) : Prop :=
  d.cmd h = some c ∧ d.isAdmin c = admin ∧ sqeOp c.sqe = op ∧ stage ≤ c.stage ∧ c.stage ≠ 3 ∧ d.answerDown c = false ∧
    c.clean admin = true

/-- The same for a command on a namespace `x` that its controller sees (R232). -/
def Dev.readyNs (d : Dev) (h op stage : Nat) (c : HCmd) (x : Namespace) : Prop :=
  d.ready h false op stage c ∧ d.nsOf c = some x ∧ x.kind ≤ 2

/-- The same for an admin command of a controller `k`. -/
def Dev.readyAdmin (d : Dev) (h op : Nat) (c : HCmd) (k : Ctrl) : Prop := d.ready h true op 2 c ∧ d.ctrl c.ctrl = some k

/-- Core `u.core` is about to execute the syllable `y`, alone in its bundle: the core runs, its pc may be fetched, no error is
met, and the syllable is legal (R283) and allowed in the core's mode (R305). -/
def Dev.about (d : Dev) (u : Bundle) (y : Syl) : Prop :=
  u.before = [] ∧ u.after = [] ∧ u.err = .none ∧ (d.core u.core).runs = true ∧
    d.fetchOk u.core (d.core u.core).pc.toNat = true ∧ (d.core u.core).sylLegal true y = true ∧ d.privFault u.core y = false

/-- The command executes the syllable `y` (R282): where its core is about to, the core's registers become what `f` makes of
them, nothing else changes, and the next bundle follows. -/
def Computes (c : Instr) (u : Bundle) (y : Syl) (f : PCore → PCore) : Prop :=
  ∀ s : State, s.dev.about u y →
    Does c s ((s.dev.setCore u.core (f (s.dev.core u.core))).goTo u.core ((s.dev.core u.core).pc.toNat + 4))

/-- Syllables that read and write registers only, and whose legality no register decides. -/
def Syl.plain : Syl → Bool
  | .alu .. | .cmp .. | .sel .. | .unary .. | .plog .. | .mfs .. | .mfp .. | .mtp .. | .alui .. | .shi .. | .cmpi .. | .movi ..
  | .movk .. | .pcadd .. | .vv .. | .vlog .. | .vsh .. | .vsel .. | .vbcst .. | .vget .. | .vrsum .. | .vunp .. => true
  | _ => false

/-- Do a thing so many times. -/
def times {α : Type} (f : α → α) : Nat → α → α
  | 0, x => x
  | n + 1, x => times f n (f x)

/-- A management request of this TYPE and body has come on a way that the device listens on, whole, new and with a header that
its session accepts (R406 to R411). -/
def Dev.asks (d : Dev) (via : Via) (msg : List Byte) (type : Nat) (b : List Byte) : Prop :=
  d.listens via = true ∧ msgGood msg = true ∧ msgType msg = type ∧ msgBody msg = b ∧
    d.mgt.replay.find? (fun p => p.1 == msgSeq msg) = none ∧ d.refusal msg = none

/-- The same for a long type no operation of which runs (R410). -/
def Dev.asksLong (d : Dev) (via : Via) (msg : List Byte) (type : Nat) (b : List Byte) : Prop :=
  d.asks via msg type b ∧ (d.submit via).opRuns type = false

/-- The answer with status 0 and data. -/
def Dev.says (d : Dev) (via : Via) (msg data : List Byte) : Dev := d.answerReq via msg ⟨0, data, 0⟩

/-- A long request begins: a new OP_ID, answered with status 1 (R410). -/
def Dev.begins (d : Dev) (via : Via) (msg : List Byte) (type : Nat) : Dev :=
  (((d.submit via).newOp type).2).answerReq via msg ⟨1, [], ((d.submit via).newOp type).1⟩

/-- The OP_ID of an operation that begins. -/
def Dev.opOf (d : Dev) (via : Via) (type : Nat) : Nat := ((d.submit via).newOp type).1

/-- An access of an agent to an I/O address meets register `r`, in block `b` and its copy, at index `i` (R8, R9, R405). A core
meets its own core-local window; the steward and register messages meet core 0's. -/
def Dev.meets (d : Dev) (ag : Agent) (write : Bool) (a : Nat) (b : Block) (copy : Nat) (r : RegDef) (i : Nat) : Prop :=
  (match ag with
    | .core c => d.ioFault c.val a write = false ∧ Sys2Proof.Machine.resolve c.val a = .reg b copy r i
    | _ => Sys2Proof.Machine.resolve 0 a = .reg b copy r i) ∧ d.gate ag b copy a = .open_

/-- The newest record of the event queue. -/
def Dev.newest (d : Dev) : Option EvRec := d.ev.queue.getLast?

/-- The device logged an event last: its code, its instance and its data. -/
def Dev.logged (d : Dev) (code inst : Nat) (data : List Byte) : Prop :=
  ∃ t q, d.newest = some ⟨t, q, code, severity code, inst, data⟩

/-- Fields of registers whose writing starts more than R11 says: an action, a pair's second half, or a field shown from
elsewhere. -/
def Fld.plainHead (f : Fld) : Bool :=
  !decide (f ∈ [.NET_PORT_CTRL_RETRAIN, .CAP_SW_TRIG_GO, .CDC_ENG_CTRL, .CDC_CTX_FREE_GO, .CDC_Q_CFG_ENABLE, .CDC_Q_SQ_TAIL,
    .CDC_Q_CQ_CQ_TAIL, .FLS_CH_CTRL_RETRAIN, .FLS_CARRIER_CTRL_CMD, .SRCH_CMD_GO, .UPD_CMD_GO, .CORE_EV_SET, .EFT_SIGNAL_OP,
    .EFT_POST, .EFT_TASK_CFG_STATE, .EFT_TASK_MASK, .CHK_CTX_CFG_INSTANCE, .CHK_CTX_CMD_GO, .INS_CTRL, .INS_SHARE_CODEC_PM,
    .INS_CORES_CORES_NOW, .INS_SLUICE, .INS_CAPACITY, .INS_QUOTA_GECKO, .INS_QUOTA_TASKS, .INS_QUOTA_CONN,
    .INS_QUOTA_STREAMS, .INS_MBX_CTRL_POP, .GKO_THROTTLE, .THM_CTRL_CAP_W, .SYS_GPIO_DIR]) &&
  (pairHi f).isNone && (pairLo f).isNone

/-- Does a write to the register do what R11 to R13 say of its fields and nothing more? -/
def RegDef.plain (r : RegDef) : Bool :=
  match r.flds with
  | f :: _ => f.plainHead
  | [] => false

/-- Is a presented value legal by the field's own range, whatever the device holds (R13)? -/
def Fld.takes (f : Fld) (v : Nat) : Bool :=
  (match f.range with
    | some (lo, hi) => decide (lo ≤ v ∧ v ≤ hi)
    | none => true) &&
  !decide (f ∈ [.MEM_PORT_CFG_CALM_PM, .DUR_GC_CFG_HIGH_PM, .DUR_GC_CFG_MAX_PM, .CORE_EXC_ECAUSE])

/-- The forms of the state that every step should keep: device memory is in canonical form. -/
def Dev.wf (d : Dev) : Prop := Memory.wf d.ram = true

end Sys2Proof.Machine
end

