-- ==== Sys2Proof/Certificates/Slice0/Obligations.lean ====
section
/-! DEFINITION. The statements for the provers. Each says what commands do to the device; its docstring names the rules of spec/
that it formalises. -/
open Sys2Proof Sys2Proof.Machine

/-- R11 to R13, REGISTER_WRITE to a register whose writing starts nothing else: every field takes what its access code and
its range say, RWL fields in Configuration alone; a reserved bit sets the block's RSVD_WRITE; no other field, and no byte of
memory, changes. -/
def Obligations.RegisterWrite : Prop :=
  ∀ (s : State) (ag : Agent) (addr w : W32) (b : Block) (copy : Nat) (r : RegDef) (i : Nat),
    s.dev.meets ag true addr.toNat b copy r i → r.plain = true → r.flds.Nodup →
    let v := fun f : Fld => bitsOf f.info.hi f.info.lo w.toNat
    let reserved := reservedBits r.flds w.toNat
    Ends (.registerWrite ag addr w) s (fun e =>
      (∀ f ∈ r.flds, (reserved = false ∨ f ≠ b.rsvd) →
        ((f.info.acc = .ro ∨ f.info.acc = .wo ∨ f.info.acc = .rwa) → e.rd f i = s.dev.rd f i) ∧
        (f.info.acc = .rw → f.takes (v f) = true → (f = .MEM_PORT_CFG_PANIC_EN → i < 128) → e.rd f i = v f) ∧
        (f.info.acc = .rwl → s.dev.rd .AVL_STATUS_MODE = 1 → f.takes (v f) = true → e.rd f i = v f) ∧
        (f.info.acc = .rwl → s.dev.rd .AVL_STATUS_MODE ≠ 1 → e.rd f i = s.dev.rd f i) ∧
        (f.info.acc = .rw1c → e.rd f i = (s.dev.rd f i - (s.dev.rd f i &&& v f)) % 2 ^ f.width) ∧
        (∀ lo hi, f.range = some (lo, hi) → ¬ (lo ≤ v f ∧ v f ≤ hi) → f.info.acc ≠ .rw1c → e.rd f i = s.dev.rd f i)) ∧
      (∀ g j, (g ∉ r.flds ∨ j ≠ i) → (g ≠ b.rsvd ∨ j ≠ copy) → e.rd g j = s.dev.rd g j) ∧
      (reserved = true → e.rd b.rsvd copy = 1 ∧ e.logged 0x0020 0 (packData [(4, addr.toNat)])) ∧
      SameMem s.dev e)

/-- R10, PAIR_LO_READ, PAIR_HI_READ and REGISTER_WRITE of a pair: a read of _LO gives the low word and latches the high word
for its agent; a read of _HI gives the latched word and releases it, or the current one; a write of _LO is held, and a write
of _HI writes both halves, or the high half alone. -/
def Obligations.RegisterPairs : Prop :=
  ∀ (s : State) (ag : Agent) (addr : W32) (b : Block) (copy : Nat) (r : RegDef) (i : Nat) (lo hi : Fld), pairHi lo = some hi →
    (s.dev.meets ag false addr.toNat b copy r i → r.flds = [lo] →
      let x : PairWord := ⟨agNum ag, lo, i, s.dev.word i [hi]⟩
      Does (.pairLoRead ag addr) s (({ s.dev with sys.pairs := dropPair s.dev.sys.pairs ag lo i ++ [x] } : Dev).send
        (.word (agNum ag) addr.toNat (s.dev.word i [lo])))) ∧
    (s.dev.meets ag false addr.toNat b copy r i → r.flds = [hi] →
      (∀ v, pairWord s.dev.sys.pairs ag lo i = some v →
        Does (.pairHiRead ag addr) s (({ s.dev with sys.pairs := dropPair s.dev.sys.pairs ag lo i } : Dev).send
          (.word (agNum ag) addr.toNat v))) ∧
      (pairWord s.dev.sys.pairs ag lo i = none →
        Does (.pairHiRead ag addr) s (s.dev.send (.word (agNum ag) addr.toNat (s.dev.word i [hi]))))) ∧
    (∀ w : W32, s.dev.meets ag true addr.toNat b copy r i → r.flds = [lo] → lo.info.acc = .rw →
      reservedBits [lo] w.toNat = false →
      let x : PairWord := ⟨agNum ag, lo, i, bitsOf lo.info.hi lo.info.lo w.toNat⟩
      Does (.registerWrite ag addr w) s { s.dev with sys.held := dropPair s.dev.sys.held ag lo i ++ [x] }) ∧
    (∀ w : W32, s.dev.meets ag true addr.toNat b copy r i → r.flds = [hi] → hi.info.acc = .rw → hi ≠ .CHK_CTX_VAL_HI →
      reservedBits [hi] w.toNat = false →
      let d : Dev := { s.dev with sys.held := dropPair s.dev.sys.held ag lo i }
      let high := bitsOf hi.info.hi hi.info.lo w.toNat
      (∀ low, pairWord s.dev.sys.held ag lo i = some low →
        Does (.registerWrite ag addr w) s ((d.wr lo low i).wr hi high i)) ∧
      (pairWord s.dev.sys.held ag lo i = none → Does (.registerWrite ag addr w) s (d.wr hi high i)))

/-- The model's choice (notes/assumptions/1): commands wait first in, first out. A step of a device whose queue begins with
a command runs exactly that command on the device with the queue's rest, and leaves the rest waiting. -/
def Obligations.StepRunsFront : Prop :=
  ∀ (c : Instr) (rest : List Instr) (d : Dev),
    step ⟨c :: rest, d⟩ = exec c ⟨rest, d⟩ ∧ ∀ t, exec c ⟨rest, d⟩ = .next t → t.pending = rest

/-- R9, R14 and R40, what reset leaves: no command waits, every field of a register holds its Reset value (0 where the spec
gives Image or Saved value: the model's choice, notes/assumptions/14), memory lists nothing and so is in canonical form, and
the device is in Bring-up. -/
def Obligations.ResetState : Prop :=
  State.reset.pending = [] ∧ (∀ f i, State.reset.dev.rd f i = f.reset i) ∧ (∀ a, State.reset.dev.readByte a = 0) ∧
    State.reset.dev.wf ∧ State.reset.dev.rd .AVL_STATUS_MODE 0 = 0 ∧ State.reset.dev.ev.queue = []

/-- R281 and R292: the word of a syllable decodes to that syllable, in every slot, with every operand at every value and
either stop bit; slot and stop bit read back, and setting the stop bit of a word without it gives the word with it. -/
def Obligations.SyllableRoundTrip : Prop :=
  ∀ (y : Syl) (stop : Bool), decodeSyl (y.encode stop) = some y ∧ slotOf (y.encode stop) = y.slot ∧
    stopOf (y.encode stop) = stop ∧ y.encode false ||| 0x80000000#32 = y.encode true

/-- R24 to R26, PARCEL_POISON, PARCEL_RESEND_ARRIVE and FLUME_ROUTE_SWITCH: a poisoned parcel is counted and waits for its
one repetition; the clean repetition is a transient fault; a repetition poisoned too is counted as lost and is a lasting
fault of the link; a stopped flume that has emptied takes its alternate route. R37, LANE_LOCK_LOSS, LANE_RETRY, RETRAIN and
WIDEN: a lane whose readaptation fails counts in FAILS and the port runs on what is left; a failed lane that fails again
counts once more; with the last failed lane adapted, 0x2192; a whole port that is narrow widens with 0x2193. -/
def Obligations.FabricAndLanes : Prop :=
  ((∀ (s : State) (n k : Nat) (op : FlowOp) (f : Flume), amFind n s.dev.sys.flumes = some f → f.down = false → k ∈ f.route →
    Does (.parcelPoison n k op) s
      (let e := ((s.dev.wr .SYS_FABRIC_STATUS_POISON_SEEN 1).cnt .SYS_FABRIC_POISON_CNT).raise 0x0030 [(2, n), (2, k)]
       { e with sys.poisoned := s.dev.sys.poisoned ++ [⟨n, k, op⟩] })) ∧
  (∀ (s : State) (n : Nat) (retry : Bool) (x : PoisonedParcel) (rest : List PoisonedParcel),
    takePoisoned n s.dev.sys.poisoned = some (x, rest) →
    Does (.parcelResendArrive n true retry) s ({ s.dev with sys.poisoned := rest }.transient (0x20000 + x.link) 0)) ∧
  (∀ (s : State) (n : Nat) (retry : Bool) (x : PoisonedParcel) (rest : List PoisonedParcel),
    takePoisoned n s.dev.sys.poisoned = some (x, rest) →
    Does (.parcelResendArrive n false retry) s
      ((((({ s.dev with sys.poisoned := rest }.wr .SYS_FABRIC_STATUS_POISON_SEEN 1).cnt .SYS_FABRIC_POISON_CNT).raise 0x0030
        [(2, n), (2, x.link)]).cnt .SYS_FLUME_LOSS_LOST).loseOp retry x.op |>.linkLasting x.link)) ∧
  (∀ (s : State) (n : Nat) (f : Flume), amFind n s.dev.sys.flumes = some f → f.stopped = true → f.switchTo = true →
    (∀ x ∈ s.dev.sys.poisoned, x.flume ≠ n) →
    Ends (.flumeRouteSwitch n) s (fun e =>
      amFind n e.sys.flumes = some { f with stopped := false, switchTo := false, onAlt := true } ∧
      (∀ m, m ≠ n → amFind m e.sys.flumes = amFind m s.dev.sys.flumes) ∧
      e.logged 0x0032 0 (packData [(2, n)]) ∧ e.regs = s.dev.regs ∧ SameMem s.dev e))) ∧
  ((∀ (s : State) (p : Fin 128) (j : Fin 8), (s.dev.lanes p).isSome → j.val ∈ s.dev.portLanes p →
    s.dev.rd .NET_PORT_STATUS_UP p ≠ 0 → s.dev.laneOk p j = true →
    Does (.laneLockLoss p j false) s
      (let e := (s.dev.cnt .NET_LANE_STATUS_FAILS (p * 8 + j)).setLane p j false
       if s.dev.laneRuns p j then e.bringPort p (p + j) else e.degrade 1 (p + j))) ∧
  (∀ (s : State) (p : Fin 128) (j : Nat), (s.dev.lanes p).isSome → s.dev.rd .NET_PORT_STATUS_UP p ≠ 0 →
    (s.dev.portLanes p).filter (fun j => !s.dev.laneOk p j) = [j] →
    Does (.laneRetry p 0) s (s.dev.cnt .NET_LANE_STATUS_FAILS (p * 8 + j)) ∧
    Does (.retrain p 0) s (s.dev.cnt .NET_LANE_STATUS_FAILS (p * 8 + j))) ∧
  (∀ (s : State) (p : Fin 128) (j : Nat) (ok : BitVec 8), (s.dev.lanes p).isSome → s.dev.rd .NET_PORT_STATUS_UP p ≠ 0 →
    s.dev.portNarrow p = false → (s.dev.portLanes p).filter (fun j => !s.dev.laneOk p j) = [j] → j < 8 → ok.getLsbD j = true →
    Does (.laneRetry p ok) s (((s.dev.setLane p j true).raise 0x2192 [(2, p)]).lanesBack) ∧
    Does (.retrain p ok) s (((s.dev.setLane p j true).raise 0x2192 [(2, p)]).lanesBack)) ∧
  (∀ (s : State) (p : Fin 128), (s.dev.lanes p).isSome → s.dev.portWhole p = true → s.dev.portNarrow p = true →
    Does (.widen p) s (((s.dev.bringPort p p).raise 0x2193 [(2, p)]).lanesBack)))

/-- R67, R74 to R77 and R86, the control messages of cameras on a port with KFSP service: a HELLO opens a session and is
answered with the version selected; an OPEN that nothing refuses binds the stream it is given and is answered with code 0;
an OPEN without a session is answered with code 1; a CLOSE unbinds its stream and is answered; a HEARTBEAT refreshes the
stream's idle time; a well-formed CLOSE_ACK changes nothing more. -/
def Obligations.CameraControl : Prop :=
  ∀ (s : State) (y : Arrival) (a : NetAddr) (bs : List Byte) (d : Dev), s.dev.receive y bs = (d, true) →
    d.laneFlag y.port 3 = true → d.portUp y.port = true →
    (∀ v : Nat, d.ctrlOk y.port bs = true → beAt 1 1 bs = 0x20 → beAt 6 2 bs = 16 → beAt 4 2 bs = 0xFFFF → beAt 8 4 bs = 0 →
      beAt 18 2 bs ≤ 7 → beAt 0 1 bs = beAt 17 1 bs → commonVersion (beAt 16 1 bs) (beAt 17 1 bs) = some v →
      (∀ x ∈ d.cap.sessions, ¬(x.port = y.port ∧ x.src.v6 = a.v6 ∧ x.src.ip = a.ip)) →
      Does (.hello y a bs) s
        (let id := d.cap.nextSession + 1
         let opts := grantedOpts v (beAt 18 2 bs)
         let e : Dev := { d with cap.sessions := d.cap.sessions ++ [⟨id, y.port, a, v, opts, beAt 20 4 bs, beAt 2 2 bs, []⟩],
                                 cap.nextSession := id }
         e.sendCtrl y.port a
           (e.ctrlMsg y.port v 0x21 (beAt 2 2 bs) 0xFFFF id (beBytes 1 v ++ beBytes 1 0 ++ beBytes 2 opts ++ zeros 4)))) ∧
    (d.ctrlOk y.port bs = true → beAt 1 1 bs = 0x22 → beAt 6 2 bs = 32 → beAt 4 2 bs = 0xFFFF → beAt 35 1 bs = 0 →
      beAt 34 1 bs ≤ 1 → allZero (sliceB 42 6 bs) = true → pixOk (beAt 20 4 bs) = true →
      (d.sessionOf y.port a = none →
        Does (.openStream y a bs) s
          (let e := d.sendCtrl y.port a (d.ctrlMsg y.port (beAt 0 1 bs) 0x23 (beAt 2 2 bs) 0xFFFF (beAt 8 4 bs)
             (beBytes 1 1 ++ zeros 1 ++ beBytes 2 0xFFFF ++ beBytes 4 0 ++ beBytes 4 0 ++ zeros 4))
           e.raiseI (e.portOwner y.port) 0x2103 [(2, y.port), (2, 1)])) ∧
      (∀ (x : Session) (n : Nat), d.sessionOf y.port a = some x → x.id = beAt 8 4 bs → x.ver = beAt 0 1 bs →
        x.opens.find? (fun o => o.1 == beAt 2 2 bs) = none → d.flowPart (d.portOwner y.port) = none →
        d.openRefusal y.port a (d.portOwner y.port) x (d.openStream y.port a x bs) = none → d.pickStream y.port = some n →
        Does (.openStream y a bs) s
          (let e := d.bind n (d.portOwner y.port) x.ver (d.openStream y.port a x bs)
           let slots := e.ringSlots n
           let e := e.raiseI (d.portOwner y.port) 0x2101 [(2, n), (1, d.portOwner y.port), (2, y.port)]
           let m := e.ctrlMsg y.port x.ver 0x23 (beAt 2 2 bs) n (beAt 8 4 bs) (beBytes 1 0 ++ zeros 1 ++ beBytes 2 n ++
             beBytes 4 (d.openStream y.port a x bs).repairUs ++ beBytes 4 slots ++ zeros 4)
           (e.noteOpen x.id (beAt 2 2 bs) m).sendCtrl y.port a m))) ∧
    (∀ (n : Nat) (x : Stream), d.ctrlStream y.port a 0x25 4 bs = some (n, x) → beAt 16 1 bs ≤ 5 →
      allZero (sliceB 17 3 bs) = true →
      Does (.close y a bs) s
        (let e := d.unbind n (beAt 16 1 bs)
         e.sendCtrl y.port a (e.ctrlMsg y.port (beAt 0 1 bs) 0x26 (beAt 2 2 bs) n x.session (zeros 4)))) ∧
    (∀ (n : Nat) (x : Stream), d.ctrlStream y.port a 0x27 0 bs = some (n, x) → 0x13 ≤ d.rd .CAP_STREAM_CFG_VERSION n →
      Does (.heartbeat y a bs) s (d.modStream n (fun x => { x with lastTraffic := d.now, idle := false }))) ∧
    (d.ctrlOk y.port bs = true → beAt 1 1 bs = 0x26 → beAt 6 2 bs = 4 → allZero (sliceB 16 4 bs) = true →
      (d.sessionOf y.port a).isSome → Does (.closeAck y a bs) s d)

/-- R73 and R78 to R80, a KFSP data packet on a port whose receive check is off: of no stream, it is classified and counted
as unbound; with a wrong format, it is counted in PKT_FORMAT; refused by a sluice, in SLUICE_DROP; else its frame takes it.
A packet that its frame has already only counts in PKT_DUP. -/
def Obligations.CameraData : Prop :=
  ∀ (s : State) (y : Arrival) (a : NetAddr) (raw : Bool) (bs : List Byte) (d : Dev), s.dev.receive y bs = (d, true) →
    d.laneFlag y.port 3 = true → d.laneFlag y.port 0 = false →
    (d.flowOf y.port a raw (beAt 4 2 bs % 4096) = none → d.flowPart (d.portOwner y.port) = none →
      Does (.kfspDataPacket y a raw bs) s (d.cnt .CAP_PORT_DROP_UNBOUND y.port)) ∧
    (∀ (n : Nat) (x : Stream), d.flowOf y.port a raw (beAt 4 2 bs % 4096) = some (n, x) →
      let e := d.modStream n (fun x => { x with lastTraffic := d.now, idle := false })
      (d.formatOk n x bs = false → Does (.kfspDataPacket y a raw bs) s (e.cnt .CAP_STREAM_CNT_PKT_FORMAT n)) ∧
      (d.formatOk n x bs = true →
        ((e.letPass n y.wire).2 = false →
          Does (.kfspDataPacket y a raw bs) s ((e.letPass n y.wire).1.cnt .CAP_STREAM_CNT_SLUICE_DROP n)) ∧
        (∀ e1 e2 : Dev, e.letPass n y.wire = (e1, true) → e1.letPass (4096 + e.streamOwner n) y.wire = (e2, true) →
          e2.ingestDown y.port n = false →
          let k : Packet := ⟨beAt 2 2 bs, beAt 8 4 bs, beAt 0xC 4 bs, beAt 0x10 8 bs, sliceB 32 (beAt 0x1C 2 bs) bs⟩
          Does (.kfspDataPacket y a raw bs) s (e2.assemble n k) ∧
          (∀ (z : Stream) (f : Frame), e2.stream n = some z → z.filling.find? (fun f => f.num == k.num) = some f →
            z.frame f.id = some f → k.idx ∈ f.placed →
            Does (.kfspDataPacket y a raw bs) s (e2.cnt .CAP_STREAM_CNT_PKT_DUP n)))))

/-- R262, R263 and R490, ETHERNET_FRAME and TOKEN_REFILL: a frame for the port that no classifier entry matches is delivered
to the port's owner; a frame for another station without a forwarding entry counts in FWD_MISS, and with one to a port that
is up it is sent there; at a refill every bucket gains what the boundaries since the last give it. R77, R81 and R94, what
time does to a stream: at the NAK timeout one further NAK goes out; at the repair deadline the frame is committed incomplete
for reason 1; an idle stream has its frames committed for reason 3 with 0x2170, and later is closed for reason 1; at the
budget instant the default verdict applies. -/
def Obligations.NetworkAndTimers : Prop :=
  ((∀ (s : State) (y : Arrival) (dmac : BitVec 48) (vlan : BitVec 12) (tagged : Bool) (l3 : BitVec 2) (proto : BitVec 8)
      (dport sport : BitVec 16) (a : NetAddr) (bs : List Byte) (d : Dev), s.dev.receive y bs = (d, true) →
    let key := dmac.toNat * 2 ^ 80 + vlan.toNat * 2 ^ 68 + b2n tagged * 2 ^ 67 + y.port * 2 ^ 60
    (d.flowPart (d.portOwner y.port) = none →
      Does (.ethernetFrame y true dmac vlan tagged l3 proto dport sport a bs) s
        (d.send (.deliver (d.portOwner y.port) false bs))) ∧
    (d.hgPart 1 0 = none →
      Does (.ethernetFrame y false dmac vlan tagged l3 proto dport sport a bs) s (d.cnt .GKO_CNT_FWD_MISS)) ∧
    (∀ r part pos : Nat,
      let e := d.countSearch (d.hgPart 1 0) 1
      e.hgSearch (e.hgPart 1 0) key = some (r, part, pos) → bitsOf 31 30 r = 0 → e.portUp (bitsOf 29 23 r) = true →
      Does (.ethernetFrame y false dmac vlan tagged l3 proto dport sport a bs) s
        ((e.send (.frame (bitsOf 29 23 r) bs)).sent (bitsOf 29 23 r) y.wire))) ∧
  (∀ s : State, s.dev.cap.lastRefill < s.dev.now / 100 →
    Does .tokenRefill s
      { (s.dev.refillAll (s.dev.now / 100 - s.dev.cap.lastRefill) s.dev.sluices) with cap.lastRefill := s.dev.now / 100 })) ∧
  (∀ (s : State) (n : Fin 4096) (k : BitVec 32) (x : Stream), s.dev.stream n = some x →
    (∀ (f : Frame) (t : Nat), x.frames.find? (fun f => f.num == k.toNat && f.state == 1) = some f →
      (f.repair = some (t, 1) → t + s.dev.rd .CAP_REPAIR_NAK_TIMEOUT_US * 1000 ≤ s.dev.now → f.placed.length ≠ f.expected →
        Does (.nakTimeout n k) s
          ((s.dev.setFrame n f.id (fun f => { f with repair := some (t, 2) })).sendNak n x f)) ∧
      (∀ naks, f.repair = some (t, naks) → t + x.repairUs * 1000 ≤ s.dev.now →
        Does (.repairDeadline n k) s (s.dev.commitFrame n f.id 1 true))) ∧
    (x.bound = true → x.idle = false → x.lastTraffic + s.dev.rd .CAP_TIMING_IDLE_MS * 1000000 ≤ s.dev.now →
      Does (.streamIdle n) s
        (let e := (s.dev.commitAll n 3 true).modStream n (fun x => { x with idle := true })
         e.raiseI (e.streamOwner n) 0x2170 [(2, n)])) ∧
    (x.bound = true → x.idle = true → x.lastTraffic + s.dev.rd .CAP_TIMING_IDLE_MS * 11000000 ≤ s.dev.now →
      Does (.streamIdleClose n) s ((s.dev.sendClose n x 1).unbind n 1)) ∧
    (∀ f : Frame, x.frames.find? (fun f => f.num == k.toNat && f.pendingVerdict) = some f →
      f.commitAt + s.dev.rd .CAP_STREAM_FILTER_BUDGET_US n * 1000 ≤ s.dev.now →
      Does (.verdictBudgetExpiry n k) s
        (let e := s.dev.cnt .CAP_STREAM_CNT_VERDICT_LATE n
         let e := e.raiseSec (e.streamOwner n) 0x2150 n [(2, n), (4, f.num)]
         e.knowVerdict n f.id (e.defaultVerdict n) (fun f => { f with flags := f.flags ||| 32 }))))

/-- R95, R96, R98 and R472, trigger pins and windows: an edge that the pin's MODE names is stamped and debounced; when its
debounce has passed it is submitted to its groups; a second's boundary starts the pulses of outputs in MODE 2, and a pulse
ends after its width; a window past its guard has no open part left. -/
def Obligations.TriggerPins : Prop :=
  (∀ (s : State) (pin : Nat) (rising : Bool) (r : List Byte), s.dev.trigRec pin = some r →
    (leAt 1 1 r = 1 ∧ rising = true ∨ leAt 1 1 r = 2 ∧ rising = false ∨ leAt 1 1 r = 3) →
    s.dev.cap.edges.any (fun e => e.pin == pin && decide (s.dev.now < e.until_)) = false →
    Does (.triggerInputEdge pin rising) s
      { s.dev with cap.edges := s.dev.cap.edges ++ [⟨pin, s.dev.now, s.dev.now + leAt 4 4 r, leAt 8 8 r⟩] }) ∧
  (∀ (s : State) (pin : Nat) (e : Edge), s.dev.cap.edges.find? (fun e => e.pin == pin && decide (e.until_ ≤ s.dev.now)) = some e →
    Does (.triggerDebounceExpiry pin) s
      (({ s.dev with cap.edges := s.dev.cap.edges.erase e } : Dev).submitMask e.groups 0 e.t (List.range 64))) ∧
  (∀ s : State, s.dev.cap.lastSecond < s.dev.second →
    Does .trigOutSecondPulse s
      (({ s.dev with cap.lastSecond := s.dev.second } : Dev).pulseOutputs (fun r => leAt 1 1 r == 2) (s.dev.secRecs 8))) ∧
  (∀ (s : State) (k t : Nat), amFind k s.dev.cap.pulses = some t → t ≤ s.dev.now →
    Does (.trigOutPulseEnd k) s (({ s.dev with cap.pulses := amDel k s.dev.cap.pulses } : Dev).send (.pin 0 k false))) ∧
  (∀ (s : State) (w : Nat) (x : TrigWindow), s.dev.window w = some x → x.group.isSome →
    x.stop + s.dev.rd .CAP_TIMING_CLOSE_GUARD_MS * 1000000 < s.dev.now →
    Does (.windowCloseGuard w) s ((s.dev.setWin w (fun x => { x with open_ := [] })).checkClosed w))

/-- R95 to R99 and R101, SW_TRIG: a group that is disabled or has no armed member refuses the trigger, which is counted in
IGNORED with 0x2131; an enabled group with armed members and no open window opens one with the next identifier, from PRE_US
before the trigger's time to POST_US after it, and counts it. -/
def Obligations.SoftwareTrigger : Prop :=
  ∀ (s : State) (g : Fin 64) (t : Nat), t < 2 ^ 64 →
    (if s.dev.rd64 .CAP_SW_TRIG_TIME_LO .CAP_SW_TRIG_TIME_HI 0 = 0 then s.dev.now
      else s.dev.rd64 .CAP_SW_TRIG_TIME_LO .CAP_SW_TRIG_TIME_HI 0) = t →
    let d := s.dev
    let inst := d.rd .CAP_TG_CFG_INSTANCE g
    (d.rd .CAP_TG_CFG_ENABLE g = 0 ∨ d.membersOf g = [] →
      Does (.swTrig g) s
        ((d.cnt .CAP_TG_STATUS_IGNORED g).raiseI inst 0x2131 [(1, g), (2, Config.causeCode (0x2131 * 256 + 4)), (8, t)])) ∧
    (d.rd .CAP_TG_CFG_ENABLE g = 1 → d.membersOf g ≠ [] → t ≤ d.now + 10000000000 → amGet 0 g.val d.cap.lastT = 0 →
      (∀ x ∈ d.cap.windows, x.group ≠ some g.val ∨ x.closed = true) →
      (∀ x ∈ d.cap.windows, x.id ≠ d.rd .CAP_WINDOW_NEXT) → d.rd .CAP_WINDOW_NEXT < 0xFFFFFFFE →
      Ends (.swTrig g) s (fun e =>
        e.rd .CAP_TG_STATUS_OPEN g = 1 ∧ e.rd .CAP_WINDOW_NEXT = d.rd .CAP_WINDOW_NEXT + 1 ∧
        e.rd .CAP_TG_STATUS_WINDOWS g = satAdd (2 ^ Fld.CAP_TG_STATUS_WINDOWS.width - 1) (d.rd .CAP_TG_STATUS_WINDOWS g) 1 ∧
        (∃ x ∈ e.cap.windows, x.id = d.rd .CAP_WINDOW_NEXT ∧ x.group = some g.val ∧ x.t = t ∧
          x.start = t - d.rd .CAP_TG_PRE g * 1000 ∧ x.stop = t + d.rd .CAP_TG_POST g * 1000 ∧ x.members = d.membersOf g ∧
          x.closed = false) ∧
        (∀ y ∈ d.cap.windows, y ∈ e.cap.windows)))

/-- R102 and R104, DRAIN_DISPATCH and DRAIN_RESUME: the frame that goes next takes the next CSEQ, leaves the queue and has
its compress job posted on codec queue 0; one whose stream's drain has a cause to stop pauses it; a pause whose cause has
cleared ends, and the stream's frozen frames enter the queue again. -/
def Obligations.DrainCommands : Prop :=
  (∀ (s : State) (n id c : Nat) (x : Stream) (f : Frame), s.dev.rd .AVL_STATUS_MODE ≠ 6 → s.dev.drainPick = some (n, id) →
    s.dev.queued (n, id) = some (x, f) →
    (s.dev.drainCause n x = some c → c ≠ 4 → c ≠ 6 → Does .drainDispatch s (s.dev.pauseDrain n c)) ∧
    (∀ e : Dev, s.dev.drainCause n x = none →
      s.dev.postJob ⟨0, jobDesc 0 2 1 0 x.pixfmt x.width x.height 0 (x.slotAddr f.slot) x.bytes 0 (s.dev.stagingBase 5)
        (2 * x.bytes + 65536) (s.dev.dur.cseqNext % 2 ^ 32) (s.dev.streamOwner n), s.dev.streamOwner n,
        s.dev.gen (s.dev.streamOwner n), .drain n id, none⟩ = (e, true) →
      Does .drainDispatch s
        (let t : Txn := ⟨s.dev.dur.cseqNext, s.dev.streamOwner n, s.dev.gen (s.dev.streamOwner n), .frame n id x.nsid 0 0,
           [], [], 1, 0⟩
         let e := e.takeCseq.2
         let e := { e with dur.txns := e.dur.txns ++ [t], cap.queue := e.cap.queue.filter (fun p => p != (n, id)) }
         let e := e.wr .CAP_DRAIN_DEPTH e.cap.queue.length
         ((e.noteFrame n id (fun f => { f with cseq := some s.dev.dur.cseqNext })).charge 2 (s.dev.streamOwner n)
           (e.dieTime x.bytes)).refillDrain))) ∧
  (∀ (s : State) (n : Fin 4096) (x : Stream) (c : Nat), s.dev.stream n = some x → x.paused = some c →
    s.dev.causeCleared n c x = true →
    Does (.drainResume n) s
      ((x.frames.filter (fun f => f.state == 3 && !f.queued)).foldl (fun d f => d.enqueueDrain n f.id)
        (s.dev.modStream n (fun x => { x with paused := none }))))

/-- R96, R101, R106 and R107, CAPTURE_ARM, CAPTURE_DISARM and FREEZE_WINDOW on a bound stream of the controller's instance:
arming in MODE 1 enters the settings and opens a standing window; disarming returns the stream to BOUND and it leaves its
windows; Freeze Window completes with the window's identifier and its member count, with status 0x80 or 0x82 where no member
is armed or the group is disabled, and with 0x86 where the time is refused. -/
def Obligations.CaptureArming : Prop :=
  ∀ (s : State) (h : Nat) (c : HCmd),
    let d := s.dev
    let w0 := cdw 10 c.sqe
    let w1 := cdw 11 c.sqe
    let n := bitsOf 11 0 w0
    (∀ x : Namespace, d.ready h false 0x81 2 c → bitsOf 31 30 w0 = 1 → bitsOf 23 12 w0 = 0 → bitsOf 27 16 w1 = 0 →
      10 ≤ cdw 12 c.sqe → cdw 12 c.sqe ≤ 10000 → cdw 13 c.sqe = 0 → cdw 14 c.sqe = 0 → d.streamState n = 1 →
      d.streamOwner n = c.inst → d.nsOf c = some x → x.kind = 1 → bitOf 31 w1 = false →
      Does (.captureArm h) s
        ((((d.modStream n (fun x => { x with standing := none })).applyArm n 1 (bitsOf 29 24 w0) 0 (bitsOf 30 29 w1)
          (bitsOf 28 28 w1) (bitsOf 15 0 w1) (cdw 12 c.sqe) c.key).standWindow n).succeed h 0 0)) ∧
    (d.ready h false 0x82 2 c → w0 < 4096 → 2 ≤ d.streamState n → d.streamOwner n = c.inst →
      Does (.captureDisarm h) s
        ((((d.leaveWindows n).wr .CAP_STREAM_CFG_STATE 1 n).modStream n (fun x => { x with standing := none })).succeed h 0 0)) ∧
    (∀ (t : Nat) (e : Dev) (r : TrigResult), d.ready h false 0x85 2 c → bitsOf 30 6 w0 = 0 →
      d.rd .CAP_TG_CFG_INSTANCE (bitsOf 5 0 w0) = c.inst → t = cdw 11 c.sqe + 2 ^ 32 * cdw 12 c.sqe → t ≠ 0 →
      d.submitTrigger (bitsOf 5 0 w0) 3 t = (e, r) →
      (r = .refused 0 → Does (.freezeWindow h) s (e.capStatus h 0x82)) ∧
      (r = .refused 1 → Does (.freezeWindow h) s (e.capStatus h 0x80)) ∧
      (r = .refused 2 → Does (.freezeWindow h) s (e.capStatus h 0x86)) ∧
      (∀ w ms, r = .accepted w ms → bitOf 31 w0 = false →
        Does (.freezeWindow h) s (e.succeed h w (ms % 2 ^ 16))))

/-- R105, R108 and R109, FRAME_QUERY, QUERY_NEXT_MATCH, QUERY_HANDLE_EXPIRY and FRAME_READ: a query opens a handle over the
positions that match; Query Next Match returns up to MAX records and ends the handle with the last; an idle handle goes; a
frame in its ring is returned with its descriptor. -/
def Obligations.FrameQueries : Prop :=
  ∀ (s : State) (h : Nat) (c : HCmd),
    let d := s.dev
    (∀ (e : Dev) (hits : List Nat) (multi : Bool), d.ready h false 0x86 1 c → 64 ≤ c.data.length →
      let q := c.data.take 64
      leAt 0 2 q = 0xFFFF → leAt 2 2 q < 8 → leAt 0x0C 4 q = 0 → leAt 0x26 2 q = 0 → allZero (sliceB 0x2E 18 q) = true →
      leAt 0x10 8 q ≤ leAt 0x18 8 q → (d.cap.handles.filter (fun p => p.2.inst == c.inst)).length < 64 → c.stage = 2 →
      d.queryHits c.inst q = (e, hits, multi) →
      Does (.frameQuery h) s
        (({ e with cap.handles := amPut e.cap.nextHandle (⟨c.inst, hits, e.now⟩ : QueryHandle) e.cap.handles,
                   cap.nextHandle := (e.cap.nextHandle + 1) % 2 ^ 32 } : Dev).succeed h e.cap.nextHandle (b2n multi))) ∧
    (∀ q : QueryHandle, d.ready h false 0x87 2 c → 1 ≤ cdw 11 c.sqe → cdw 11 c.sqe ≤ 256 →
      amFind (cdw 10 c.sqe) d.cap.handles = some q → q.inst = c.inst → d.now < q.at_ + 10000000000 →
      let recs := (q.left.take (cdw 11 c.sqe)).map (fun p => (amGet [] c.inst d.cap.catalog).getD p [])
      (q.left.length ≤ cdw 11 c.sqe →
        Does (.queryNextMatch h) s
          (({ d with cap.handles := amDel (cdw 10 c.sqe) d.cap.handles } : Dev).answer c recs.flatten recs.length 1)) ∧
      (cdw 11 c.sqe < q.left.length →
        Does (.queryNextMatch h) s
          (let q1 : QueryHandle := { q with left := q.left.drop (cdw 11 c.sqe), at_ := d.now }
           ({ d with cap.handles := amPut (cdw 10 c.sqe) q1 d.cap.handles } : Dev).answer c recs.flatten recs.length 0))) ∧
    (∀ q : QueryHandle, amFind h d.cap.handles = some q → q.at_ + 10000000000 ≤ d.now →
      Does (.queryHandleExpiry h) s { d with cap.handles := amDel h d.cap.handles }) ∧
    (∀ (x : Stream) (f : Frame),
      let w := cdw 10 c.sqe
      let n := bitsOf 11 0 w
      d.ready h false 0x8A 2 c → bitsOf 31 19 w = 0 → bitsOf 15 12 w = 0 → cdw 12 c.sqe % 4096 = 0 →
      64 + cdw 13 c.sqe ≤ 8388608 → d.stream n = some x → d.streamOwner n = c.inst →
      x.frames.filter (fun f => f.num == cdw 11 c.sqe && decide (2 ≤ f.state ∧ f.state ≤ 4)) = [f] →
      (amGet [] c.inst d.cap.catalog).filter (fun r => leAt 0x0C 2 r == n && leAt 8 4 r == cdw 11 c.sqe) = [] →
      bitOf 6 f.flags = false → (bitOf 16 w = true → f.state ≠ 2) → (f.missing = 0 ∨ bitOf 17 w = true) →
      Does (.frameRead h) s
        (d.answer c (frameDesc n c.inst x f ++
          (if bitOf 18 w then [] else sliceB (cdw 12 c.sqe) (cdw 13 c.sqe) (d.readMem (x.slotAddr f.slot) x.bytes))) 0 0))

/-- R110, R131 to R133, R143 and R145, the codec queues: a tail write that the queue has room for is taken, one that it has
not counts in FULL_CNT; a head write frees records; a job that is due starts on the lowest idle engine, and one whose
descriptor breaks a rule ends with CDC_DESC_BAD; an engine reset runs its job once more on another engine; a context slot is
freed. -/
def Obligations.CodecQueues : Prop :=
  ∀ s : State,
    let d := s.dev
    (∀ (q : Fin 64) (w : BitVec 32),
      let t := bitsOf 9 0 w.toNat
      d.rd .CDC_Q_CFG_ENABLE q = 1 → t < d.qDepth q → d.rd .INS_STATUS_RESET_BUSY (d.rd .CDC_Q_CFG_INSTANCE q) = 0 →
      (d.qHeld q + (t + d.qDepth q - d.rd .CDC_Q_SQ_TAIL q) % d.qDepth q ≤ d.qDepth q - 1 →
        Does (.cdcQSqTailWrite q w) s
          (({ d with cdc.fullEpisode := d.cdc.fullEpisode.filter (· != q.val) } : Dev).wr .CDC_Q_SQ_TAIL t q)) ∧
      (d.qDepth q - 1 < d.qHeld q + (t + d.qDepth q - d.rd .CDC_Q_SQ_TAIL q) % d.qDepth q → q.val ∈ d.cdc.fullEpisode →
        Does (.cdcQSqTailWrite q w) s (d.cnt .CDC_Q_SQ_HEAD_FULL_CNT q))) ∧
    (∀ (q : Fin 64) (w : BitVec 32), bitsOf 9 0 w.toNat < d.qDepth q →
      Does (.cqHeadWrite q w) s (d.wr .CDC_Q_CQ_CQ_HEAD (bitsOf 9 0 w.toNat) q)) ∧
    (∀ e q : Nat, d.idleEngine none = some e → d.pickQueue = some q →
      amFind (q * 1024 + d.rd .CDC_Q_SQ_HEAD_HEAD q) d.cdc.jobs = none →
      let h := d.rd .CDC_Q_SQ_HEAD_HEAD q
      let i := d.qInstance q
      let j : Job := ⟨q, d.readMem (d.sqAddr q h) 64, i, d.gen i, .program, none⟩
      let d1 := ({ d with cdc.jobs := amDel (q * 1024 + h) d.cdc.jobs } : Dev).wr .CDC_Q_SQ_HEAD_HEAD ((h + 1) % d.qDepth q) q
      (descFault q j.desc = none →
        Does .jobDispatch s
          (let d2 := (d1.showJob e j).charge 0 i (jobTime j.desc)
           ({ d2 with cdc.engines := amPut e ⟨j, d2.resumableNow j, false⟩ d2.cdc.engines } : Dev).pumpReads)) ∧
      (∀ o, descFault q j.desc = some o →
        Does .jobDispatch s
          (((d1.raiseI i 0x3007 [(2, q), (4, dTag j.desc), (2, o)]).recordJob j e 0 (jobEnds stDescBad none) none).pumpReads))) ∧
    (∀ (e : Fin 32) (r : Running) (k : Nat), amFind e.val d.cdc.engines = some r →
      ((d.freeEngine e).wr .CDC_ENG_STATUS_RSVD_WRITE 0 e).idleEngine (some e) = some k →
      Does (.engReset e) s
        (let d1 := (d.freeEngine e).wr .CDC_ENG_STATUS_RSVD_WRITE 0 e
         ({ d1 with cdc.engines := amPut k { r with rerun := true } d1.cdc.engines } : Dev).showJob k r.job)) ∧
    (∀ k : Fin 256, Does (.ctxFree k) s (d.setCtxs (amDel k d.cdc.ctxs)))

/-- R134 and R137, JOB_COMPLETE of a job of a program without RESUME: an attempt that the engine does not fail is counted,
its output written and its completion record written with its status; an attempt that fails with a retried status and then
succeeds is a transient fault of the engine; one that fails otherwise is a lasting fault and ends with CDC_ENGINE_FAULT.
R222, SUSPECT_CLEAR: a resource for which no lasting fault falls in the window any more is not suspect. -/
def Obligations.CodecCompletion : Prop :=
  (∀ (s : State) (e : Fin 32) (run : Running), amFind e.val s.dev.cdc.engines = some run → run.job.purpose = .program →
    dResume run.job.desc = false →
    let d := s.dev
    let j := run.job
    let r := d.runJob run []
    let fallback := 2 * b2n (r.encoded.any (·.fallback))
    r.ctx = none →
    (retried r.status = false → r.status ≠ stContextBad →
      Does (.jobComplete e none none []) s
        (((((d.freeEngine e).countJob e j.desc r).writeOutput j r)).recordJob j e (b2n run.rerun + fallback) r none)) ∧
    (∀ (f : JobFault) (k : Nat), retried f.status = true → d.idleEngine (some e) = some k → r.status = stDone →
      Does (.jobComplete e (some f) none []) s
        (((((((d.cnt .CDC_ENG_FAULTS_TRANSIENT e).raise 0x3004 [(2, e), (1, f.status)]).freeEngine e).countJob k j.desc r).writeOutput j
          r)).recordJob j k (1 + fallback) r none)) ∧
    (∀ (f g : JobFault) (k : Nat), retried f.status = true → d.idleEngine (some e) = some k → g.status ≠ stDone →
      g.status ≠ f.status →
      Does (.jobComplete e (some f) (some g) []) s
        (let x : JobResult := { r with status := stEngineFault, failed := some g.block, ctx := none }
         let d1 := d.engineLasting e
         let d2 := d1.raise 0x3005 [(2, e), (1, f.status), (4, (amGet [] e.val d1.cdc.lastingAt).length)]
         (((d2.freeEngine e).countJob k j.desc x).writeOutput j x).recordJob j k (1 + fallback) x none))) ∧
  (∀ (s : State) (k : Fin 32),
    let d := s.dev
    (∀ l, Ends (.suspectClear (.link l) k) s (fun e => l ∉ e.sys.suspectLinks ∧ SameMem d e)) ∧
    (∀ c, d.recent (d.rd .AVL_RETIRE_CFG_FAULT_WINDOW_H) (d.core c).lastingAt = [] →
      Ends (.suspectClear (.core c) k) s (fun e => e.rd .CORE_STATUS_SUSPECT c = 0 ∧
        SameRegs (fun f _ => f == .CORE_STATUS_SUSPECT) d e ∧ SameMem d e)) ∧
    (∀ c, d.recent (d.rd .CDC_POOL_CFG_FAULT_WINDOW_H) (amGet [] c d.cdc.lastingAt) = [] →
      Ends (.suspectClear (.codec c) k) s (fun e => e.rd .CDC_ENG_STATUS_SUSPECT c = 0 ∧
        SameRegs (fun f _ => f == .CDC_ENG_STATUS_SUSPECT) d e ∧ SameMem d e)) ∧
    (∀ c, d.recent (d.rd .FLS_RETIRE_CFG_FAULT_WINDOW_H) (d.die c k).lastingAt = [] →
      Ends (.suspectClear (.flash c) k) s (fun e => (e.die c k).suspect = false ∧ (e.die c k).lastingAt = [] ∧
        SameRegs (fun f _ => f == .FLS_CH_STATUS_SUSPECT) d e ∧ SameMem d e)) ∧
    (∀ c, d.recent (d.rd .MEM_RETIRE_CFG_FAULT_WINDOW_H) (amGet [] c d.mem.lastingAt) = [] →
      Ends (.suspectClear (.memory c) k) s (fun e => e.rd .MEM_CH_STATUS_SUSPECT c = 0 ∧
        SameRegs (fun f _ => f == .MEM_CH_STATUS_SUSPECT) d e ∧ SameMem d e)) ∧
    (∀ c, d.recent 24 (amGet [] c d.chk.lastingAt) = [] →
      Ends (.suspectClear (.check c) k) s (fun e => amFind c e.chk.lastingAt = none ∧ e.regs = d.regs ∧ SameMem d e)))

/-- R166 to R169, FLASH_READ_DONE of a codeword of a programmed unit that can be read: the ladder's first pass gives OK; the
second OK_RETRIED with 0x4030; after it reconstruction gives OK_REBUILT with 0x4031 where at most two units of the stripe
are away, this one among them, and else UNRECOVERED with 0x4032 and DATA_LOSS. The key slots of its codewords hold keys. -/
def Obligations.FlashReadLadder : Prop :=
  ∀ (s : State) (id pos cw : Nat) (x : Stripe) (first second : Ladder) (others : Bool), s.dev.stripe id = some x →
    pos ∈ x.members → x.programmed = true → s.dev.unitAway x pos = false →
    (∀ i v, amFind i x.tweaks = some v → (amFind v.1 s.dev.mgt.slots).isSome) →
    let d := s.dev
    let c := 2 * pos + sbHalf x.sb
    let k := sbDie x.sb
    let b := sbBlock x.sb
    (∀ j, first.step = some j →
      Does (.flashReadDone id pos cw false first second others) s
        (((d.countLadder c first).learn c k b cw first).readCame x id pos cw 0)) ∧
    (∀ j, first.step = none → second.step = some j →
      Does (.flashReadDone id pos cw false first second others) s
        ((((((d.countLadder c first).countLadder c second).cnt .FLS_CH_CNT_RETRY_OK c).raise 0x4030
          [(2, c), (2, k), (4, b), (4, x.w)]).transient (0x10000 + c * 32 + k) 0).readCame x id pos cw 1)) ∧
    (first.step = none → second.step = none →
      let e := (d.countLadder c first).countLadder c second
      let y := e.die c k
      let e := e.setDie c k { y with suspectBlocks := (b :: y.suspectBlocks).eraseDups }
      let e := (e.setSb x.sb { e.sb x.sb with relocate := true }).lastingFault (0x10000 + c * 32 + k) 1
      (others = true → d.unitsAway x ≤ 1 →
        Does (.flashReadDone id pos cw false first second others) s
          (((e.cnt .FLS_CH_CNT_REBUILT c).raise 0x4031 [(8, x.seq), (1, pos), (2, cw)]).readCame x id pos cw 2)) ∧
      (others = false →
        Does (.flashReadDone id pos cw false first second others) s
          ((((e.cnt .FLS_CH_CNT_UNRECOVERED c).raise 0x4032 [(8, x.seq), (1, pos), (2, cw)]).dataLoss 0 1).readCame x id pos cw
            5))) ∧
    Does (.flashReadDone id pos cw true first second others) s (d.readCame x id pos cw 3)

/-- R149, R156, R163, R175, R176 and R179, programs, erases and resets of flash: a unit's success is noted with its time,
and the last one programs the stripe; a failed program counts in PROG_FAIL and moves the stripe; the end of an erase frees
the superblock with one erase more; a die that does not answer is a fault; a suspend that times out is counted with 0x4050;
the read levels are saved when 10 minutes have passed; a channel reset programs what was in flight again. -/
def Obligations.FlashPrograms : Prop :=
  ∀ s : State,
    let d := s.dev
    (∀ (id ns : Nat) (k : Fin 16) (x : Stripe), d.stripe id = some x → x.issued = true → x.programmed = false →
      k.val ∈ x.members → k.val ∉ x.units →
      (x.units.length + 1 < x.members.length →
        Does (.programDone id k true ns) s
          ((({ d with dur.progTimes := (d.dur.progTimes.filter (fun p => decide (d.now ≤ p.1 + 600000000000))) ++ [(d.now, ns)] } :
            Dev).setStripe id (fun x => { x with units := k.val :: x.units })).settle)) ∧
      (x.units.length + 1 = x.members.length → x.retried = none →
        Does (.programDone id k true ns) s
          (((({ d with dur.progTimes := (d.dur.progTimes.filter (fun p => decide (d.now ≤ p.1 + 600000000000))) ++ [(d.now, ns)] } :
            Dev).setStripe id (fun x => { x with units := k.val :: x.units })).setStripe id (fun x => { x with programmed := true })).settle)) ∧
      (x.retried = none →
        Does (.programDone id k false ns) s
          (((d.cnt .FLS_CH_CNT_PROG_FAIL (2 * k + sbHalf x.sb)).nextPageSet x (some k.val)).settle))) ∧
    (∀ n : Nat, (d.sb n).state = 4 → (∀ k ∈ (d.sb n).members, d.peCycles (2 * k + sbHalf n) (sbDie n) = none ∧
        sbBlock n ∉ (d.die (2 * k + sbHalf n) (sbDie n)).suspectBlocks) →
      Does (.eraseDone n []) s
        (((({ d with fls.stripes := d.fls.stripes.filter (fun s : Stripe => s.sb != n) } : Dev).setSb n
          { d.sb n with state := 0, members := [], next := 0, relocate := false, erases := (d.sb n).erases + 1 }).stewardTxn
            (.superblock n 0)).settle)) ∧
    (∀ (c k : Fin 32) (target : Nat), d.dieUp c k = true →
      Does (.dieTimeout c k 0 target .transient) s (d.transient (0x10000 + c * 32 + k) 3) ∧
      Does (.dieTimeout c k 0 target .lasting) s ((d.dieLasting c k).settle) ∧
      (∀ x : Stripe, d.stripe target = some x → x.issued = true → x.programmed = false → sbHalf x.sb = c % 2 →
        sbDie x.sb = k → c.val / 2 ∈ x.members → c.val / 2 ∉ x.units →
        ∀ f, Does (.dieTimeout c k 1 target f) s ((d.programFail x (c / 2)).settle)) ∧
      ((d.sb target).state = 4 → sbHalf target = c % 2 → sbDie target = k → c.val / 2 ∈ (d.sb target).members →
        ∀ f, Does (.dieTimeout c k 2 target f) s ((d.eraseFault c k (sbBlock target) f).settle))) ∧
    (∀ c k : Fin 32, Does (.suspendTimeout c k) s
      (((d.setDie c k { d.die c k with suspended := false }).cnt .FLS_CH_CNT_SUSP_TIMEOUT c).raise 0x4050 [(2, c), (2, k)])) ∧
    (d.fls.savedAt + 600000000000 ≤ d.now →
      Does .readLevelSave s { d with
        fls.savedLevels := d.fls.dies.map (fun p => (p.1, p.2.offsets, p.2.spread)), fls.savedAt := d.now }) ∧
    (∀ c : Fin 32, (∀ x ∈ d.fls.stripes, x.issued = true → x.programmed = true) →
      Does (.chEngReset c) s ((d.wr .FLS_CH_STATUS_RSVD_WRITE 0 c).settle))

/-- R177 and R178, the training of flash channels: it starts when its period or the temperature asks for it or a write of
RETRAIN does, one channel at a time; its success is 0x4001, its first failure 0x4002, and its second retires the channel.
R180 to R185, the table Carrier states: each command moves its carrier between the states that the table gives, and the
rebuild of a carrier that has been formatted begins with 0x4063 and ends with 0x4064. -/
def Obligations.ChannelsAndCarriers : Prop :=
  (∀ (s : State) (c : Fin 32), s.dev.chanUp c = true →
    let d := s.dev
    let x := d.trainOf c
    (d.rd .AVL_STATUS_MODE ≠ 6 → x.waiting = false →
      (d.rd .FLS_TRAIN_CFG_PERIOD_S ≠ 0 → x.lastAt + d.rd .FLS_TRAIN_CFG_PERIOD_S * 1000000000 ≤ d.now →
        Does (.trainPeriod c) s ((d.setTrain c { x with waiting := true, deferrable := true }).startTraining)) ∧
      (∀ t : Nat, d.rd .FLS_TRAIN_CFG_DELTA_C < max t x.lastTemp - min t x.lastTemp →
        Does (.flashTemperatureDrift c t) s ((d.setTrain c { x with waiting := true, deferrable := false }).startTraining)) ∧
      Does (.chRetrain c) s ((d.setTrain c { x with waiting := true, deferrable := false }).startTraining)) ∧
    (d.fls.training = some c.val →
      (∀ t : Nat, Does (.trainingDone c true t) s
        (let e := ({ d.setTrain c { x with repeated := false, lastAt := d.now, lastTemp := t } with fls.training := none } : Dev).wr
           .FLS_CH_STATUS_TRAINING 0 c
         ((e.raise 0x4001 [(2, c), (2, e.rd .FLS_CH_STATUS_RATE_200 c * 200)]).startTraining).settle)) ∧
      (∀ t : Nat, x.repeated = false →
        Does (.trainingDone c false t) s (((d.setTrain c { x with repeated := true }).raise 0x4002 [(2, c)]).settle)) ∧
      (∀ t : Nat, x.repeated = true →
        Does (.trainingDone c false t) s
          (((({ d with fls.training := none } : Dev).retireChan c).startTraining).settle)))) ∧
  (∀ (s : State) (k : Fin 16),
    let d := s.dev
    let st := d.carState k
    (st = 0 → Does (.cpresChange k true) s (((d.wr .FLS_CARRIER_PRESENT 1 k).setCarState k 1).settle)) ∧
    (st = 7 → Does (.cpresChange k false) s (((d.wr .FLS_CARRIER_PRESENT 0 k).setCarState k 0).settle)) ∧
    (st = 1 → (d.carrier k).since + 50000000 ≤ d.now → Does (.carrierPowered k) s ((d.setCarState k 2).settle)) ∧
    (st = 2 → ∀ r : CarrierRec, r.tag = d.fls.deviceTag → r.slot = k →
      Does (.carrierTrainingDone k true true (some r) []) s
        (((((d.showChan (2 * k)).showChan (2 * k + 1)).setCarrier k
          { ((d.showChan (2 * k)).showChan (2 * k + 1)).carrier k with record := some r }).setCarState k 5).settle)) ∧
    (st = 2 → (d.carrier k).record = none →
      Does (.formatDone k []) s
        ((((({ d with fls.dies := d.fls.dies.map (fun p : Nat × Die =>
          if p.1 / 64 = k then (p.1, { p.2 with colmap := [] }) else p) } : Dev).wr .FLS_CH_COLMAP_ENTRIES 0 (2 * k)).wr
            .FLS_CH_COLMAP_ENTRIES 0 (2 * k + 1)).wr .FLS_CH_COLMAP_MAP_FULL 0 (2 * k)).wr .FLS_CH_COLMAP_MAP_FULL 0 (2 * k + 1)
          |>.startRebuild k |>.settle)) ∧
    (st = 4 → (∃ j : Fin 16, d.carState j = 8) →
      Ends (.rebuildDone k) s (fun e => ∃ e1 : Dev, e = e1.settle ∧ e1.carState k = 5 ∧
        e1.rd .FLS_CARRIER_PROGRESS_PM k = 1000 ∧ e1.logged 0x4064 0 (packData [(1, k), (4, (d.carrier k).total)]))) ∧
    (st = 5 → (∀ j : Fin 16, d.carState j = 5) →
      Does (.prepareRemoval k) s (((d.closeWhere (fun _ x => x.members.contains k.val)).setCarState k 6).settle)) ∧
    (∀ j : Fin 16, st = 5 → j ≠ k → (∀ i : Fin 16, d.carState i ≠ 5 ↔ i = j) →
      Does (.prepareRemoval k) s ((d.raise 0x4067 [(1, k), (1, j)]).settle)) ∧
    (st = 5 → Does (.prepareRemovalForced k) s (((d.closeWhere (fun _ x => x.members.contains k.val)).setCarState k 6).settle)) ∧
    (st = 6 → Does (.quiesceDone k) s ((d.setCarState k 7).settle)) ∧
    (st = 6 ∨ st = 7 → Does (.cancelRemoval k) s ((d.setCarState k 1).settle)) ∧
    (st = 3 → ∀ cols, Does (.formatHeldCarrier k cols) s (((d.setCarState k 2).formatDone k cols).settle)) ∧
    (st = 7 → Does (.powerOnCarrier k) s ((d.setCarState k 1).settle)))

/-- R197, R200, R201 and R205, the journal: a page is closed 100 µs after its first record; the oldest page under way,
written in both copies, takes effect record by record, and one copy's failure is 0x5013; a checkpoint due is taken with
0x5020; a program time older than 10 minutes leaves its window. R32, R199, R206 and R218 to R221, MIRROR_DONE, GC_PASS and
FLASH_PATROL_SCRUB: a released write whose data are in both copies is acknowledged, each piece with the next CSEQ; a pass
relocates what is queued first, then what wear-levelling asks for, then the victim with the least score; a codeword that
scrub found weak has its superblock relocated. -/
def Obligations.JournalAndWork : Prop :=
  (∀ s : State,
    let d := s.dev
    (∀ p : JPage, d.dur.page = some p → p.firstAt + 100000 ≤ d.now → Does .journalPageTimer s d.closePage) ∧
    (∀ (p : JPage) (ps : List JPage), d.dur.flight = p :: ps →
      Does (.journalPageWritten true true) s
        (((({ d with dur.flight := ps } : Dev).applyPage p).wakeFlushes).settle.background)) ∧
    (∀ (p : JPage) (ps : List JPage) (a b : Bool), d.dur.flight = p :: ps → (a && b) = false →
      Does (.journalPageWritten a b) s
        ((d.raise 0x5013 [(2, p.pair), (1, Config.causeCode (0x5013 * 256 + b2n a + 2 * b2n b))]).background)) ∧
    (d.rd .AVL_STATUS_MODE = 2 ∨ d.rd .AVL_STATUS_MODE = 3 → d.rd .AVL_STATUS_POWER_STATE = 0 →
      d.dur.ckptAt + d.rd .DUR_CKPT_CFG_INTERVAL_S * 1000000000 ≤ d.now →
      Ends .checkpoint s (fun e => e.dur.ckpt = d.snapshot ∧ e.dur.ckptAt = d.now ∧ e.dur.journalBytes = 0 ∧
        e.dur.map = d.dur.map ∧ e.dur.txns = d.dur.txns ∧
        e.logged 0x5020 0 (packData [(8, d.rd64 .DUR_CSEQ_LO .DUR_CSEQ_HI)]) ∧ e.regs = d.regs ∧ SameMem d e)) ∧
    Does .programTimeWindowExpiry s
      (({ d with dur.progTimes := d.dur.progTimes.filter (fun p => decide (d.now ≤ p.1 + 600000000000)) } : Dev).relimit)) ∧
  (∀ s : State, s.dev.rd .AVL_STATUS_MODE ≠ 6 →
    let d := s.dev
    (∀ (h : Nat) (c : HCmd) (x : Namespace) (e : Dev), d.cmd h = some c → c.stage = 2 → sqeOp c.sqe = 1 → d.isAdmin c = false →
      c.slots ≠ [] → c.want ≤ c.data.length → d.nsOf c = some x → d.mirrorDown c.inst = false →
      d.ackPieces h c.inst c.gen (writePieces x c) c.slots = (e, true) →
      Does (.mirrorDone h) s (((e.noteNewer c.key (c.range x).1 (c.range x).2).succeed h 0 0).settle)) ∧
    (d.pathDown (fun f => f.through 8 && f.through 7) = false →
      let e := d.fillReserve
      (∀ n, e.queuedVictim = some n → Does .gcPass s ((e.relocateSb n).settle)) ∧
      (∀ n, e.queuedVictim = none → e.wearVictim = some n → Does .gcPass s (((e.cnt .DUR_CNT_WL_MOVES).relocateSb n).settle)) ∧
      (∀ n, e.queuedVictim = none → e.wearVictim = none → e.gcVictim = some n → Does .gcPass s ((e.relocateSb n).settle))) ∧
    (∀ (id : Nat) (x : Stripe), d.stripe id = some x → x.programmed = true →
      Ends (.flashPatrolScrub id true []) s (fun e => (e.sb x.sb).relocate = true ∧ e.dur.scrubbed = x.seq ∧
        ∀ n, n ≠ x.sb → e.sb n = d.sb n)))

/-- R225 to R229 and R243, connections on a port that admits traffic: TCP_SYN opens one; a good ICReq is answered with
ICResp; Connect of the admin queue makes a controller, and of an I/O queue joins the one it names with the instance's class;
a good capsule waits for admission; a capsule before ICReq ends the connection; a lost connection of no controller leaves
the table. -/
def Obligations.TcpConnections : Prop :=
  ∀ s : State,
    let d := s.dev
    (∀ (p : Fin 128) (a : NetAddr) (port : BitVec 16), d.laneFlag p 2 = true → d.portUp p = true → d.portRxDown p = false →
      port.toNat = d.rd .HQ_TCP_PORTS_IO_PORT →
      (d.hq.conns.length < 65536 →
        Does (.tcpSyn p a port) s
          (({ d with hq.conns := amPut d.hq.nextConn (⟨p, a, d.portOwner p, false, false, false, 0, false, none, 0⟩ : Conn) d.hq.conns,
                     hq.nextConn := d.hq.nextConn + 1 } : Dev).showConns)) ∧
      (65536 ≤ d.hq.conns.length →
        Does (.tcpSyn p a port) s
          (((d.send (.tcpReset p a)).cnt .HQ_TCP_REFUSED).raise 0x6001 [(2, p.val), (16, a.ip)]))) ∧
    (∀ (c : Nat) (x : Conn), amFind c d.hq.conns = some x → d.portUp x.port = true →
      (∀ (hpda r2t : Nat) (h g : Bool), x.ready = false → hpda ≤ 31 →
        Does (.icreq c 0 hpda h g r2t false) s
          (let hd := h && d.rd .HQ_TCP_CFG_HDGST_EN == 1
           let dd := g && d.rd .HQ_TCP_CFG_DDGST_EN == 1
           let cs := amAdj c (fun y : Conn => { y with ready := true, hdgst := hd, ddgst := dd, maxr2t := r2t }) d.hq.conns
           ({ d with hq.conns := cs } : Dev).send (.icResp c 0 hd dd (d.rd .HQ_TCP_CFG_MAXH2C_KIB * 1024)))) ∧
      (∀ sqe data : List Byte, x.ready = false → Does (.commandCapsule c sqe data .good) s (d.terminate c 2)) ∧
      (∀ (sqe data : List Byte) (k q : Nat) (y : HQueue), x.ready = true → x.ctrl = some k → d.queueOf c = some (q, y) →
        data.length ≤ (if y.qid = 0 then 8192 else (d.arrive q y sqe data).rd .HQ_TCP_CFG_ICD_KIB * 1024) →
        Does (.commandCapsule c sqe data .good) s (d.arrive q y sqe data))) ∧
    (∀ (c n kato : Nat) (x : Conn) (sqe data : List Byte), amFind c d.hq.conns = some x → x.ready = true → x.ctrl = none →
      x.disc = false → bitsOf 15 0 (cdw 10 sqe) = 0 → d.nqnOwner (trimZeros (sliceB 256 256 data)) = some n →
      katoOf (cdw 12 sqe) = some kato → d.connsOf n c < d.rd .INS_QUOTA_CONN n →
      1 ≤ bitsOf 15 0 (cdw 11 sqe) → bitsOf 15 0 (cdw 11 sqe) ≤ 1023 →
      (bitsOf 31 16 (cdw 10 sqe) = 0 → leAt 16 2 data = 0xFFFF →
        Does (.connect c sqe data) s
          ((({ d with hq.ctrls := amPut d.hq.nextCtrl (newCtrl n none kato d.now (sliceB 0 16 data) false) d.hq.ctrls,
                      hq.nextCtrl := d.hq.nextCtrl + 1 } : Dev).addQueue c d.hq.nextCtrl n 0 (bitsOf 15 0 (cdw 11 sqe)) 0).send
            (.cqe d.hq.nextQueue (sqeCid sqe) 0 0 false d.hq.nextCtrl 0))) ∧
      (∀ y : Ctrl, 1 ≤ bitsOf 31 16 (cdw 10 sqe) → bitsOf 31 16 (cdw 10 sqe) ≤ 128 → d.ctrl (leAt 16 2 data) = some y →
        y.inst = n → y.pf = none → y.host = sliceB 0 16 data → bitsOf 31 16 (cdw 10 sqe) ≤ y.nq →
        d.queueNamed (leAt 16 2 data) (bitsOf 31 16 (cdw 10 sqe)) = none →
        Does (.connect c sqe data) s
          ((d.addQueue c (leAt 16 2 data) n (bitsOf 31 16 (cdw 10 sqe)) (bitsOf 15 0 (cdw 11 sqe)) (d.rd .HQ_INS_CFG_TCP_QPRIO n)).send
            (.cqe d.hq.nextQueue (sqeCid sqe) 0 0 false (leAt 16 2 data) 0)))) ∧
    (∀ (c : Nat) (x : Conn), amFind c d.hq.conns = some x → x.ctrl = none →
      Does (.connectionLoss c) s (({ d with hq.conns := amDel c d.hq.conns } : Dev).showConns))

/-- R241 to R248, commands on their way: a PCIe entry fetched waits for admission; data that are in sequence come to their
command; the arbiter's winner is admitted with its arrival instant; a write that waits takes its slots; a command is
released exactly when no overlapping command ordered before it is admitted and has not taken effect. -/
def Obligations.CommandFlow : Prop :=
  ∀ s : State,
    let d := s.dev
    (∀ (q : Nat) (y : HQueue) (k : Ctrl) (sqe : List Byte), amFind q d.hq.queues = some y → d.ctrl y.ctrl = some k →
      k.pf.isSome → k.ready = true → d.trafficMode = true → d.closed = false →
      Does (.sqeFetchDone q sqe) s (d.arrive q y sqe [])) ∧
    (∀ (h k : Nat) (c : HCmd) (x : Conn) (bs : List Byte), d.cmd h = some c → d.connOf c = some (k, x) →
      d.portLinked x.port = true → c.asked = true → c.data.length + bs.length ≤ c.want →
      Does (.h2cData h c.data.length bs .good) s (d.dataCame h bs)) ∧
    (∀ (h : Nat) (c : HCmd) (bs : List Byte), d.cmd h = some c → d.connOf c = none → c.asked = true → c.data.length < c.want →
      c.data.length + bs.length ≤ c.want →
      Does (.pcieDataFetchDone h (some bs)) s (d.dataCame h bs) ∧
      Does (.pcieDataFetchDone h none) s (d.failWrite h 0 0x04 false (some .HQ_INS_CNT_TRANSPORT_ERRORS))) ∧
    (∀ (n q : Nat) (wrr : Bool) (c : HCmd), d.rd .HQ_STATUS_ADMIT_HELD = 0 → d.trafficMode = true →
      d.arbPick 3 ((d.waitingCmds.map (·.inst)).eraseDups) = some n →
      let mine := d.waitingCmds.filter (fun c => c.inst == n)
      let low := mine.filter (fun c => (d.hqueue c.queue).qid != 0 && (d.hqueue c.queue).cls != 0)
      let d1 := ((low.map (·.ctrl)).eraseDups).foldl (fun (d : Dev) k => d.newRound k low) d
      d1.queuePick mine = some (q, wrr) → mine.find? (fun c => c.queue == q) = some c →
      let e := (d1.takeTurn q wrr).charge 3 n 1
      ((e.hq.cmds.filter (fun x => x.inst == n && decide (1 ≤ x.stage))).length < e.rd .HQ_INS_CFG_CMD_QUOTA n → e.inflight < 262144 →
        Does .commandAdmit s ((e.setCmd c.handle (fun c => { c with stage := 1, arrival := e.now })).cnt .HQ_INS_CNT_COMMANDS n)) ∧
      (e.rd .HQ_INS_CFG_CMD_QUOTA n ≤ (e.hq.cmds.filter (fun x => x.inst == n && decide (1 ≤ x.stage))).length →
        Does .commandAdmit s
          ((e.raiseSec n 0x6010 n [(1, n)]).failCmd c.handle 7 0x90 false (some .HQ_INS_CNT_SHARE_REFUSED)))) ∧
    (∀ (h : Nat) (c : HCmd) (x : Namespace), d.cmd h = some c → c.held = true → c.stage ≠ 3 → sqeOp c.sqe = 1 →
      d.isAdmin c = false → d.nsOf c = some x → Does (.slotReserve h) s ((d.takeSlots c x).checkData h)) ∧
    (∀ (h : Nat) (c : HCmd), d.cmd h = some c → c.stage = 1 →
      Does (.commandRelease h) s
        (if d.hq.cmds.any (fun b => b.handle != h && decide (1 ≤ b.stage ∧ b.stage ≤ 2) && cmdBefore b c && d.overlap b c) then d
         else d.setCmd h (fun c => { c with stage := 2 })))

/-- R229, R231, R255 and R256, controllers: a keep-alive timeout raises 0x6041 and resets; a controller reset raises 0x6040
and ends the controller; enabling the controller of a physical function makes it ready with its admin queue; a normal
shutdown sets SHN; admission held for 50 ms opens again with 0x6031. R225, R231 and R255, PROPERTY_GET and PROPERTY_SET of a
controller over TCP: CC and CSTS read as they are; a write of CC is kept, its EN as CSTS.RDY; clearing EN resets the
controller. -/
def Obligations.ControllerCommands : Prop :=
  (∀ s : State,
    let d := s.dev
    (∀ (k : Nat) (x : Ctrl), d.ctrl k = some x →
      (x.pf = none → x.lastAdmin + x.kato * 1000000 ≤ d.now →
        Does (.keepAliveTimeout k) s ((d.raiseI x.inst 0x6041 [(1, x.inst), (2, k)]).resetController k)) ∧
      Does (.controllerReset k) s ((d.raiseI x.inst 0x6040 [(1, x.inst), (2, k)]).endController k) ∧
      Does (.normalShutdown k) s
        (d.setCtrl k (fun x => { x with cc := x.cc - bitsOf 15 14 x.cc * 16384 + 16384, shutdown := 1 }))) ∧
    (∀ (pf : Fin 64) (cc : BitVec 32) (n : Nat), d.pfInst pf = some n → cc.getLsbD 0 = true → d.trafficMode = true →
      d.closed = false → d.ctrl pf = none →
      Ends (.controllerEnable pf cc) s (fun e =>
        (∃ k, e.ctrl pf = some k ∧ k.inst = n ∧ k.ready = true ∧ k.cc = cc.toNat ∧ k.pf = some pf.val) ∧
        e.hq.queues = amPut d.hq.nextQueue (⟨pf, 0, none, 0, 0, 0, 0⟩ : HQueue) d.hq.queues ∧ e.hq.conns = d.hq.conns ∧
        e.hq.cmds = d.hq.cmds ∧ e.regs = d.regs ∧ SameMem d e)) ∧
    (∀ (h : FwHold) (t : Nat), d.mgt.hold = some h → d.hq.heldAt = some t → t + 50000000 ≤ d.now →
      Does .admissionHoldTimeout s
        (let e := (d.reopen 50000).cnt .HQ_ACT_LAST_ABANDONED
         (e.raise 0x6031 [(4, (e.hq.cmds.filter (fun c => c.stage == 0)).length)]).fwAbandon h.op 4 50000))) ∧
  (∀ (s : State) (h : Nat) (c : HCmd) (k : Ctrl), s.dev.readyAdmin h 0x7F c k → k.pf = none → bitsOf 2 0 (leAt 40 1 c.sqe) = 0 →
    let d := s.dev
    (leAt 4 1 c.sqe = 0x04 →
      (leAt 44 4 c.sqe = 0x14 → Does (.propertyGet h) s (d.succeed h k.cc 0)) ∧
      (leAt 44 4 c.sqe = 0x1C → Does (.propertyGet h) s (d.succeed h (b2n k.ready + 4 * d.shst c.ctrl k) 0))) ∧
    (leAt 4 1 c.sqe = 0x00 → leAt 44 4 c.sqe = 0x14 →
      (bitOf 0 k.cc = true → bitOf 0 (leAt 48 4 c.sqe) = false →
        Does (.propertySet h) s ((d.succeed h 0 0).resetController c.ctrl)) ∧
      (bitOf 0 (leAt 48 4 c.sqe) = true → bitsOf 15 14 (leAt 48 4 c.sqe) = 0 →
        Does (.propertySet h) s
          ((d.setCtrl c.ctrl (fun k => { k with cc := leAt 48 4 c.sqe, ready := true })).succeed h 0 0))))

/-- R231, R236, R243 and R251, admin commands that the NVMe tables list: queues of a PCIe controller are created and
deleted; Identify CNS 2 lists the namespaces of the instance; the Changed Namespace List is read; an Abort of a command not
yet released completes it with 0h/0x07; features are set and read; an Asynchronous Event Request waits; Keep Alive
completes. -/
def Obligations.AdminCommands : Prop :=
  ∀ (s : State) (h : Nat) (c : HCmd) (k : Ctrl),
    let d := s.dev
    let qid := bitsOf 15 0 (cdw 10 c.sqe)
    let size := bitsOf 31 16 (cdw 10 c.sqe)
    (d.readyAdmin h 0x05 c k → k.pf.isSome → cdw 11 c.sqe / 4 % 2 ^ 14 = 0 → qid ≠ 0 → qid ≤ k.nq →
      amFind (c.ctrl * 1024 + qid) d.hq.cqs = none → 1 ≤ size → size ≤ 1023 → bitsOf 31 16 (cdw 11 c.sqe) ≤ 128 →
      Does (.createIoCq h) s (({ d with hq.cqs := amPut (c.ctrl * 1024 + qid) (size + 1) d.hq.cqs } : Dev).succeed h 0 0)) ∧
    (d.readyAdmin h 0x01 c k → k.pf.isSome → bitsOf 15 3 (cdw 11 c.sqe) = 0 →
      (amFind (c.ctrl * 1024 + bitsOf 31 16 (cdw 11 c.sqe)) d.hq.cqs).isSome → qid ≠ 0 → qid ≤ k.nq →
      d.queueNamed c.ctrl qid = none → 1 ≤ size → size ≤ 1023 →
      Does (.createIoSq h) s
        (let cls := if bitsOf 13 11 k.cc = 1 then bitsOf 2 1 (cdw 11 c.sqe) else 2
         let y : HQueue := ⟨c.ctrl, qid, none, cls, cls, size + 1, bitsOf 31 16 (cdw 11 c.sqe)⟩
         ({ d with hq.queues := amPut d.hq.nextQueue y d.hq.queues, hq.nextQueue := d.hq.nextQueue + 1 } : Dev).succeed h 0 0)) ∧
    (∀ (q : Nat) (y : HQueue), d.readyAdmin h 0x00 c k → k.pf.isSome → qid ≠ 0 → d.queueNamed c.ctrl qid = some (q, y) →
      (∀ x ∈ d.hq.cmds, x.queue ≠ q) →
      Does (.deleteIoSq h) s
        (({ d with hq.queues := amAdj q (fun y : HQueue => { y with qid := 65536 }) (d.hq.queues.filter (fun p => p.1 != q)) } :
          Dev).succeed h 0 0)) ∧
    (d.readyAdmin h 0x04 c k → k.pf.isSome → qid ≠ 0 → (amFind (c.ctrl * 1024 + qid) d.hq.cqs).isSome →
      d.hq.queues.any (fun p => p.2.ctrl == c.ctrl && p.2.qid != 0 && p.2.qid != 65536 && p.2.cq == qid) = false →
      Does (.deleteIoCq h) s (({ d with hq.cqs := amDel (c.ctrl * 1024 + qid) d.hq.cqs } : Dev).succeed h 0 0)) ∧
    (d.readyAdmin h 0x06 c k → bitsOf 7 0 (cdw 10 c.sqe) = 2 → k.disc = false → sqeNsid c.sqe < 0xFFFFFFFE →
      Does (.identify h) s
        (d.answer c (sliceB 0 4096 ((((d.nsidsOf k.inst).filter (fun n => decide (sqeNsid c.sqe < n))).take 1024).flatMap
          (leBytes 4))) 0 0)) ∧
    (d.readyAdmin h 0x02 c k → bitsOf 7 0 (cdw 10 c.sqe) = 0x04 → k.disc = false → bitOf 15 (cdw 10 c.sqe) = true →
      leAt 48 8 c.sqe = 0 → bitsOf 31 16 (cdw 10 c.sqe) = 1023 → bitsOf 15 0 (cdw 11 c.sqe) = 0 →
      (amGet [] c.ctrl d.hq.changedNs).length ≤ 1024 →
      Does (.getLogPage h) s
        (d.answer c (sliceB 0 4096 (sliceB 0 4096 ((amGet [] c.ctrl d.hq.changedNs).flatMap (leBytes 4)))) 0 0)) ∧
    (d.readyAdmin h 0x08 c k →
      (∀ x : HCmd, d.hq.cmds.find? (fun x => x.ctrl == c.ctrl && (d.hqueue x.queue).qid == qid && sqeCid x.sqe == size &&
          decide (x.stage ≤ 1)) = some x →
        Does (.abort h) s (((d.abandonWrite x).complete x.handle 0 0x07 true 0 0).succeed h 0 0)) ∧
      (d.hq.cmds.find? (fun x => x.ctrl == c.ctrl && (d.hqueue x.queue).qid == qid && sqeCid x.sqe == size &&
          decide (x.stage ≤ 1)) = none → Does (.abort h) s (d.succeed h 1 0))) ∧
    (d.readyAdmin h 0x09 c k → bitOf 31 (cdw 10 c.sqe) = false →
      (bitsOf 7 0 (cdw 10 c.sqe) = 0x01 → bitsOf 7 3 (cdw 11 c.sqe) = 0 →
        Does (.setFeatures h) s ((d.setCtrl c.ctrl (fun k => { k with arb := cdw 11 c.sqe })).succeed h 0 0)) ∧
      (bitsOf 7 0 (cdw 10 c.sqe) = 0x07 → bitsOf 15 0 (cdw 11 c.sqe) ≠ 65535 → bitsOf 31 16 (cdw 11 c.sqe) ≠ 65535 →
        Does (.setFeatures h) s
          (let g := min 127 (min (bitsOf 15 0 (cdw 11 c.sqe)) (bitsOf 31 16 (cdw 11 c.sqe)))
           (d.setCtrl c.ctrl (fun k => { k with nq := g + 1 })).succeed h (g + 65536 * g) 0)) ∧
      (∀ (q : Nat) (y : HQueue), bitsOf 7 0 (cdw 10 c.sqe) = 0xC0 → bitsOf 31 18 (cdw 11 c.sqe) = 0 →
        d.queueNamed c.ctrl (bitsOf 15 0 (cdw 11 c.sqe)) = some (q, y) → y.qid ≠ 0 →
        Does (.setFeatures h) s
          (({ d with hq.queues := amAdj q (fun y => { y with clsNext := bitsOf 17 16 (cdw 11 c.sqe) }) d.hq.queues } :
            Dev).succeed h 0 0))) ∧
    (d.readyAdmin h 0x0A c k → bitsOf 10 8 (cdw 10 c.sqe) = 0 →
      (bitsOf 7 0 (cdw 10 c.sqe) = 0x01 → Does (.getFeatures h) s (d.succeed h k.arb 0)) ∧
      (bitsOf 7 0 (cdw 10 c.sqe) = 0x0F → Does (.getFeatures h) s (d.succeed h k.kato 0))) ∧
    (d.readyAdmin h 0x0C c k →
      (k.aers.length < 8 → k.notices = [] →
        Does (.asyncEventRequest h) s
          ((d.setCtrl c.ctrl (fun k => { k with aers := k.aers ++ [h] })).setCmd h (fun c => { c with stage := 3, held := true }))) ∧
      (8 ≤ k.aers.length → Does (.asyncEventRequest h) s (d.failCmd h 1 0x05 true none))) ∧
    (d.readyAdmin h 0x18 c k → Does (.keepAlive h) s (d.succeed h 0 0))

/-- R191, R192, R232, R239, R246, R249, R250 and R374, commands on a block namespace without metadata: a write in range
takes its slots and its data; Read, Compare and Verify read its range; Write Zeroes and Dataset Management deallocate; Flush
waits for what was acknowledged before it; an opcode that is not supported fails with 0h/0x01. -/
def Obligations.NvmCommands : Prop :=
  ∀ (s : State) (h : Nat) (c : HCmd) (x : Namespace),
    let d := s.dev
    (d.readyNs h 0x01 1 c x → x.kind = 0 → c.inRange x = true → sqeNlb c.sqe * x.lba ≤ 8388608 → x.md = 0 →
      d.reserved c = false → c.inst ∉ d.dur.exhausted → (amFind c.inst d.mgt.slots).isSome → d.mirrorDown c.inst = false →
      Does (.write h) s
        (let want := sqeNlb c.sqe * x.lba
         ((d.setCmd h (fun c => { c with want := want })).takeSlots { c with want := want } x).checkData h)) ∧
    (d.readyNs h 0x02 2 c x → x.kind ≠ 2 → c.inRange x = true → sqeNlb c.sqe * x.lba ≤ 8388608 →
      Does (.read h) s (d.startRead c x c.key (c.range x).1 (c.range x).2 [] 0)) ∧
    (d.readyNs h 0x05 1 c x → c.stage = 2 → x.kind ≠ 2 → c.inRange x = true → sqeNlb c.sqe * x.lba ≤ 8388608 → x.md = 0 →
      sqeNlb c.sqe * x.lba ≤ c.data.length →
      Does (.compare h) s (d.startRead c x c.key (c.range x).1 (c.range x).2 [] 0)) ∧
    (d.readyNs h 0x0C 2 c x → x.kind ≠ 2 → c.inRange x = true →
      Does (.verify h) s (d.startRead c x c.key (c.range x).1 (c.range x).2 [] 0)) ∧
    (d.readyNs h 0x08 2 c x → x.kind = 0 → c.inRange x = true → d.reserved c = false →
      Does (.writeZeroes h) s (d.deallocCmd c [c.range x])) ∧
    (d.readyNs h 0x09 1 c x → c.stage = 2 → x.kind = 0 → cdw 10 c.sqe < 256 → cdw 11 c.sqe < 8 → d.reserved c = false →
      16 * (leAt 40 1 c.sqe + 1) ≤ c.data.length →
      (bitOf 2 (cdw 11 c.sqe) = false → Does (.datasetManagement h) s (d.succeed h 0 0)) ∧
      (bitOf 2 (cdw 11 c.sqe) = true → (∀ r ∈ dsmRanges c, r.1 + r.2 ≤ x.sizeLbas) →
        Does (.datasetManagement h) s (d.deallocCmd c ((dsmRanges c).map (fun r => (r.1 * x.lba, r.2 * x.lba)))))) ∧
    (d.ready h false 0x00 1 c → d.nsOf c = some x → sqeNsid c.sqe ≠ 0xFFFFFFFF → d.dur.txns = [] →
      Does (.flush h) s (d.succeed h 0 0)) ∧
    (d.cmd h = some c → c.stage = 2 → d.supported c = false →
      Does (.unsupportedOpcode h) s (d.failCmd h 0 0x01 true none))

/-- R237, reservations of a namespace that is no frame view, for a host with its data there: a first registration enters its
key; the holder's acquire and a free namespace's make the host the holder; a release by the holder clears it, one by another
registrant changes nothing; a report gives the generation and the registrants. -/
def Obligations.ReservationCommands : Prop :=
  ∀ (s : State) (h : Nat) (c : HCmd) (x : Namespace), x.kind ≠ 2 → c.stage = 2 →
    let d := s.dev
    let r := d.resvOf c.key
    let host := d.hostOf c
    (d.readyNs h 0x0D 1 c x → 16 ≤ c.data.length → bitsOf 29 4 (cdw 10 c.sqe) = 0 → bitsOf 2 0 (cdw 10 c.sqe) = 0 →
      r.keyOf host = none →
      Does (.reservationRegister h) s (d.putResv c { r with gen := r.gen + 1, regs := r.regs ++ [(host, leAt 8 8 c.data)] })) ∧
    (d.readyNs h 0x11 1 c x → 16 ≤ c.data.length → bitsOf 7 0 (cdw 10 c.sqe) = 0 → bitsOf 31 16 (cdw 10 c.sqe) = 0 →
      bitsOf 15 8 (cdw 10 c.sqe) = 1 → bitsOf 2 0 (cdw 10 c.sqe) = 0 → bitsOf 7 3 (cdw 10 c.sqe) = 0 →
      r.keyOf host = some (leAt 0 8 c.data) →
      (r.holder = none → Does (.reservationAcquire h) s (d.putResv c { r with holder := some host })) ∧
      (r.holder = some host → Does (.reservationAcquire h) s (d.putResv c r)) ∧
      (∀ other, r.holder = some other → other ≠ host → Does (.reservationAcquire h) s (d.failCmd h 0 0x83 true none))) ∧
    (d.readyNs h 0x15 1 c x → 8 ≤ c.data.length → bitsOf 2 0 (cdw 10 c.sqe) = 0 → bitsOf 7 3 (cdw 10 c.sqe) = 0 →
      bitsOf 31 16 (cdw 10 c.sqe) = 0 → bitsOf 15 8 (cdw 10 c.sqe) = 1 → r.keyOf host = some (leAt 0 8 c.data) →
      (r.holder = some host → Does (.reservationRelease h) s (d.putResv c { r with holder := none })) ∧
      (r.holder ≠ some host → Does (.reservationRelease h) s (d.putResv c r))) ∧
    (d.readyNs h 0x0E 2 c x → cdw 11 c.sqe = 1 → (cdw 10 c.sqe + 1) * 4 ≤ 1048576 →
      Does (.reservationReport h) s
        (d.answer c (sliceB 0 ((cdw 10 c.sqe + 1) * 4)
          (leBytes 4 r.gen ++ leBytes 1 (b2n r.holder.isSome) ++ leBytes 2 r.regs.length ++ zeros 57 ++
            r.regs.flatMap (fun p => leBytes 2 0xFFFF ++ leBytes 1 (b2n (r.holder == some p.1)) ++ zeros 5 ++ leBytes 8 p.2 ++
              sliceB 0 16 p.1 ++ zeros 32))) 0 0))

/-- R238, Key Value commands on a frame view with a key of 16 bytes: Exist says whether the catalog holds the key; Retrieve
reads the frame's stored bytes; List gives the keys from the one named, rising; Store and Delete fail with Namespace is
Write Protected. -/
def Obligations.ViewCommands : Prop :=
  ∀ (s : State) (h : Nat) (c : HCmd) (x : Namespace), x.kind = 2 →
    let d := s.dev
    let recs := d.viewRecs c x
    (d.readyNs h 0x14 2 c x → bitsOf 7 0 (cdw 11 c.sqe) = 16 →
      (recs.any (fun r => kvKey r == sqeKey c.sqe) = true → Does (.exist h) s (d.succeed h 0 0)) ∧
      (recs.any (fun r => kvKey r == sqeKey c.sqe) = false → Does (.exist h) s (d.failCmd h 0 0x87 true none))) ∧
    (∀ (r : List Byte) (y : Namespace), d.readyNs h 0x02 2 c x → bitsOf 7 0 (cdw 11 c.sqe) = 16 →
      recs.find? (fun r => kvKey r == sqeKey c.sqe) = some r → d.nspace (nsKey c.inst x.view) = some y →
      Does (.retrieve h) s
        (d.startRead c { y with lbaf := 0 } (nsKey c.inst x.view) (leAt 32 8 r * 4096) (leAt 48 4 r) [] (cdw 10 c.sqe))) ∧
    (d.readyNs h 0x06 2 c x → bitsOf 7 0 (cdw 11 c.sqe) = 16 →
      Does (.list h) s
        (let ks := (recs.map (fun r => ofBe (kvKey r))).foldl (fun l k => insertKey k l) []
         let ks := (ks.filter (fun k => decide (ofBe (sqeKey c.sqe) ≤ k))).take ((cdw 10 c.sqe - 4) / 20)
         d.answer c (leBytes 4 ks.length ++ ks.flatMap (fun k => leBytes 2 16 ++ beBytes 16 k ++ zeros 2)) 0 0)) ∧
    (d.readyNs h 0x01 1 c x → Does (.store h) s (d.failCmd h 0 0x20 true none)) ∧
    (d.readyNs h 0x10 1 c x → Does (.delete h) s (d.failCmd h 0 0x20 true none))

/-- R268 to R272, the six updates on a context whose partition it may reach, with no update waiting and no partition moving:
each does to its entry what its operation says and reports code 0 with the position; READ reports the entry. R273 to R275
and R278, NEXT, END, STEP_HANDLE_EXPIRY, PARTITION_MOVE_DONE and PARITY_SCAN: END closes an open handle with code 0; NEXT
without a handle is code 7, and with one returns the next higher match; an idle handle expires with 0x7011; a moved
partition has its new first entry; a transient parity error is counted with 0x7040. -/
def Obligations.GeckoUpdates : Prop :=
  (∀ (s : State) (ag : Agent) (x : Fin 276) (p : Fin 64) (pos : BitVec 20), ctxMine ag x = true → s.dev.gk.updates = [] →
    s.dev.gk.moves = [] → s.dev.partCode x p = 0 → pos.toNat < s.dev.pCount p →
    let d := s.dev
    let i := d.pFirst p + pos.toNat
    let e := d.gent i
    let v := d.wide .CTX_VAL x
    let c := d.wide .CTX_CARE x
    let r := BitVec.ofNat 32 (d.rd .CTX_ERESULT x)
    Does (.geckoInvalidate ag x p pos) s
      (((d.setGent i { e with valid := false }).updStatus x 0 pos.toNat false false false).gkSync x p) ∧
    Does (.geckoValidate ag x p pos) s
      (((d.setGent i { e with valid := true }).updStatus x 0 pos.toNat false false false).gkSync x p) ∧
    Does (.geckoRead ag x p pos) s
      (((((d.setWide .CTX_VAL x e.v).setWide .CTX_CARE x e.c).wr .CTX_ERESULT e.res.toNat x)).updStatus x 0 pos.toNat false
        e.valid e.disabled) ∧
    (e.disabled = false →
      Does (.geckoReplace ag x p pos) s
        (((d.setGent i ⟨v, c, r, true, false, parityOf v c r, false⟩).updStatus x 0 pos.toNat false false false).gkSync x p)) ∧
    (e.disabled = false → e.valid = false →
      Does (.geckoWrite ag x p pos) s
        (((d.setGent i ⟨v, c, r, false, false, parityOf v c r, false⟩).updStatus x 0 pos.toNat false false false).gkSync x p)) ∧
    (e.disabled = false → e.valid = false → d.handleOn p = false →
      Does (.geckoInsert ag x p pos) s
        ((((d.setGent i ⟨v, c, r, true, false, parityOf v c r, false⟩).updStatus x 0 pos.toNat false false false).wr .UPD_FREE
          pos.toNat x).gkSync x p))) ∧
  ((∀ (s : State) (ag : Agent) (x : Fin 276) (h : Handle), ctxMine ag x = true → amFind x.val s.dev.gk.handles = some h →
    h.expired = false → s.dev.handleDue h = false → s.dev.gk.updates = [] →
    Does (.geckoEnd ag x) s
      (({ s.dev with gk.handles := amDel x s.dev.gk.handles } : Dev).srchStatus x false false false 0 0 0)) ∧
  (∀ (s : State) (ag : Agent) (x : Fin 276), ctxMine ag x = true → amFind x.val s.dev.gk.handles = none →
    Does (.geckoNext ag x) s (s.dev.srchStatus x false false false 7 0 0)) ∧
  (∀ (s : State) (ag : Agent) (x : Fin 276) (h : Handle) (i j : Nat) (rest : List Nat), ctxMine ag x = true →
    amFind x.val s.dev.gk.handles = some h → h.expired = false → s.dev.handleDue h = false → s.dev.pPresent h.part = true →
    (s.dev.matches_ h.part h.key h.mask).filter (fun i => decide (s.dev.pFirst h.part + h.last < i)) = i :: j :: rest →
    Does (.geckoNext ag x) s
      (let e := s.dev.cnt64 .GKO_SEARCHES_LO .GKO_SEARCHES_HI 0 1
       ({ e with gk.handles := amPut x { h with last := i - s.dev.pFirst h.part, at_ := s.dev.now } s.dev.gk.handles } : Dev).srchStatus
         x true true true 0 (i - s.dev.pFirst h.part) (s.dev.gent i).res.toNat)) ∧
  (∀ (s : State) (x : Fin 276) (h : Handle), amFind x.val s.dev.gk.handles = some h → h.expired = false →
    s.dev.handleDue h = true → s.dev.gk.updates = [] →
    Does (.stepHandleExpiry x) s
      (({ s.dev with gk.handles := amPut x { h with expired := true } s.dev.gk.handles } : Dev).raise 0x7011
        [(2, x.val), (1, h.part)])) ∧
  (∀ (s : State) (p : Fin 64) (m : PartMove), s.dev.gk.moves.find? (fun m => m.part == p.val) = some m →
    s.dev.gk.updates = [] → m.newFirst < 2 ^ 20 →
    Ends (.partitionMoveDone p) s (fun e => e.pFirst p = m.newFirst ∧ e.rd .GKO_PART_BASE_MOVING p = 0 ∧
      e.gk.moves = s.dev.gk.moves.filter (fun q => q.part != p.val) ∧
      e.logged 0x7060 0 (packData [(1, p.val), (2, m.oldFirst), (2, m.newFirst)]) ∧ SameMem s.dev e)) ∧
  (∀ (s : State) (i p : Nat), s.dev.partAt i = some p →
    Does (.parityScan [(i, .transient)]) s
      ((s.dev.cnt .GKO_CNT_TRANSIENT).raise 0x7040 [(1, p), (2, i - s.dev.pFirst p)])))

/-- R259, R260 and R273, SEARCH on a context whose partition it may reach, with the entries in canonical form and none of
them at fault: the matching entry of the lowest position wins, its RESULT is returned, and MULTI says that another matches;
without a match HIT is 0. No entry changes. -/
def Obligations.GeckoSearchLowest : Prop :=
  ∀ (s : State) (ag : Agent) (x : Fin 276) (p : Fin 64), ctxMine ag x = true → s.dev.gk.updates = [] →
    s.dev.partCode x p = 0 → amWf gInit s.dev.gk.entries = true →
    let d := s.dev
    let hit := fun i => d.inPart p i && (d.gent i).hits (d.wide .CTX_KEY x) (d.wide .CTX_SMASK x)
    (∀ i, hit i = true → (∀ j, j < i → hit j = false) → i - d.pFirst p < 2 ^ 20 →
      Ends (.geckoSearch ag x p .none) s (fun e => e.rd .SRCH_STATUS_DONE x = 1 ∧ e.rd .SRCH_STATUS_HIT x = 1 ∧
        e.rd .SRCH_STATUS_CODE x = 0 ∧ e.rd .SRCH_STATUS_POS x = i - d.pFirst p ∧
        e.rd .SRCH_RESULT x = (d.gent i).res.toNat ∧ (e.rd .SRCH_STATUS_MULTI x = 1 ↔ ∃ j, i < j ∧ hit j = true) ∧
        e.gk.entries = d.gk.entries ∧ SameMem d e)) ∧
    ((∀ i, hit i = false) →
      Ends (.geckoSearch ag x p .none) s (fun e => e.rd .SRCH_STATUS_DONE x = 1 ∧ e.rd .SRCH_STATUS_HIT x = 0 ∧
        e.rd .SRCH_STATUS_CODE x = 0 ∧ e.gk.entries = d.gk.entries ∧ SameMem d e))

/-- The Gecko commands keep the entries in canonical form: indices rising, and no entry listed that equals one after the
build. -/
def Obligations.GeckoKeepsEntries : Prop :=
  ∀ (s t : State) (ag : Agent) (x : Fin 276) (p : Fin 64) (pos : BitVec 20) (f : FaultClass) (found : List (Nat × FaultClass))
    (c : Instr),
    c ∈ [.geckoSearch ag x p f, .geckoNext ag x, .geckoEnd ag x, .geckoInvalidate ag x p pos, .geckoWrite ag x p pos,
      .geckoValidate ag x p pos, .geckoInsert ag x p pos, .geckoRead ag x p pos, .geckoReplace ag x p pos,
      .stepHandleExpiry x, .partitionMoveDone p, .parityScan found] →
    amWf gInit s.dev.gk.entries = true → exec c s = .next t → amWf gInit t.dev.gk.entries = true

/-- R280, R282 and R292, the integer, predicate and special-register syllables, each alone in its bundle: what each writes,
from the registers as they stood before it; every other register, memory and the device's other state stay as they are. -/
def Obligations.PypoizInteger : Prop :=
  (∀ (u : Bundle) (b : Bool) (rd ra rb : BitVec 6),
    Computes (.add u b rd ra rb) u (.alu b .add rd ra rb) (fun x => x.setG rd (x.gr ra + x.gr rb)) ∧
    Computes (.sub u b rd ra rb) u (.alu b .sub rd ra rb) (fun x => x.setG rd (x.gr ra - x.gr rb)) ∧
    Computes (.and u b rd ra rb) u (.alu b .and rd ra rb) (fun x => x.setG rd (x.gr ra &&& x.gr rb)) ∧
    Computes (.or u b rd ra rb) u (.alu b .or rd ra rb) (fun x => x.setG rd (x.gr ra ||| x.gr rb)) ∧
    Computes (.xor u b rd ra rb) u (.alu b .xor rd ra rb) (fun x => x.setG rd (x.gr ra ^^^ x.gr rb)) ∧
    Computes (.andn u b rd ra rb) u (.alu b .andn rd ra rb) (fun x => x.setG rd (x.gr ra &&& ~~~ x.gr rb)) ∧
    Computes (.shl u b rd ra rb) u (.alu b .shl rd ra rb) (fun x => x.setG rd (x.gr ra <<< ((x.gr rb).toNat % 64))) ∧
    Computes (.shr u b rd ra rb) u (.alu b .shr rd ra rb) (fun x => x.setG rd (x.gr ra >>> ((x.gr rb).toNat % 64))) ∧
    Computes (.sar u b rd ra rb) u (.alu b .sar rd ra rb)
      (fun x => x.setG rd ((x.gr ra).sshiftRight ((x.gr rb).toNat % 64))) ∧
    Computes (.mul u b rd ra rb) u (.alu b .mul rd ra rb) (fun x => x.setG rd (x.gr ra * x.gr rb)) ∧
    Computes (.mulhu u b rd ra rb) u (.alu b .mulhu rd ra rb)
      (fun x => x.setG rd (BitVec.ofNat 64 ((x.gr ra).toNat * (x.gr rb).toNat / 2 ^ 64))) ∧
    Computes (.mulhs u b rd ra rb) u (.alu b .mulhs rd ra rb)
      (fun x => x.setG rd (BitVec.ofInt 64 ((x.gr ra).toInt * (x.gr rb).toInt / 2 ^ 64))) ∧
    Computes (.min u b rd ra rb) u (.alu b .min rd ra rb)
      (fun x => x.setG rd (if (x.gr ra).toInt < (x.gr rb).toInt then x.gr ra else x.gr rb)) ∧
    Computes (.max u b rd ra rb) u (.alu b .max rd ra rb)
      (fun x => x.setG rd (if (x.gr ra).toInt < (x.gr rb).toInt then x.gr rb else x.gr ra)) ∧
    Computes (.minu u b rd ra rb) u (.alu b .minu rd ra rb)
      (fun x => x.setG rd (if (x.gr ra).toNat < (x.gr rb).toNat then x.gr ra else x.gr rb)) ∧
    Computes (.maxu u b rd ra rb) u (.alu b .maxu rd ra rb)
      (fun x => x.setG rd (if (x.gr ra).toNat < (x.gr rb).toNat then x.gr rb else x.gr ra))) ∧
  (∀ (u : Bundle) (b : Bool) (rd ra : BitVec 6) (imm : BitVec 11),
    Computes (.addi u b rd ra imm) u (.alui b .addi rd ra imm) (fun x => x.setG rd (x.gr ra + imm.signExtend 64)) ∧
    Computes (.andi u b rd ra imm) u (.alui b .andi rd ra imm) (fun x => x.setG rd (x.gr ra &&& imm.signExtend 64)) ∧
    Computes (.ori u b rd ra imm) u (.alui b .ori rd ra imm) (fun x => x.setG rd (x.gr ra ||| imm.signExtend 64)) ∧
    Computes (.xori u b rd ra imm) u (.alui b .xori rd ra imm) (fun x => x.setG rd (x.gr ra ^^^ imm.signExtend 64))) ∧
  (∀ (u : Bundle) (b : Bool) (rd ra sh : BitVec 6),
    Computes (.shli u b rd ra sh) u (.shi b .shl rd ra sh) (fun x => x.setG rd (x.gr ra <<< sh.toNat)) ∧
    Computes (.shri u b rd ra sh) u (.shi b .shr rd ra sh) (fun x => x.setG rd (x.gr ra >>> sh.toNat)) ∧
    Computes (.sari u b rd ra sh) u (.shi b .sar rd ra sh) (fun x => x.setG rd ((x.gr ra).sshiftRight sh.toNat))) ∧
  (∀ (u : Bundle) (b : Bool) (cond pd : BitVec 3) (ra rb : BitVec 6) (imm : BitVec 11),
    let holds := fun (v w : W64) => match cond.toNat with
      | 0 => decide (v = w) | 1 => decide (v ≠ w) | 2 => decide (v.toInt < w.toInt) | 3 => decide (w.toInt ≤ v.toInt)
      | 4 => decide (v.toNat < w.toNat) | _ => decide (w.toNat ≤ v.toNat)
    Computes (.cmp u b cond pd ra rb) u (.cmp b cond pd ra rb) (fun x => x.setP pd (holds (x.gr ra) (x.gr rb))) ∧
    Computes (.cmpi u b cond pd ra imm) u (.cmpi b cond pd ra imm)
      (fun x => x.setP pd (holds (x.gr ra) (imm.signExtend 64)))) ∧
  (∀ (u : Bundle) (b : Bool) (rd ra rb : BitVec 6) (p : BitVec 3),
    Computes (.sel u b rd ra rb p) u (.sel b rd ra rb p) (fun x => x.setG rd (if x.pr p then x.gr ra else x.gr rb))) ∧
  (∀ (u : Bundle) (b : Bool) (rd ra : BitVec 6),
    Computes (.unary u b 0 rd ra) u (.unary b 0 rd ra) (fun x => x.setG rd (BitVec.ofNat 64 (clz (x.gr ra)))) ∧
    Computes (.unary u b 1 rd ra) u (.unary b 1 rd ra) (fun x => x.setG rd (BitVec.ofNat 64 (ctz (x.gr ra)))) ∧
    Computes (.unary u b 2 rd ra) u (.unary b 2 rd ra) (fun x => x.setG rd (BitVec.ofNat 64 (popCount (x.gr ra)))) ∧
    Computes (.unary u b 3 rd ra) u (.unary b 3 rd ra)
      (fun x => x.setG rd (BitVec.ofNat 64 (ofBe (leBytes 8 (x.gr ra).toNat)))) ∧
    Computes (.unary u b 4 rd ra) u (.unary b 4 rd ra) (fun x => x.setG rd (((x.gr ra).setWidth 8).signExtend 64)) ∧
    Computes (.unary u b 5 rd ra) u (.unary b 5 rd ra) (fun x => x.setG rd (((x.gr ra).setWidth 16).signExtend 64)) ∧
    Computes (.unary u b 6 rd ra) u (.unary b 6 rd ra) (fun x => x.setG rd (((x.gr ra).setWidth 32).signExtend 64)) ∧
    Computes (.unary u b 7 rd ra) u (.unary b 7 rd ra) (fun x => x.setG rd (((x.gr ra).setWidth 32).setWidth 64))) ∧
  (∀ (u : Bundle) (b : Bool) (pd pa pb : BitVec 3),
    Computes (.plog u b 0 pd pa pb) u (.plog b 0 pd pa pb) (fun x => x.setP pd (x.pr pa && x.pr pb)) ∧
    Computes (.plog u b 1 pd pa pb) u (.plog b 1 pd pa pb) (fun x => x.setP pd (x.pr pa || x.pr pb)) ∧
    Computes (.plog u b 2 pd pa pb) u (.plog b 2 pd pa pb) (fun x => x.setP pd (x.pr pa != x.pr pb)) ∧
    Computes (.plog u b 3 pd pa pb) u (.plog b 3 pd pa pb) (fun x => x.setP pd (x.pr pa && !x.pr pb))) ∧
  (∀ (u : Bundle) (b : Bool) (rd ra : BitVec 6),
    Computes (.mfs u b rd 0) u (.mfs b rd 0) (fun x => x.setG rd (x.lr.setWidth 64)) ∧
    Computes (.mfs u b rd 1) u (.mfs b rd 1) (fun x => x.setG rd (x.rc.setWidth 64)) ∧
    Computes (.mfs u b rd 2) u (.mfs b rd 2) (fun x => x.setG rd (x.ev.setWidth 64)) ∧
    Computes (.mfs u b rd 3) u (.mfs b rd 3) (fun x => x.setG rd (x.evm.setWidth 64)) ∧
    Computes (.mfs u b rd 5) u (.mfs b rd 5) (fun x => x.setG rd x.st) ∧
    Computes (.mts u b 0 ra) u (.mts b 0 ra) (fun x => { x with lr := (x.gr ra).setWidth 32 }) ∧
    Computes (.mts u b 1 ra) u (.mts b 1 ra) (fun x => { x with rc := (x.gr ra).setWidth 16 }) ∧
    Computes (.mts u b 2 ra) u (.mts b 2 ra) (fun x => { x with ev := x.ev &&& ~~~ (x.gr ra).setWidth 32 }) ∧
    Computes (.mts u b 3 ra) u (.mts b 3 ra) (fun x => { x with evm := (x.gr ra).setWidth 32 }) ∧
    Computes (.mts u b 5 ra) u (.mts b 5 ra)
      (fun x => { x with st := stOf ((x.gr ra).getLsbD 0) ((x.gr ra).getLsbD 1) x.exc x.repa x.repi }) ∧
    Computes (.mfp u b rd) u (.mfp b rd) (fun x => x.setG rd ((x.p ||| 1#8).setWidth 64)) ∧
    Computes (.mtp u b ra) u (.mtp b ra)
      (fun x => { x with p := ((x.gr ra).setWidth 8 &&& 0xFE#8) ||| (x.p &&& 1#8) })) ∧
  (∀ (u : Bundle) (b : Bool) (rd : BitVec 6) (s : State), s.dev.about u (.mfs b rd 4) →
    Does (.mfs u b rd 4) s ((s.dev.setCore u.core ((s.dev.core u.core).setG rd (BitVec.ofNat 64 s.dev.now))).goTo u.core
      ((s.dev.core u.core).pc.toNat + 4))) ∧
  (∀ (u : Bundle) (b : Bool) (rd : BitVec 6) (imm : BitVec 17) (half : BitVec 16),
    Computes (.movi u b rd imm) u (.movi b rd imm) (fun x => x.setG rd (imm.signExtend 64)) ∧
    Computes (.pcadd u b rd imm) u (.pcadd b rd imm)
      (fun x => x.setG rd (x.pc.setWidth 64 + imm.signExtend 64 * 4#64)) ∧
    Computes (.movk u b 0 rd half) u (.movk b 0 rd half) (fun x => x.setG rd ((x.gr rd).extractLsb' 16 48 ++ half)) ∧
    Computes (.movk u b 1 rd half) u (.movk b 1 rd half)
      (fun x => x.setG rd ((x.gr rd).extractLsb' 32 32 ++ half ++ (x.gr rd).extractLsb' 0 16)) ∧
    Computes (.movk u b 2 rd half) u (.movk b 2 rd half)
      (fun x => x.setG rd ((x.gr rd).extractLsb' 48 16 ++ half ++ (x.gr rd).extractLsb' 0 32)) ∧
    Computes (.movk u b 3 rd half) u (.movk b 3 rd half) (fun x => x.setG rd (half ++ (x.gr rd).extractLsb' 0 48)))

/-- R280, R292 and R295, the vector syllables, each alone in its bundle: what each writes, element by element. -/
def Obligations.PypoizVector : Prop :=
  (∀ (u : Bundle) (vd va vb : BitVec 5) (ew : BitVec 2),
    let w := 8 * 2 ^ ew.toNat
    let each := fun (f : Nat → Nat → Nat) (x : PCore) =>
      x.setV vd (vecOf w (fun i => f (elem w i (x.vr va)) (elem w i (x.vr vb))))
    let ones := 2 ^ w - 1
    Computes (.vadd u vd va vb ew) u (.vv .add vd va vb ew) (each (fun a b => a + b)) ∧
    Computes (.vsub u vd va vb ew) u (.vv .sub vd va vb ew) (each (fun a b => a + 2 ^ w - b)) ∧
    Computes (.vaddsu u vd va vb ew) u (.vv .addsu vd va vb ew) (each (fun a b => Nat.min ones (a + b))) ∧
    Computes (.vsubsu u vd va vb ew) u (.vv .subsu vd va vb ew) (each (fun a b => if a < b then 0 else a - b)) ∧
    Computes (.vmul u vd va vb ew) u (.vv .mul vd va vb ew) (each (fun a b => a * b)) ∧
    Computes (.vminu u vd va vb ew) u (.vv .minu vd va vb ew) (each Nat.min) ∧
    Computes (.vmaxu u vd va vb ew) u (.vv .maxu vd va vb ew) (each Nat.max) ∧
    Computes (.vmin u vd va vb ew) u (.vv .min vd va vb ew) (each (fun a b => if toSigned w a < toSigned w b then a else b)) ∧
    Computes (.vmax u vd va vb ew) u (.vv .max vd va vb ew) (each (fun a b => if toSigned w a < toSigned w b then b else a)) ∧
    Computes (.vabsdu u vd va vb ew) u (.vv .absdu vd va vb ew) (each (fun a b => Nat.max a b - Nat.min a b)) ∧
    Computes (.vcmpeq u vd va vb ew) u (.vv .cmpeq vd va vb ew) (each (fun a b => if a = b then ones else 0)) ∧
    Computes (.vcmpgtu u vd va vb ew) u (.vv .cmpgtu vd va vb ew) (each (fun a b => if a > b then ones else 0)) ∧
    Computes (.vcmpgt u vd va vb ew) u (.vv .cmpgt vd va vb ew)
      (each (fun a b => if toSigned w a > toSigned w b then ones else 0))) ∧
  (∀ (u : Bundle) (vd va vb vm : BitVec 5),
    Computes (.vand u vd va vb) u (.vlog .and vd va vb) (fun x => x.setV vd (x.vr va &&& x.vr vb)) ∧
    Computes (.vor u vd va vb) u (.vlog .or vd va vb) (fun x => x.setV vd (x.vr va ||| x.vr vb)) ∧
    Computes (.vxor u vd va vb) u (.vlog .xor vd va vb) (fun x => x.setV vd (x.vr va ^^^ x.vr vb)) ∧
    Computes (.vsel u vd va vb vm) u (.vsel vd va vb vm)
      (fun x => x.setV vd ((x.vr vm &&& x.vr va) ||| (~~~ x.vr vm &&& x.vr vb)))) ∧
  (∀ (u : Bundle) (vd va : BitVec 5) (ew : BitVec 2) (n : BitVec 6),
    let w := 8 * 2 ^ ew.toNat
    Computes (.vshli u vd va ew n) u (.vsh .shl vd va ew n)
      (fun x => x.setV vd (vecOf w (fun i => elem w i (x.vr va) * 2 ^ n.toNat))) ∧
    Computes (.vshri u vd va ew n) u (.vsh .shr vd va ew n)
      (fun x => x.setV vd (vecOf w (fun i => elem w i (x.vr va) / 2 ^ n.toNat))) ∧
    Computes (.vsari u vd va ew n) u (.vsh .sar vd va ew n)
      (fun x => x.setV vd (vecOf w (fun i => (toSigned w (elem w i (x.vr va)) / 2 ^ n.toNat % 2 ^ w).toNat)))) ∧
  (∀ (u : Bundle) (v : BitVec 5) (g : BitVec 6) (ew : BitVec 2) (idx : BitVec 5),
    let w := 8 * 2 ^ ew.toNat
    Computes (.vbcst u v g ew) u (.vbcst v g ew) (fun x => x.setV v (vecOf w (fun _ => (x.gr g).toNat))) ∧
    Computes (.vget u g v ew idx) u (.vget g v ew idx)
      (fun x => x.setG g (BitVec.ofNat 64 (elem w idx.toNat (x.vr v)))) ∧
    Computes (.vrsum u g v ew) u (.vrsum g v ew)
      (fun x => x.setG g (BitVec.ofNat 64 (((List.range (256 / w)).map (fun i => elem w i (x.vr v))).sum)))) ∧
  (∀ (u : Bundle) (vd va : BitVec 5) (msb : BitVec 1) (k : BitVec 2),
    let depth := 10 + 2 * k.toNat
    Computes (.vunp u vd va msb k) u (.vunp vd va msb k)
      (fun x => x.setV vd (vecOf 16 (fun i =>
        if msb = 1 then
          ofBe ((leBytes 32 (x.vr va).toNat).take (2 * depth)) / 2 ^ (depth * (15 - i)) % 2 ^ depth
        else ofLe ((leBytes 32 (x.vr va).toNat).take (2 * depth)) / 2 ^ (depth * i) % 2 ^ depth))))

/-- R282 and R292, a bundle of several register syllables executes at once: every syllable reads the registers as they stood
before the bundle, each register that one of them writes then holds what that syllable alone makes of them, and every other
register is as before; the device's other state does not change, but for the next bundle's address. -/
def Obligations.BundleActsAtOnce : Prop :=
  ∀ (s : State) (u : Bundle) (b : Bool) (rd ra rb : BitVec 6) (ys : List Syl),
    let x := s.dev.core u.core
    let ws := bundleWords u ((Syl.alu b .add rd ra rb).encode false)
    let next := x.pc.toNat + 4 * ws.length
    x.runs = true → s.dev.fetchOk u.core x.pc.toNat = true → u.err = .none → x.illegalAt ws = none →
    ws.map decodeSyl = ys.map some → (∀ y ∈ ys, y.plain = true) →
    ∃ z : PCore,
      Does (.add u b rd ra rb) s ((s.dev.setCore u.core z).goTo u.core next) ∧
      (∀ r : BitVec 6, (∀ y ∈ ys, y.gDest ≠ some r) → z.gr r = x.gr r) ∧
      (∀ y ∈ ys, ∀ r, y.gDest = some r → z.gr r = (x.apply x x.pc.toNat next s.dev.now 0 y).gr r) ∧
      (∀ r : BitVec 5, (∀ y ∈ ys, y.vDest ≠ some r) → z.vr r = x.vr r) ∧
      (∀ y ∈ ys, ∀ r, y.vDest = some r → z.vr r = (x.apply x x.pc.toNat next s.dev.now 0 y).vr r) ∧
      (∀ k : BitVec 3, (∀ y ∈ ys, k.toNat ∉ y.pDests) → z.pr k = x.pr k) ∧
      (∀ y ∈ ys, ∀ k : BitVec 3, k.toNat ∈ y.pDests → z.pr k = (x.apply x x.pc.toNat next s.dev.now 0 y).pr k) ∧
      { z with g := x.g, v := x.v, p := x.p } = x

/-- R285, R292, R302, R303, R306, R308 and R314, the control syllables, each alone in its bundle: where each goes and what
it writes besides. -/
def Obligations.PypoizControl : Prop :=
  (∀ (s : State) (u : Bundle) (p : BitVec 3) (n : BitVec 1) (off : BitVec 19),
    let x := s.dev.core u.core
    s.dev.about u (.br p n off) →
    Does (.br u p n off) s ((s.dev.setCore u.core x).goTo u.core
      (if p = 0 ∨ x.pr p = (n == 0) then (x.pc + off.signExtend 32 * 4#32).toNat else x.pc.toNat + 4))) ∧
  (∀ (s : State) (u : Bundle) (off : BitVec 19) (ra : BitVec 6),
    let x := s.dev.core u.core
    let linked := s.dev.setCore u.core { x with lr := x.pc + 4 }
    (s.dev.about u (.call off) →
      Does (.call u off) s (linked.goTo u.core (x.pc + off.signExtend 32 * 4#32).toNat)) ∧
    (s.dev.about u (.jalr ra) → Does (.jalr u ra) s (linked.goTo u.core (x.gr ra).toNat)) ∧
    (s.dev.about u (.jr ra) → Does (.jr u ra) s ((s.dev.setCore u.core x).goTo u.core (x.gr ra).toNat)) ∧
    (s.dev.about u .ret → Does (.ret u) s ((s.dev.setCore u.core x).goTo u.core x.lr.toNat))) ∧
  (∀ (u : Bundle) (fn : BitVec 5), Computes (.fence u fn) u (.fence fn) (fun x => x)) ∧
  (∀ (s : State) (u : Bundle) (rd ra : BitVec 6),
    let x := s.dev.core u.core
    let seen := (x.ev &&& x.evm).setWidth 64
    let ends := ((s.dev.setCore u.core x).setCore u.core { x.setG rd seen with wait := none }).goTo u.core (x.pc.toNat + 4)
    (s.dev.about u (.wfe rd) →
      Does (.wfe u rd) s (if x.ev &&& x.evm ≠ 0 then ends else
        (s.dev.setCore u.core x).setCore u.core { x with wait := some ⟨rd.toNat, none⟩ })) ∧
    (s.dev.about u (.waitt rd ra) →
      Does (.waitt u rd ra) s (if x.ev &&& x.evm ≠ 0 ∨ (x.gr ra).toNat ≤ s.dev.now then ends else
        (s.dev.setCore u.core x).setCore u.core { x with wait := some ⟨rd.toNat, some (x.gr ra).toNat⟩ }))) ∧
  (∀ (s : State) (c : Fin 272) (rd : BitVec 6) (deadline : Option Nat),
    let x := s.dev.core c
    x.wait = some ⟨rd.toNat, deadline⟩ → (x.ev &&& x.evm ≠ 0 ∨ ∃ t, deadline = some t ∧ t ≤ s.dev.now) →
    Does (.waitWake c) s ((s.dev.setCore c { x.setG rd ((x.ev &&& x.evm).setWidth 64) with wait := none }).goTo c
      (x.pc.toNat + 4))) ∧
  (∀ (s : State) (u : Bundle) (ra : BitVec 6) (w : WorkItem),
    let x := s.dev.core u.core
    s.dev.about u (.sev ra) → x.wi = some w →
    Ends (.sev u ra) s (fun e => ∃ f : Dev, e = f.goTo u.core (x.pc.toNat + 4) ∧ { f with cor := s.dev.cor } = s.dev ∧
      ∀ c, f.core c = if c / 8 = u.core.val / 8 ∧ (x.gr ra).toNat.testBit (c % 8) = true ∧
          (s.dev.core c).wi.map (·.inst) = some w.inst then
        { s.dev.core c with ev := (s.dev.core c).ev ||| 1#32 <<< (u.core.val % 8) } else s.dev.core c)) ∧
  (∀ (s : State) (u : Bundle) (code : BitVec 8),
    let x := s.dev.core u.core
    s.dev.about u (.trap code) →
    Does (.trap u code) s (((s.dev.setCore u.core x).setPc u.core (x.pc.toNat + 4)).takeException u.core 0x08
      (x.pc.toNat + 4) code.toNat (some 1))) ∧
  (∀ (s : State) (u : Bundle),
    let x := s.dev.core u.core
    let value := leBytes 8 (x.gr 2).toNat ++ leBytes 8 (x.gr 3).toNat ++ leBytes 8 (x.gr 4).toNat ++ leBytes 8 (x.gr 5).toNat
    let at' := (s.dev.setCore u.core x).setPc u.core (x.pc.toNat + 4)
    s.dev.about u .endw →
    Does (.endw u) s (if x.xfers = [] then at'.endNow u.core value else
      at'.setCore u.core { at'.core u.core with ending := some value })) ∧
  (∀ (s : State) (u : Bundle) (upTo : Option Nat),
    let c := u.core
    let x := s.dev.core c
    let st := stOf (s.dev.rd .CORE_EXC_PSUP c == 1) (s.dev.rd .CORE_EXC_PIE c == 1) false false false
    s.dev.about u .eret → s.dev.rd .CORE_EXC_EREP c = 0 →
    Does (.eret u upTo) s (((s.dev.setCore c x).setCore c { x with st := st }).goTo c (s.dev.rd .CORE_EPC c))) ∧
  (∀ (s : State) (u : Bundle) (upTo : Option Nat),
    let c := u.core
    let x := s.dev.core c
    s.dev.about u .eret → s.dev.rd .CORE_EXC_EREP c = 1 → 0 < s.dev.rd .CORE_ERC c →
    s.dev.fetchOk c (s.dev.rd .CORE_EPC c) = true →
    let st := stOf (s.dev.rd .CORE_EXC_PSUP c == 1) (s.dev.rd .CORE_EXC_PIE c == 1) false true (s.dev.rd .CORE_EXC_EREPI c == 1)
    let rc := BitVec.ofNat 16 (s.dev.rd .CORE_ERC c)
    let pc := BitVec.ofNat 32 (s.dev.rd .CORE_EPC c)
    Does (.eret u upTo) s (((s.dev.setCore c x).setCore c { x with st := st, rc := rc, pc := pc }).repeatRun c
      (s.dev.rd .CORE_EPC c) upTo))

/-- R286 to R290, R293, R294 and R305, the memory and I/O syllables, each alone in its bundle: the address, what is loaded
or stored there, and nothing else; an atomic operation writes what R293 says of the value it read; XFER starts a transfer.
-/
def Obligations.PypoizMemory : Prop :=
  let on := fun (s : State) (u : Bundle) (y : Syl) (z : PCore) (c : Instr) (after : Dev → Dev) => s.dev.about u y →
    Does c s ((after (s.dev.setCore u.core z)).goTo u.core ((s.dev.core u.core).pc.toNat + 4))
  let reads := fun (s : State) (u : Bundle) (a n : Nat) (bs : List Byte) => a % n = 0 ∧
    (s.dev.core u.core).xferHits a n = false ∧
    ∃ p, s.dev.place u.core a n false = some p ∧ s.dev.readPlace u.core n p = (s.dev, some bs)
  (∀ (s : State) (u : Bundle) (rd ra : BitVec 6) (imm : BitVec 11) (bs : List Byte),
    let x := s.dev.core u.core
    let ea := fun n : Nat => (x.gr ra + imm.signExtend 64 * BitVec.ofNat 64 n).toNat
    let v := ofLe bs
    (reads s u (ea 1) 1 bs → on s u (.ld .b rd ra imm) (x.setG rd (BitVec.ofNat 64 v)) (.ldb u rd ra imm) id ∧
      on s u (.ld .bs rd ra imm) (x.setG rd ((BitVec.ofNat 8 v).signExtend 64)) (.ldbs u rd ra imm) id) ∧
    (reads s u (ea 2) 2 bs → on s u (.ld .h rd ra imm) (x.setG rd (BitVec.ofNat 64 v)) (.ldh u rd ra imm) id ∧
      on s u (.ld .hs rd ra imm) (x.setG rd ((BitVec.ofNat 16 v).signExtend 64)) (.ldhs u rd ra imm) id) ∧
    (reads s u (ea 4) 4 bs → on s u (.ld .w rd ra imm) (x.setG rd (BitVec.ofNat 64 v)) (.ldw u rd ra imm) id ∧
      on s u (.ld .ws rd ra imm) (x.setG rd ((BitVec.ofNat 32 v).signExtend 64)) (.ldws u rd ra imm) id) ∧
    (reads s u (ea 8) 8 bs → on s u (.ld .d rd ra imm) (x.setG rd (BitVec.ofNat 64 v)) (.ldd u rd ra imm) id)) ∧
  (∀ (s : State) (u : Bundle) (vd : BitVec 5) (ra : BitVec 6) (imm : BitVec 11) (bs : List Byte),
    let x := s.dev.core u.core
    reads s u (x.gr ra + imm.signExtend 64 * 32#64).toNat 32 bs →
    on s u (.ldv vd ra imm) (x.setV vd (BitVec.ofNat 256 (ofLe bs))) (.ldv u vd ra imm) id) ∧
  (∀ (s : State) (u : Bundle) (rd ra rb : BitVec 6) (bs : List Byte),
    let x := s.dev.core u.core
    reads s u (x.gr ra + x.gr rb).toNat 8 bs →
    on s u (.lddx rd ra rb) (x.setG rd (BitVec.ofNat 64 (ofLe bs))) (.lddx u rd ra rb) id) ∧
  (∀ (s : State) (u : Bundle) (rs ra : BitVec 6) (imm : BitVec 11) (p : Place),
    let x := s.dev.core u.core
    let ea := fun n : Nat => (x.gr ra + imm.signExtend 64 * BitVec.ofNat 64 n).toNat
    let writes := fun n : Nat => ea n % n = 0 ∧ s.dev.place u.core (ea n) n true = some p
    let put := fun (n : Nat) (d : Dev) => d.writePlace u.core (leBytes n (x.gr rs).toNat) p
    (writes 1 → on s u (.st .b rs ra imm) x (.stb u rs ra imm) (put 1)) ∧
    (writes 2 → on s u (.st .h rs ra imm) x (.sth u rs ra imm) (put 2)) ∧
    (writes 4 → on s u (.st .w rs ra imm) x (.stw u rs ra imm) (put 4)) ∧
    (writes 8 → on s u (.st .d rs ra imm) x (.std u rs ra imm) (put 8))) ∧
  (∀ (s : State) (u : Bundle) (vs : BitVec 5) (ra : BitVec 6) (imm : BitVec 11) (p : Place),
    let x := s.dev.core u.core
    let a := (x.gr ra + imm.signExtend 64 * 32#64).toNat
    a % 32 = 0 → s.dev.place u.core a 32 true = some p →
    on s u (.stv vs ra imm) x (.stv u vs ra imm) (fun d => d.writePlace u.core (leBytes 32 (x.vr vs).toNat) p)) ∧
  (∀ (s : State) (u : Bundle) (rd ra rb : BitVec 6) (bs : List Byte) (p : Place),
    let x := s.dev.core u.core
    let a := (x.gr ra).toNat
    let old := BitVec.ofNat 64 (ofLe bs)
    let put := fun (v : W64) (d : Dev) => d.writePlace u.core (leBytes 8 v.toNat) p
    reads s u a 8 bs → s.dev.place u.core a 8 true = some p → p.near = true → bs.length = 8 →
    on s u (.amoadd rd ra rb) (x.setG rd old) (.amoadd u rd ra rb) (put (old + x.gr rb)) ∧
    on s u (.amoswp rd ra rb) (x.setG rd old) (.amoswp u rd ra rb) (put (x.gr rb)) ∧
    on s u (.cas rd ra rb) (x.setG rd old) (.cas u rd ra rb) (if old = x.gr rd then put (x.gr rb) else id)) ∧
  (∀ (s : State) (u : Bundle) (rl ra rb : BitVec 6) (k : BitVec 3) (p q : Place),
    let x := s.dev.core u.core
    let len := (x.gr rl).toNat
    let src := (x.gr rb).toNat
    let dst := (x.gr ra).toNat
    len % 32 = 0 → 32 ≤ len → len ≤ 1048576 → dst % 32 = 0 → src % 32 = 0 →
    s.dev.place u.core src len false = some p → s.dev.place u.core dst len true = some q → (p.near = true ∨ q.near = true) →
    (∀ t ∈ x.xfers, t.idx ≠ k.toNat) →
    on s u (.xfer rl ra rb k) x (.xfer u rl ra rb k)
      (fun d => d.setCore u.core { x with xfers := x.xfers ++ [⟨k.toNat, dst, src, len⟩] })) ∧
  (∀ (s : State) (u : Bundle) (rd ra : BitVec 6) (imm : BitVec 11),
    let x := s.dev.core u.core
    let a := ((x.gr ra).setWidth 32 + imm.signExtend 32 * 4#32).toNat
    s.dev.about u (.inp rd ra imm) → s.dev.ioFault u.core a false = false →
    Does (.inp u rd ra imm) s
      (let r := ioRead s.dev (.core u.core) u.core a
       (r.2.setCore u.core ((r.2.core u.core).setG rd (BitVec.ofNat 64 r.1))).goTo u.core (x.pc.toNat + 4))) ∧
  (∀ (s : State) (u : Bundle) (rs ra : BitVec 6) (imm : BitVec 11),
    let x := s.dev.core u.core
    let a := ((x.gr ra).setWidth 32 + imm.signExtend 32 * 4#32).toNat
    s.dev.ioFault u.core a true = false →
    on s u (.outp rs ra imm) x (.outp u rs ra imm) (fun d => ioWrite d (.core u.core) u.core a ((x.gr rs).setWidth 32).toNat)) ∧
  (∀ (s : State) (u : Bundle) (rd ra : BitVec 6) (imm : BitVec 11),
    let x := s.dev.core u.core
    let a := (x.gr ra + imm.signExtend 64 * 4#64).toNat
    s.dev.fetchOk u.core a = true →
    on s u (.ldc rd ra imm) (x.setG rd ((s.dev.fetchWord u.core a).setWidth 64)) (.ldc u rd ra imm) id ∧
    on s u (.stc rd ra imm) x (.stc u rd ra imm) (fun d => d.storeText u.core a ((x.gr rd).setWidth 32).toNat))

/-- R296 to R298, REP and REPI of a register syllable: the bundle after the prefix executes as many times as the count says,
each time with the remaining count in rc; then rc is 0, the repetition's flags are clear and the core goes on after it. -/
def Obligations.PypoizRepeats : Prop :=
  ∀ (s : State) (u : Bundle) (i : Bool) (count : RepCount) (n : Nat) (z : Syl),
    let c := u.core
    let x := s.dev.core c
    let b := x.pc.toNat + 4
    let w := s.dev.fetchWord c b
    let once := fun y : PCore => { y.apply y b (b + 4) s.dev.now 0 z with rc := y.rc - 1 }
    s.dev.about u (Syl.ofRep i count) →
    n = (match count with | .reg ra => (x.gr ra).toNat | .const k => k.toNat) →
    s.dev.fetchOk c b = true → stopOf w = true → decodeSyl w = some z → z.plain = true → x.sylLegal true z = true →
    ∃ y : PCore, y = times once n (({ x with rc := BitVec.ofNat 16 n, pc := BitVec.ofNat 32 b } : PCore).setRep true i) ∧
      y.rc = 0 ∧
      ∃ e : Dev, e = ({ s.dev with cor.cores := e.cor.cores } : Dev) ∧ (∀ k, k ≠ c.val → e.core k = s.dev.core k) ∧
        e.core c = y.setRep false false ∧
        Does (if i then .repi u count none else .rep u count) s (e.goTo c (b + 4))

/-- R308 to R311, an exception or interrupt of a core whose st.EXC is 0 enters the handler: the pc, the cause, the address
and the status are saved, st says supervisor, and the pc is at the vector base; in user mode the work item ends with it.
Nothing else of the core changes. -/
def Obligations.ExceptionEntry : Prop :=
  ∀ (s : Dev) (c : Nat) (cause epc addr : Nat), c < 272 → cause < 32 → epc < 2 ^ 32 → addr < 2 ^ 64 → (s.core c).exc = false →
    let x := s.core c
    let e := s.enterHandler c cause epc addr
    e.rd .CORE_EPC c = epc ∧ e.rd .CORE_EXC_ECAUSE c = cause ∧
    e.rd .CORE_EADDR_LO c + e.rd .CORE_EADDR_HI c * 2 ^ 32 = addr ∧ e.rd .CORE_ERC c = x.rc.toNat ∧
    e.rd .CORE_EXC_EREP c = b2n x.repa ∧ e.rd .CORE_EXC_EREPI c = b2n x.repi ∧ e.rd .CORE_EXC_PSUP c = b2n x.sup ∧
    e.rd .CORE_EXC_PIE c = b2n x.ie ∧
    e.core c = { x with st := 5, rc := 0, wait := none, pc := BitVec.ofNat 32 (s.rd .CORE_VBASE c * 64) } ∧
    SameMem s e ∧
    (x.sup = true → s.takeException c cause epc addr (some 1) = e) ∧
    (∀ w, x.sup = false → x.wi = some w → s.takeException c cause epc addr (some 1) =
      (e.raiseI w.inst 0x8001 [(2, c), (1, w.inst), (1, cause), (4, epc), (8, addr)]).endWork c 1 cause epc [])

/-- R294, R306, R307, R310 and R311, XFER_DONE, BUDGET_EXPIRY and HALT: a transfer that ends copies its bytes and sets its
flag; a spent budget and a halt interrupt the core. R283, R305 and UNDEFINED_OPCODE: a bundle of one syllable that decodes
to nothing, or to one that is not legal, raises Illegal Instruction, and one that its mode does not allow raises Privilege,
each at the bundle with no register written. -/
def Obligations.CoreHappenings : Prop :=
  ((∀ (s : State) (c : Fin 272) (k : Fin 8) (t : Xfer) (p q : Place) (bs : List Byte),
    let x := s.dev.core c
    x.xfers.find? (fun t => t.idx == k.val) = some t → x.ending = none →
    s.dev.place c t.src t.len false = some p → s.dev.readPlace c t.len p = (s.dev, some bs) →
    s.dev.place c t.dst t.len true = some q →
    let e := s.dev.writePlace c bs q
    let y := e.core c
    let z : PCore := { y with xfers := y.xfers.filter (fun t => t.idx != k.val), ev := y.ev ||| 1#32 <<< (16 + k.val) }
    Does (.xferDone c k false) s (e.setCore c z)) ∧
  (∀ (s : State) (c : Fin 272) (w : WorkItem), let x := s.dev.core c
    x.wi = some w → x.sup = false → x.ending = none → s.dev.rd .CORE_BUDGET c ≠ 0 → x.ie = true →
    Does (.budgetExpiry c) s ((s.dev.wr .CORE_BUDGET 0 c).takeException c 0x10 x.pc.toNat 0 (some 1))) ∧
  (∀ (s : State) (c : Fin 272) (w : WorkItem), let x := s.dev.core c
    x.wi = some w →
    Does (.halt c .instanceReset) s (s.dev.takeException c 0x11 x.pc.toNat 0 none) ∧
    Does (.halt c .retirement) s ((s.dev.takeException c 0x11 x.pc.toNat 0 (some 3)).retireCore c) ∧
    Does (.halt c .engineReset) s
      (((s.dev.takeException c 0x11 x.pc.toNat 0 (some 3)).endWork c 3 0x11 x.pc.toNat []).coreReset c))) ∧
  ((∀ (s : State) (u : Bundle) (w : W32), let x := s.dev.core u.core
    u.before = [] → u.after = [] → u.err = .none → x.runs = true → s.dev.fetchOk u.core x.pc.toNat = true →
    decodeSyl w = none → decodeSyl (w ||| 0x80000000#32) = none →
    Does (.undefinedOpcode u w) s (s.dev.takeException u.core 0x01 x.pc.toNat x.pc.toNat (some 1))) ∧
  (∀ (s : State) (u : Bundle) (count : RepCount) (b : Bool) (sel : BitVec 6) (ra : BitVec 6), let x := s.dev.core u.core
    u.before = [] → u.after = [] → u.err = .none → x.runs = true → s.dev.fetchOk u.core x.pc.toNat = true →
    (64 < (match count with | .reg ra => (x.gr ra).toNat | .const k => k.toNat) →
      Does (.rep u count) s (s.dev.takeException u.core 0x01 x.pc.toNat x.pc.toNat (some 1))) ∧
    (6 ≤ sel.toNat ∨ sel = 4 →
      Does (.mts u b sel ra) s (s.dev.takeException u.core 0x01 x.pc.toNat x.pc.toNat (some 1))) ∧
    (x.exc = true → Does (.endw u) s (s.dev.takeException u.core 0x01 x.pc.toNat x.pc.toNat (some 1))) ∧
    (x.sup = false →
      Does (.mts u b 5 ra) s (s.dev.takeException u.core 0x02 x.pc.toNat x.pc.toNat (some 1)) ∧
      Does (.eret u none) s (s.dev.takeException u.core 0x02 x.pc.toNat x.pc.toNat (some 1)))))

/-- R289: a 2-, 4- or 8-byte data access that is not naturally aligned, and a vector access that is not 32-byte aligned,
raises Alignment with the address, and neither a register nor memory takes anything of it. -/
def Obligations.MisalignedAccess : Prop :=
  ∀ (s : State) (u : Bundle) (rd ra rb : BitVec 6) (v : BitVec 5) (imm : BitVec 11),
    let x := s.dev.core u.core
    let ea := fun n : Nat => (x.gr ra + imm.signExtend 64 * BitVec.ofNat 64 n).toNat
    let raised := fun (c : Instr) (y : Syl) (a n : Nat) => s.dev.about u y → a % n ≠ 0 →
      Does c s (s.dev.takeException u.core 0x05 x.pc.toNat a (some 1))
    raised (.ldh u rd ra imm) (.ld .h rd ra imm) (ea 2) 2 ∧ raised (.ldhs u rd ra imm) (.ld .hs rd ra imm) (ea 2) 2 ∧
    raised (.ldw u rd ra imm) (.ld .w rd ra imm) (ea 4) 4 ∧ raised (.ldws u rd ra imm) (.ld .ws rd ra imm) (ea 4) 4 ∧
    raised (.ldd u rd ra imm) (.ld .d rd ra imm) (ea 8) 8 ∧ raised (.sth u rd ra imm) (.st .h rd ra imm) (ea 2) 2 ∧
    raised (.stw u rd ra imm) (.st .w rd ra imm) (ea 4) 4 ∧ raised (.std u rd ra imm) (.st .d rd ra imm) (ea 8) 8 ∧
    raised (.ldv u v ra imm) (.ldv v ra imm) (ea 32) 32 ∧ raised (.stv u v ra imm) (.stv v ra imm) (ea 32) 32 ∧
    raised (.lddx u rd ra rb) (.lddx rd ra rb) (x.gr ra + x.gr rb).toNat 8 ∧
    raised (.amoadd u rd ra rb) (.amoadd rd ra rb) (x.gr ra).toNat 8 ∧
    raised (.amoswp u rd ra rb) (.amoswp rd ra rb) (x.gr ra).toNat 8 ∧
    raised (.cas u rd ra rb) (.cas rd ra rb) (x.gr ra).toNat 8

/-- R316, R318, R321, R322 and R326: a signal to a task that the agent reaches, and that accepts flags, has its effect and
leaves code 0 in the agent's EFT_RESULT: SET and CLEAR change the one flag; CANCEL leaves no flag, no post and no deadline;
DELAY_START takes boundary ⌊x / tick⌋ + DELAY + 1; DELAY_STOP removes the deadline; ENABLE and DISABLE change STATE. R316: a
signal to a task that the agent does not reach has no effect; it is counted, reported once a second, and leaves code 1
(notes/assumptions/159) in the agent's EFT_RESULT. -/
def Obligations.EftSignals : Prop :=
  (∀ (s : State) (ag : Agent) (t : Fin 65536) (f : Fin 32), s.dev.taskReach ag t = true → s.dev.taskAccepts t = true →
    let d := s.dev
    Does (.set ag t f) s (((d.wr .EFT_TASK_FLAGS (d.rd .EFT_TASK_FLAGS t ||| 2 ^ f.val) t).refreshTask t).eftResult ag 0 t) ∧
    Does (.clear ag t f false) s
      (((d.wr .EFT_TASK_FLAGS (d.rd .EFT_TASK_FLAGS t - (d.rd .EFT_TASK_FLAGS t &&& 2 ^ f.val)) t).refreshTask t).eftResult ag 0 t) ∧
    ((d.task t).posts = [] →
      Ends (.cancel ag t false) s (fun e => e.rd .EFT_TASK_FLAGS t = 0 ∧ (e.task t).posts = [] ∧ (e.task t).deadline = none ∧
        e.rd .EFT_TASK_CFG_DELAY_ON t = 0 ∧ SameMem d e)) ∧
    Does (.delayStart ag t) s
      (((d.setTask t { d.task t with deadline := some ((d.now / d.rd .EFT_TICK + d.rd .EFT_TASK_DELAY t + 1) * d.rd .EFT_TICK) }).wr
        .EFT_TASK_CFG_DELAY_ON 1 t).eftResult ag 0 t) ∧
    Does (.delayStop ag t) s
      (((d.setTask t { d.task t with deadline := none }).wr .EFT_TASK_CFG_DELAY_ON 0 t).eftResult ag 0 t) ∧
    Does (.enable ag t) s (((d.wr .EFT_TASK_CFG_STATE 2 t).refreshTask t).eftResult ag 0 t) ∧
    Does (.disable ag t) s (((d.wr .EFT_TASK_CFG_STATE 1 t).refreshTask t).eftResult ag 0 t)) ∧
  (∀ (s : State) (ag : Agent) (t : Fin 65536) (f : Fin 32), s.dev.taskReach ag t = false →
    ∀ c ∈ [Instr.set ag t f, .clear ag t f false, .clear ag t f true, .cancel ag t false, .cancel ag t true,
      .delayStart ag t, .delayStop ag t, .enable ag t, .disable ag t],
      Does c s ((s.dev.refuseSignal ag t).eftResult ag 1 t))

/-- R317, R325 to R327, R323 and R337: POST of a descriptor that passes every check queues it, takes a pool slot and counts
it; a priority that the owner may have is written; a dispatch starts the event activation with the flags that fired, or the
first post; the boundary that is due expires; an unloading program without a running work item is freed with 0x9012. -/
def Obligations.EftCommands : Prop :=
  (∀ (s : State) (ag : Agent) (a : W32) (n : Nat), s.dev.ownerOf ag = some n →
    s.dev.memAllowed n (a.toNat * 64) 384 = true → s.dev.poisoned (a.toNat * 64) 384 = false →
    s.dev.postCode ag (s.dev.readMem (a.toNat * 64) 384) = 0 →
    Does (.post ag a) s
      (let bs := s.dev.readMem (a.toNat * 64) 384
       (s.dev.enqueuePost (leAt 0 2 bs) (descPost bs (agCode ag) (s.dev.gen n))).eftResult ag 0 (leAt 0 2 bs))) ∧
  (∀ (s : State) (ag : Agent) (t : Fin 65536) (v : W32), s.dev.taskReach ag t = true →
    s.dev.priorityOk t (fv .EFT_TASK_CFG_PRIORITY v.toNat) = true →
    Does (.taskPriorityWrite ag t v) s ((s.dev.plainWrite 0 (Block.eft.base + 0x100000 + 32 * t) v.toNat).refreshTask t)) ∧
  (∀ (s : State) (g c t : Nat), s.dev.eft.stopped = false → s.dev.pickGroup = some (g, c, t) → s.dev.eventCond t = true →
    Does .dispatch s
      (let fl := s.dev.rd .EFT_TASK_FLAGS t
       let fired := fl &&& s.dev.rd .EFT_TASK_MASK t
       let e := (({ s.dev with eft.lastGroup := g } : Dev).wr .EFT_TASK_FLAGS (fl - fired) t).startWork c t 0 fired none
       (e.setTask t { e.task t with readyOrd := none }).refreshTask t)) ∧
  (∀ (s : State) (g c t : Nat) (p : Post) (ps : List Post), s.dev.eft.stopped = false → s.dev.pickGroup = some (g, c, t) →
    s.dev.eventCond t = false → (s.dev.task t).posts = p :: ps →
    Does .dispatch s
      (let e := ({ s.dev with eft.lastGroup := g }.setTask t { s.dev.task t with posts := ps }).startWork c t 1 0 (some p)
       (e.setTask t { e.task t with readyOrd := none }).refreshTask t)) ∧
  (∀ (s : State) (k : Nat), s.dev.firstDeadline = some k → k ≤ s.dev.now → s.dev.now < k + s.dev.rd .EFT_TICK →
    Does .delayExpiry s
      (s.dev.expireAll k ((s.dev.eft.tasks.filter (fun p => p.2.deadline == some k)).map (·.1)))) ∧
  (∀ (s : State) (n : Fin 256) (id : W64) (p : Program),
    s.dev.eft.programs.find? (fun p => p.inst == n.val && p.id == id.toNat && p.unloading) = some p →
    (∀ t ∈ p.tasks, s.dev.rd .EFT_TASK_INFO_RUNNING t = 0) →
    Does (.programUnloadDone n id) s
      ((({ s.dev.freeAll p.tasks with
            eft.programs := s.dev.eft.programs.filter (fun q => !(q.inst == n.val && q.id == id.toNat)) } : Dev).raiseI n 0x9012
        [(1, n.val), (8, id.toNat)]).endOpOf 0x71 0))

/-- R327: of the ready tasks of a group, the one with the lowest PRIORITY is picked; among equals the one that became ready
first. -/
def Obligations.DispatchPicksBest : Prop :=
  ∀ (d : Dev) (g t : Nat), d.pickTask g = some t →
    ∃ x ∈ d.readyOf g, x.2.2 = t ∧ ∀ y ∈ d.readyOf g, x.1 < y.1 ∨ (x.1 = y.1 ∧ x.2.1 ≤ y.2.1)

/-- R340, a memory request that its owner's regions do not hold whole changes no byte of device memory: it is counted and
reported, and a read returns poison. R19 and R340: a request that carries another generation than its instance has now is
dropped and counted, and does nothing else. -/
def Obligations.MemoryProtection : Prop :=
  (∀ (s : State) (q : MemReq) (readable : Bool), q.gen = s.dev.gen q.inst.val → s.dev.memAllowed q.inst.val q.addr (memReqLen q) = false →
    Ends (.memRequest [] [q] readable) s (fun e => e.ram = s.dev.ram ∧ e.cor = s.dev.cor ∧ e.mem = s.dev.mem ∧
      e.rd .MEM_PROT_CNT_REFUSED = satAdd (2 ^ 16 - 1) (s.dev.rd .MEM_PROT_CNT_REFUSED) 1 ∧
      (q.write = none → e.out.getLast? = some (.memRead q.port.val q.agent true [])))) ∧
  (∀ (s : State) (q : MemReq) (readable : Bool), q.gen ≠ s.dev.gen q.inst.val →
    Does (.memRequest [] [q] readable) s (s.dev.cnt .MEM_PROT_CNT_GEN_DROP))

/-- R340, MEM_REQUEST of a bulk agent in its own memory, with no line out of reach: a write changes exactly the bytes it
writes; a read of good lines returns the bytes that memory holds and changes none. -/
def Obligations.MemoryAccess : Prop :=
  ∀ (s : State) (q : MemReq) (readable : Bool), q.cls = 2 → q.gen = s.dev.gen q.inst.val → memReqLen q ≠ 0 →
    s.dev.memAllowed q.inst.val q.addr (memReqLen q) = true → s.dev.mem.relief = [] →
    (∀ bs, q.write = some bs → Ends (.memRequest [] [q] readable) s (fun e =>
      ∀ a, e.readByte a = if q.addr ≤ a ∧ a < q.addr + bs.length then bs.getD (a - q.addr) 0 else s.dev.readByte a)) ∧
    (q.write = none → q.fault = .none → s.dev.poisoned q.addr q.len = false → Ends (.memRequest [] [q] readable) s (fun e =>
      SameMem s.dev e ∧ e.out.getLast? = some (.memRead q.port.val q.agent false (s.dev.readMem q.addr q.len))))

/-- R346 to R348, R354, R356, R357 and R360, the controller's own work: a refresh that is due is issued, or owed while the
bank is kept; a stack's activate-count tables clear; a stack is hot from 85 °C and no longer from 83 °C; a good scrub read
moves on, a corrected line counts; a margin below the minimum starts full retraining; its steps and its end, and a step of
migration, go as stated; an engine reset gives the banks of the channel their credits. -/
def Obligations.MemoryUpkeep : Prop :=
  (∀ (s : State) (pc : Fin 256) (bank : Fin 64) (issued : Nat),
    let b := s.dev.bank (bankKey pc bank)
    Does (.refreshDue pc bank false issued) s
      ((s.dev.setBank (bankKey pc bank) { b with owed := b.owed - issued }).showCredits (pc / 2)) ∧
    (b.owed < 8 → Does (.refreshDue pc bank true 0) s
      (((s.dev.setBank (bankKey pc bank) b).setBank (bankKey pc bank) { b with owed := b.owed + 1 }).showCredits (pc / 2)))) ∧
  (∀ (s : State) (k : Fin 4), Ends (.actTableClear k) s (fun e => SameMem s.dev e ∧ e.regs = s.dev.regs ∧
    ∀ n, n / 4096 = k.val → (e.bank n).table = [] ∧ (e.bank n).spill = 0)) ∧
  (∀ (s : State) (k : Fin 4) (t : Nat), 85 ≤ t → t < 256 → s.dev.rd .MEM_STACK_HOT k = 0 →
    Does (.stackTempRead k t) s (((s.dev.wr .MEM_STACK_TEMP_C t k).wr .MEM_STACK_HOT 1 k).raise 0xA020 [(1, k.val), (1, t)])) ∧
  (∀ (s : State) (k : Fin 4) (t : Nat), t ≤ 83 → s.dev.rd .MEM_STACK_HOT k = 1 →
    Does (.stackTempRead k t) s (((s.dev.wr .MEM_STACK_TEMP_C t k).wr .MEM_STACK_HOT 0 k).raise 0xA021 [(1, k.val), (1, t)])) ∧
  (∀ (s : State) (line c o : Nat) (w r : Bool), s.dev.chanOf (line * 64) = some (c, o) →
    s.dev.rd .MEM_CH_STATUS_RETIRED c = 0 → s.dev.rd .AVL_STATUS_MODE ≠ 6 →
    Does (.memPatrolScrub line .good w r) s { s.dev with mem.scrubPos := line + 1 }) ∧
  (∀ (s : State) (c : Fin 128) (margin : Nat), s.dev.rd .MEM_TRAIN_CFG_TRACK_EN = 1 → s.dev.rd .AVL_STATUS_MODE ≠ 6 →
    margin < s.dev.rd .MEM_TRAIN_CFG_MARGIN_MIN → s.dev.rd .MEM_CH_STATUS_RETIRED c = 0 →
    s.dev.rd .MEM_CH_STATUS_TRAINING c = 0 →
    Does (.trackingStep c margin) s
      { s.dev.wr .MEM_CH_STATUS_TRAINING 1 c with mem.retrain := amPut c ⟨0, 0, none⟩ s.dev.mem.retrain }) ∧
  (∀ (s : State) (c : Fin 128) (r : Retrain), amFind c.val s.dev.mem.retrain = some r → s.dev.rd .AVL_STATUS_MODE ≠ 6 →
    r.stepsDone < 64 → s.dev.panicOn c = false →
    Does (.retrainStep c) s
      { s.dev with mem.retrain := amPut c { r with waitSince := none, stepsDone := r.stepsDone + 1 } s.dev.mem.retrain }) ∧
  (∀ (s : State) (c : Fin 128) (r : Retrain) (m : Nat) (readable : Bool), amFind c.val s.dev.mem.retrain = some r →
    Does (.retrainEnd c (some m) readable) s
      ((({ s.dev with
            mem.retrain := amDel c s.dev.mem.retrain
            mem.trainTemp := amSet 0 c (s.dev.rd .MEM_STACK_TEMP_C (c / 32)) s.dev.mem.trainTemp } : Dev).wr
          .MEM_CH_STATUS_TRAINING 0 c).raise 0xA002 [(2, c.val), (1, m)])) ∧
  (∀ (s : State) (c : Fin 128) (x : Relief), s.dev.mem.relief.find? (fun x => x.chan == c.val) = some x → x.readable = true →
    x.switched < x.covered → s.dev.rd .AVL_STATUS_MODE ≠ 6 → x.steps < 15 →
    Ends (.migrationStep c []) s (fun e => e.regs = s.dev.regs ∧ SameMem s.dev e ∧ e.mem.poison = s.dev.mem.poison ∧
      e.mem.relief = s.dev.mem.relief.map (fun z => if z.chan = c.val then { x with steps := x.steps + 1 } else z))) ∧
  (∀ (s : State) (c : Fin 128), Ends (.memControllerEngineReset c) s (fun e => e.rd .MEM_CH_STATUS_TRAINING c = 0 ∧
    e.rd .MEM_CH_STATUS_CREDITS_MIN c = 8 ∧ SameMem s.dev e ∧ ∀ n, n / 128 = c.val → e.bank n = bankInit))

/-- R379 to R381, the commands of a check context that the agent reaches and that is idle: INIT takes the initial value of
the algorithm, SET the value written in VAL, FEED makes the context busy with its operands; without a fault, and with its
memory allowed and good, FEED_DONE leaves the running value after the bytes; a retired engine's reset stays retired. R379,
R381 and R383: a GO by an agent that does not own the context is refused with 0xB030; one on a busy context is counted; one
on a retired engine does nothing. -/
def Obligations.CheckCommands : Prop :=
  ((∀ (s : State) (ag : Agent) (x : Fin 1024) (f : Fin 32) (t : Fin 65536), s.dev.ctxReach ag x = true →
    s.dev.rd .CHK_CTX_CFG_STATE x = 0 →
    Does (.ctxInit ag x false f t) s
      ((s.dev.wr64 .CHK_CTX_VAL_LO .CHK_CTX_VAL_HI (s.dev.ctxAlg x).init x).wr .CHK_CTX_CFG_STATE 0 x) ∧
    Does (.ctxSet ag x false f t) s
      ((s.dev.wr64 .CHK_CTX_VAL_LO .CHK_CTX_VAL_HI (amGet 0 x s.dev.chk.operand) x).wr .CHK_CTX_CFG_STATE 0 x) ∧
    Ends (.ctxFeed ag x false f t) s (fun e => e.rd .CHK_CTX_CFG_STATE x = 1 ∧ SameMem s.dev e ∧
      amFind x.val e.chk.feeds = some ⟨s.dev.ctxVal x, s.dev.rd64 .CHK_CTX_SRC_LO .CHK_CTX_SRC_HI x, s.dev.rd .CHK_CTX_LEN x, false,
        f, t, s.dev.rd .CHK_CTX_CFG_INSTANCE x, s.dev.gen (s.dev.rd .CHK_CTX_CFG_INSTANCE x)⟩)) ∧
  (∀ (s : State) (x : Fin 1024) (f : Feed), amFind x.val s.dev.chk.feeds = some f → f.notify = false →
    s.dev.memAllowed f.inst f.src f.len = true → s.dev.poisoned f.src f.len = false → s.dev.gen f.inst = f.gen →
    Does (.feedDone x .none) s
      ((({ s.dev with chk.feeds := amDel x s.dev.chk.feeds } : Dev).wr64 .CHK_CTX_VAL_LO .CHK_CTX_VAL_HI
        ((s.dev.ctxAlg x).feed f.saved (s.dev.readMem f.src f.len)) x).wr .CHK_CTX_CFG_STATE 0 x)) ∧
  (∀ (s : State) (g : Fin 16), s.dev.rd .CHK_CTX_CFG_STATE (g * 64) ≠ 3 →
    Ends (.checkEngineReset g) s (fun e => (∀ x, x / 64 = g.val → amFind x e.chk.feeds = none ∧ e.rd .CHK_CTX_CFG_STATE x = 0 ∧
      e.ctxVal x = 0) ∧ SameMem s.dev e))) ∧
  (∀ (s : State) (ag : Agent) (x : Fin 1024) (n : Bool) (f : Fin 32) (t : Fin 65536),
    ∀ c ∈ [Instr.ctxInit ag x n f t, .ctxFeed ag x n f t, .ctxSet ag x n f t],
      (s.dev.ctxReach ag x = false → Does c s (s.dev.raise 0xB030 [(2, x / 64), (2, x % 64), (2, agCode ag)])) ∧
      (s.dev.ctxReach ag x = true → s.dev.rd .CHK_CTX_CFG_STATE x = 1 → Does c s (s.dev.cnt .CHK_CTX_BUSY_CNT x)) ∧
      (s.dev.ctxReach ag x = true → s.dev.rd .CHK_CTX_CFG_STATE x = 3 → Does c s s.dev))

/-- R364: a check value is computed byte by byte, so the value of a text is that of its second part fed after its first. -/
def Obligations.CrcFeedsInParts : Prop :=
  ∀ (k : Crc) (r : Nat) (a b : List Byte), k.feed r (a ++ b) = k.feed (k.feed r a) b

/-- R391, SHARE_WRITE and EPOCH_BOUNDARY: an accepted change of CORES_MIN waits, with 0xC003, and is the field's value from
the next epoch boundary on; a change that breaks a sum is kept out with 0xC002. R487, EVENT_SECOND_END: a yield counted in a
second that has ended is raised with that second's count and forgotten. -/
def Obligations.ShareCommands : Prop :=
  ((∀ (s : State) (n : Fin 256) (v : W32), 1 ≤ v.toNat → v.toNat < 2 ^ 9 → s.dev.shr.waiting = [] →
    let v' := bitsOf Fld.INS_CORES_CORES_MIN.info.hi Fld.INS_CORES_CORES_MIN.info.lo v.toNat
    reservedBits [.INS_CORES_CORES_NOW, .INS_CORES_CORES_MIN] v.toNat = false →
    s.dev.legal .INS_CORES_CORES_MIN n v.toNat v' = true → v' ≠ s.dev.rd .INS_CORES_CORES_MIN n →
    (s.dev.shareRejects n .INS_CORES_CORES_MIN v' = false →
      Does (.shareWrite n 0x14 v) s
        (({ s.dev with shr.waiting := [⟨n, .INS_CORES_CORES_MIN, v'⟩] } : Dev).raiseI n 0xC003
          [(1, n.val), (2, 0x14), (4, s.dev.rd .INS_CORES_CORES_MIN n), (4, v'), (4, s.dev.now / 10000 + 1)])) ∧
    (s.dev.shareRejects n .INS_CORES_CORES_MIN v' = true →
      Does (.shareWrite n 0x14 v) s (s.dev.raiseI n 0xC002 [(1, n.val), (2, 0x14)]))) ∧
  (∀ (s : State) (w : ShareWrite), s.dev.shr.epoch < s.dev.now / 10000 → s.dev.shr.waiting = [w] →
    w.fld = .INS_CORES_CORES_MIN → w.value < 512 →
    Ends .epochBoundary s (fun e => e.shr.waiting = [] ∧ e.shr.used = [] ∧ e.shr.extra = [] ∧
      e.shr.epoch = s.dev.now / 10000 ∧ e.rd .INS_CORES_CORES_MIN w.inst = w.value ∧ SameMem s.dev e))) ∧
  (∀ (s : State) (n point t k : Nat), n < 256 → point < 16 → s.dev.ev.counts = [(0xC201 * 2 ^ 24 + n * 16 + point, (t, k))] →
    t < s.dev.second → s.dev.second ≤ s.dev.shr.second →
    Does .eventSecondEnd s
      (({ s.dev with ev.counts := [] } : Dev).raiseI n 0xC201 [(1, n), (2, point), (4, k)]))

/-- R397 to R399, MBX_POP and MBX_PUSH: POP takes the oldest inbound message; PUSH puts a message with the next sequence
number, the device time and LEN bytes of the buffer at the end of the outbound queue, or is refused with 0xC103 when that is
full. R397, R398 and R401, MAILBOX_SEND, MAILBOX_RECEIVE and INSTANCE_TELEMETRY of a controller: a message with the next
sequence number and the device time goes to the end of the inbound queue; the oldest outbound message goes to the host; the
page goes to the host; a full or empty queue is answered with 0x91 or 0x92. -/
def Obligations.MailboxCommands : Prop :=
  ((∀ (s : State) (n : Fin 256) (m : List Byte) (ms : List (List Byte)), s.dev.mbxIn n = m :: ms →
    Ends (.mbxPop n) s (fun e => e.mbxIn n = ms ∧ e.mbxOut n = s.dev.mbxOut n ∧ SameMem s.dev e ∧
      SameRegs (fun f i => f == .INS_MBX_STATUS_IN_COUNT && i == n.val) s.dev e)) ∧
  (∀ (s : State) (n : Fin 256) (len : Nat) (type : BitVec 16), n ≠ 0 → len ≤ 1008 → s.dev.mbxOut n ≠ [] →
    (s.dev.mbxOut n).length < 16 →
    Ends (.mbxPush n len type) s (fun e => SameMem s.dev e ∧ e.mbxOut n = s.dev.mbxOut n ++
      [mbxMsg type.toNat (amGet 0 n s.dev.ins.outSeq + 1) s.dev.now
        (((List.range 252).flatMap (fun k => leBytes 4 (s.dev.rd .INS_MBX_OUT (n * 256 + k)))).take len)])) ∧
  (∀ (s : State) (n : Fin 256) (len : Nat) (type : BitVec 16), n ≠ 0 → len ≤ 1008 → 16 ≤ (s.dev.mbxOut n).length →
    Does (.mbxPush n len type) s (s.dev.raiseI n 0xC103 [(1, n.val)]))) ∧
  ((∀ (s : State) (h len : Nat) (type : Nat) (c : HCmd) (k : Ctrl), s.dev.readyAdmin h 0xC0 c k → c.inst ≠ 0 →
    cdw 10 c.sqe = len → cdw 11 c.sqe = type → 1 ≤ len → len ≤ 1008 → type < 65536 → len ≤ c.data.length →
    let seq := amGet 0 c.inst s.dev.ins.inSeq + 1
    let d : Dev := { s.dev with ins.inSeq := amSet 0 c.inst (seq % 2 ^ 32) s.dev.ins.inSeq }
    ((s.dev.mbxIn c.inst).length < 16 →
      Does (.mailboxSend h) s (((d.setIn c.inst (s.dev.mbxIn c.inst ++
        [mbxMsg type seq s.dev.now (c.data.take len)])).raiseI c.inst 0xC101 [(1, c.inst), (2, seq), (2, type)]).succeed h seq 0)) ∧
    (16 ≤ (s.dev.mbxIn c.inst).length →
      Does (.mailboxSend h) s ((s.dev.raiseI c.inst 0xC104 [(1, c.inst)]).capRetry h 0x91))) ∧
  (∀ (s : State) (h : Nat) (c : HCmd) (k : Ctrl), s.dev.readyAdmin h 0xC1 c k → c.inst ≠ 0 →
    (∀ m ms, s.dev.mbxOut c.inst = m :: ms →
      Does (.mailboxReceive h) s ((s.dev.setOut c.inst ms).answer c (sliceB 0 1024 m) ms.length 0)) ∧
    (s.dev.mbxOut c.inst = [] → Does (.mailboxReceive h) s (s.dev.capRetry h 0x92))) ∧
  (∀ (s : State) (h : Nat) (c : HCmd) (k : Ctrl), s.dev.readyAdmin h 0xC4 c k →
    Does (.instanceTelemetry h) s (s.dev.answer c (s.dev.telemetryPage c.inst) 0 0)))

/-- R402 to R404, INSTANCE_RESET of an enabled instance that runs nothing and holds nothing: its generation is one higher,
its outbound mailbox is empty, and 0xC010 ends the reset; a request while one runs, or for instance 0, is refused with
0xC011. -/
def Obligations.InstanceResetCommand : Prop :=
  (∀ (s : State) (n : Fin 256), n ≠ 0 → s.dev.insOn n = true → s.dev.rd .INS_STATUS_RESET_BUSY n = 0 →
    s.dev.coresOf n = [] → s.dev.cap.streams = [] → s.dev.cap.queue = [] → s.dev.cap.windows = [] → s.dev.hq.cmds = [] →
    s.dev.hq.ctrls = [] → s.dev.hq.conns = [] → s.dev.dur.txns = [] → s.dev.eft.tasks = [] → s.dev.cdc.ctxs = [] →
    s.dev.gk.updates = [] → (∀ q, s.dev.qHeld q = 0) →
    Ends (.instanceReset n) s (fun e => e.gen n = (s.dev.gen n + 1) % 65536 ∧ e.rd .INS_STATUS_RESET_BUSY n = 0 ∧
      e.mbxOut n = [] ∧ e.mbxIn n = s.dev.mbxIn n ∧ SameMem s.dev e ∧ ∃ us ≤ 1000000, e.logged 0xC010 n (packData [(1, n.val), (4, us)]))) ∧
  (∀ (s : State) (n : Fin 256), n = 0 ∨ s.dev.insOn n = false ∨ s.dev.rd .INS_STATUS_RESET_BUSY n = 1 →
    Does (.instanceReset n) s (s.dev.raiseI n 0xC011 [(1, n.val)]))

/-- R409, R410, R412, R413 and R416 to R418, the requests that are done when they are answered: HELLO takes the highest
common version; OP_STATUS gives an operation's state; registers are read and written in ascending order; records are read by
a cursor; a subscription is kept; a telemetry page is given; an unknown TYPE is answered with status 0x03. -/
def Obligations.MgmtRequests : Prop :=
  (∀ (s : State) (via : Via) (msg b : List Byte) (v : Nat), s.dev.asks via msg 1 b → b.length = 4 →
    v ∈ [0x201, 0x200, 0x101, 0x100] → leAt 0 2 b ≤ v → v ≤ leAt 2 2 b →
    (∀ w ∈ [0x201, 0x200, 0x101, 0x100], leAt 0 2 b ≤ w → w ≤ leAt 2 2 b → w ≤ v) →
    Does (.mgtHello via msg) s (((s.dev.submit via).wr .MGT_STATUS_VERSION v).says via msg
      (leBytes 2 v ++ leBytes 4 (s.dev.rd .SYS_DEV_ID) ++ leBytes 4 (s.dev.rd .MGT_FW_VERSION)))) ∧
  (∀ (s : State) (via : Via) (msg b : List Byte), s.dev.asks via msg 2 b → b.length = 8 →
    (∀ o, s.dev.mgt.ops.find? (fun o => o.id == leAt 0 8 b) = some o →
      Does (.opStatus via msg) s ((s.dev.submit via).says via msg
        (leBytes 1 o.state ++ leBytes 1 o.status ++ leBytes 2 o.step ++ leBytes 4 o.cause ++ o.data))) ∧
    ((∀ o ∈ s.dev.mgt.ops, o.id ≠ leAt 0 8 b) →
      Does (.opStatus via msg) s ((s.dev.submit via).says via msg (2 :: zeros 7)))) ∧
  (∀ (s : State) (via : Via) (msg b : List Byte) (n : Nat), let a := leAt 0 4 b
    s.dev.asks via msg 0x10 b → b.length = 6 → leAt 4 2 b = n → 1 ≤ n → n ≤ 256 → a % 4 = 0 →
    (∀ k < n, (blockOf (a + 4 * k)).isSome = true) →
    Does (.regRead via msg) s (let r := readRegs (s.dev.submit via) ((List.range n).map (fun k => a + 4 * k))
      r.1.says via msg r.2)) ∧
  (∀ (s : State) (via : Via) (msg b : List Byte) (n : Nat), let a := leAt 0 4 b
    s.dev.asks via msg 0x11 b → b.length = 6 + 4 * n → leAt 4 2 b = n → 1 ≤ n → n ≤ 256 → a % 4 = 0 →
    (∀ k < n, (blockOf (a + 4 * k)).isSome = true) →
    Does (.regWrite via msg) s (((List.range n).foldl (fun d k => ioWrite d .manager 0 (a + 4 * k) (leAt (6 + 4 * k) 4 b))
      (s.dev.submit via)).says via msg [])) ∧
  (∀ (s : State) (via : Via) (msg b : List Byte) (lost : Nat) (kept left : List EvRec), let n := leAt 4 2 b
    b.length = 6 → 1 ≤ n → n ≤ 40 → left.length + lost ≤ 2 ^ 31 →
    let answer := leBytes 2 (b2n (lost != 0)) ++ leBytes 4 lost ++
      leBytes 4 ((leAt 0 4 b + lost + (left.take n).length) % 2 ^ 32) ++ (left.take n).flatMap EvRec.bytes
    (s.dev.asks via msg 0x20 b → s.dev.ev.queue = kept ++ left → (kept = [] ∨ lost = 0) →
      s.dev.ev.next % 2 ^ 32 = (leAt 0 4 b + lost + left.length) % 2 ^ 32 → s.dev.ev.next < 2 ^ 32 →
      Does (.eventRead via msg) s ((s.dev.submit via).says via msg answer)) ∧
    (s.dev.asks via msg 0x22 b → s.dev.ev.plog = kept ++ left → (kept = [] ∨ lost = 0) →
      s.dev.ev.plogPos % 2 ^ 32 = (leAt 0 4 b + lost + left.length) % 2 ^ 32 → s.dev.ev.plogPos < 2 ^ 32 →
      Does (.logRead via msg) s ((s.dev.submit via).says via msg answer))) ∧
  (∀ (s : State) (via : Via) (msg b : List Byte), let ip := beAt 4 16 b
    s.dev.asks via msg 0x21 b → b.length = 20 → leAt 0 1 b ≤ 4 → leAt 1 1 b = 0 →
    Does (.eventSubscribe via msg) s (let d := s.dev.submit via
      ({ d with ev.sub := if ip = 0 then none else some ⟨ip, leAt 2 2 b, leAt 0 1 b⟩ } : Dev).says via msg [])) ∧
  (∀ (s : State) (via : Via) (msg b : List Byte) (n off : Nat), s.dev.asks via msg 0x30 b → b.length = 4 →
    leAt 0 2 b = n + 1 → leAt 2 2 b = off → n < 256 → off % 1024 = 0 → off < 4096 → (s.dev.submit via).insOn n = true →
    Does (.telemetry via msg) s ((s.dev.submit via).says via msg (sliceB off 1024 ((s.dev.submit via).telemetryPage n)))) ∧
  (∀ (s : State) (via : Via) (msg : List Byte), let v := s.dev.rd .MGT_STATUS_VERSION
    s.dev.listens via = true → msgGood msg = true → msgType msg ≠ 1 → mgtDefines v (msgType msg) = false → v ≠ 0 →
    (∀ p ∈ s.dev.mgt.replay, p.1 ≠ msgSeq msg) →
    Does (.unsupportedMgmtType via msg) s ((s.dev.submit via).answerReq via msg ⟨3, [], 0⟩)) ∧
  (∀ (s : State) (via : Via) (msg b : List Byte) (n : Nat), let nqn := b.drop 2
    s.dev.asks via msg 0x63 b → 2 ≤ b.length → leAt 0 1 b = n → leAt 1 1 b = nqn.length → nqn.length ≤ 223 →
    (s.dev.submit via).insOn n = true → (∀ p ∈ s.dev.hq.nqns, p.1 ≠ n → p.2 ≠ nqn) →
    Does (.nqnSet via msg) s (let d := s.dev.submit via
      ({ d with hq.nqns := amPut n nqn d.hq.nqns } : Dev).says via msg []))

/-- R411 (and R408), every request alike: one whose SEQ is among the answers kept is answered with the kept answer, counted
in REPLAYED, and not executed again; the answers to the last 16 requests are kept. One that is not whole only counts
BAD_MSG. -/
def Obligations.MgmtReplay : Prop :=
  ∀ (s : State) (via : Via) (msg : List Byte), s.dev.listens via = true →
    (msgGood msg = false →
      ∀ c ∈ [Instr.mgtHello via msg, .opStatus via msg, .regRead via msg, .regWrite via msg, .eventRead via msg,
        .eventSubscribe via msg, .logRead via msg, .telemetry via msg, .imageStage via msg, .bootSelect via msg,
        .nsCreate via msg, .nsDelete via msg, .nsFormat via msg, .nqnSet via msg, .programLoad via msg,
        .programUnload via msg, .lock via msg, .unlock via msg, .keyMgrSet via msg, .keyUnlock via msg, .keyLoad via msg,
        .keyGenerate via msg, .svnCommit via msg, .modeEnterMaintenance via msg, .modeLeaveMaintenance via msg],
        Does c s ((s.dev.submit via).cnt .MGT_CNT_BAD_MSG)) ∧
    (∀ old, msgGood msg = true → s.dev.mgt.replay.find? (fun p => p.1 == msgSeq msg) = some old →
      let again := ((s.dev.submit via).cnt .MGT_CNT_REPLAYED).sendAnswer via old.2
      (∀ p ∈ [(1, Instr.mgtHello via msg), (2, .opStatus via msg), (0x10, .regRead via msg), (0x11, .regWrite via msg),
        (0x20, .eventRead via msg), (0x21, .eventSubscribe via msg), (0x22, .logRead via msg), (0x30, .telemetry via msg),
        (0x50, .imageStage via msg), (0x52, .bootSelect via msg), (0x60, .nsCreate via msg), (0x61, .nsDelete via msg),
        (0x62, .nsFormat via msg), (0x63, .nqnSet via msg), (0x70, .programLoad via msg), (0x71, .programUnload via msg),
        (0x80, .lock via msg), (0x81, .unlock via msg), (0x90, .keyMgrSet via msg), (0x91, .keyUnlock via msg),
        (0x92, .keyLoad via msg), (0x93, .keyGenerate via msg), (0xA0, .svnCommit via msg)],
        msgType msg = p.1 → Does p.2 s again) ∧
      (∀ (f : Found) (fl : Flush) (sw : Switch) (bad : List Nat) (mid : Option (Nat × Resource)) (k : Nat),
        ∀ p ∈ [(0x40, 0, Instr.modeService via msg), (0x40, 1, .modeEnterMaintenance via msg),
          (0x40, 2, .modeLeaveMaintenance via msg), (0x40, 3, .modeEnterStandby via msg), (0x40, 4, .modeLeaveStandby via msg f),
          (0x41, 0, .resetWarm via msg f), (0x41, 1, .resetCold via msg f fl), (0x51, 0, .activateFirmware via msg sw),
          (0x51, 1, .activateStructure via msg bad mid), (0x51, 2, .activateBoth via msg sw bad mid),
          (0x95, 0, .sanitizeInstance via msg k), (0x95, 1, .sanitizeDevice via msg k)],
        msgType msg = p.1 → leAt 0 1 (msgBody msg) = p.2.1 → Does p.2.2 s again) ∧
      (msgType msg ≠ 1 → mgtDefines (s.dev.rd .MGT_STATUS_VERSION) (msgType msg) = false →
        Does (.unsupportedMgmtType via msg) s again)) ∧
    (∀ r : Reply, ∃ m, (s.dev.answerReq via msg r).mgt.replay = keepLast 16 (s.dev.mgt.replay ++ [(msgSeq msg, m)]) ∧
      s.dev.answerReq via msg r =
        ({ s.dev with mgt.replay := keepLast 16 (s.dev.mgt.replay ++ [(msgSeq msg, m)]) } : Dev).sendAnswer via m)

/-- R410, R434, R437, R438 and R444, MODE and RESET: from a mode that the table of MODE requests allows, the operation
begins, is answered with status 1 and its entry runs; a reset is answered first and then happens. -/
def Obligations.ModeRequests : Prop :=
  (∀ (s : State) (via : Via) (msg : List Byte), let mode := s.dev.rd .AVL_STATUS_MODE
    let power := s.dev.rd .AVL_STATUS_POWER_STATE
    let begun := s.dev.begins via msg 0x40
    let op := s.dev.opOf via 0x40
    (s.dev.asksLong via msg 0x40 [0] → mode = 1 → s.dev.rd .STI_STATUS_STATE = 3 →
      Does (.modeService via msg) s (begun.setMode 5)) ∧
    (s.dev.asksLong via msg 0x40 [1] → 1 ≤ mode → mode ≤ 3 → power = 0 →
      Does (.modeEnterMaintenance via msg) s (begun.enterMaintenance op)) ∧
    (s.dev.asksLong via msg 0x40 [2] → mode = 7 → Does (.modeLeaveMaintenance via msg) s (begun.leaveMaintenance op)) ∧
    (s.dev.asksLong via msg 0x40 [3] → 2 ≤ mode → mode ≤ 3 → power = 0 →
      Does (.modeEnterStandby via msg) s (begun.enterStandby op)) ∧
    (∀ f, s.dev.asksLong via msg 0x40 [4] → power = 1 → Does (.modeLeaveStandby via msg f) s (begun.leaveStandby op f))) ∧
  (∀ (s : State) (via : Via) (msg : List Byte) (f : Found) (fl : Flush), let mode := s.dev.rd .AVL_STATUS_MODE
    (s.dev.asks via msg 0x41 [0] → mode ≠ 0 → mode ≠ 6 →
      Does (.resetWarm via msg f) s (((s.dev.submit via).says via msg []).warmReset 1 f)) ∧
    (s.dev.asks via msg 0x41 [1] → Does (.resetCold via msg f fl) s (((s.dev.submit via).says via msg []).coldRequest 1 f fl)))

/-- R66, R256 and R420 to R425, staging, activation and boot selection: staged bytes land in the KIND's buffer; an
activation begins in Service with a standby pair where it takes firmware; the boot image changes without being activated. -/
def Obligations.ImageRequests : Prop :=
  (∀ (s : State) (via : Via) (msg b : List Byte), let off := leAt 4 4 b
    let fresh := leAt 1 1 b
    let d := s.dev.submit via
    let into := fun m : AMap Byte => stageInto (if fresh = 1 then [] else m) off (b.drop 8)
    s.dev.asks via msg 0x50 b → 8 ≤ b.length → b.length ≤ 1032 → fresh ≤ 1 → leAt 2 2 b = 0 →
    (leAt 0 1 b = 0 → off + (b.length - 8) ≤ 32 * 2 ^ 20 → s.dev.mgt.hold = none →
      Does (.imageStage via msg) s (({ d with mgt.stageFw := into d.mgt.stageFw } : Dev).says via msg [])) ∧
    (leAt 0 1 b = 1 → off + (b.length - 8) ≤ 16 * 2 ^ 20 → s.dev.rd .STI_STATUS_STATE ≠ 4 → s.dev.mgt.hold = none →
      Does (.imageStage via msg) s (({ d with mgt.stageStruct := into d.mgt.stageStruct } : Dev).says via msg [])) ∧
    (leAt 0 1 b = 2 → off + (b.length - 8) ≤ 64 * 2 ^ 20 →
      Does (.imageStage via msg) s (({ d with mgt.stageProg := into d.mgt.stageProg } : Dev).says via msg []))) ∧
  (∀ (s : State) (via : Via) (msg b : List Byte) (sw : Switch) (bad : List Nat) (mid : Option (Nat × Resource)),
    let fw := leAt 1 4 b
    let st := leAt 5 4 b
    let begun := s.dev.begins via msg 0x51
    let op := s.dev.opOf via 0x51
    s.dev.asksLong via msg 0x51 b → b.length = 9 →
    (s.dev.rd .AVL_STATUS_MODE = 2 ∨ s.dev.rd .AVL_STATUS_MODE = 3) → s.dev.rd .AVL_STATUS_POWER_STATE = 0 →
    (leAt 0 1 b = 0 → fw ≤ 32 * 2 ^ 20 → s.dev.rd .AVL_STEWARD_STANDBY_OK = 1 →
      Does (.activateFirmware via msg sw) s (begun.fwActivate op fw none sw [] none)) ∧
    (leAt 0 1 b = 1 → st ≤ 16 * 2 ^ 20 →
      Does (.activateStructure via msg bad mid) s ((begun.wr .MGT_ACT_STATE 2).actStructure op st bad mid)) ∧
    (leAt 0 1 b = 2 → fw ≤ 32 * 2 ^ 20 → st ≤ 16 * 2 ^ 20 → s.dev.rd .AVL_STEWARD_STANDBY_OK = 1 →
      Does (.activateBoth via msg sw bad mid) s (begun.fwActivate op fw (some st) sw bad mid))) ∧
  (∀ (s : State) (via : Via) (msg b : List Byte), let begun := s.dev.begins via msg 0x52
    let op := s.dev.opOf via 0x52
    let image := staged begun.mgt.stageFw (leAt 1 4 b)
    let slot := 1 - begun.mgt.boot.ptrFw
    s.dev.asksLong via msg 0x52 b → b.length = 5 → leAt 0 1 b = 0 → leAt 1 4 b ≤ 32 * 2 ^ 20 → s.dev.mgt.hold = none →
    Does (.bootSelect via msg) s (match begun.fwFault image with
      | none => ((({ begun.writeFw slot image with mgt.boot.ptrFw := slot } : Dev).wr .MGT_ACT_FW_PENDING 1).endOp op 0 0 0)
      | some (cause, off) => ((begun.raise 0xD010 [(1, cause), (4, off)]).endOp op 0x0C 1 cause)))

/-- R232, R233, R337, R419, R420 and R432, namespaces, programs and sanitize: a namespace takes the lowest free NSID of its
instance; one that nothing uses disappears or is formatted anew; a program is loaded from what is staged, or rejected with
status 0x0C; one that is unloaded waits for its tasks to be gone; a sanitize begins. -/
def Obligations.StoreRequests : Prop :=
  (∀ (s : State) (via : Via) (msg b : List Byte) (n : Nat), let begun := s.dev.begins via msg 0x60
    let op := s.dev.opOf via 0x60
    s.dev.asksLong via msg 0x60 b → (s.dev.submit via).nsCreateCheck b = 0 → leAt 0 1 b = n → leAt 1 1 b ≠ 2 →
    let id := begun.freeNsid n
    Does (.nsCreate via msg) s (((((begun.putNs (nsKey n id)
      ⟨n, leAt 1 1 b, leAt 2 1 b, leAt 8 8 b, leAt 3 1 b == 1, leAt 4 1 b, 1, leAt 16 4 b, 0⟩).namespaceChanged n id).opData op
        (leBytes 4 id)).endOp op 0 0 0))) ∧
  (∀ (s : State) (via : Via) (msg b : List Byte) (n id : Nat), s.dev.asksLong via msg 0x61 b → b.length = 5 →
    leAt 0 1 b = n → leAt 1 4 b = id → (s.dev.submit via).nsBusy n id = 0 →
    Does (.nsDelete via msg) s ((((s.dev.begins via msg 0x61).dropNs (nsKey n id)).namespaceChanged n id).endOp
      (s.dev.opOf via 0x61) 0 0 0)) ∧
  (∀ (s : State) (via : Via) (msg b : List Byte) (n id : Nat) (x : Namespace), let begun := s.dev.begins via msg 0x62
    s.dev.asksLong via msg 0x62 b → b.length = 7 → leAt 0 1 b = n → leAt 1 4 b = id → leAt 5 1 b ≤ 4 → leAt 6 1 b ≤ 1 →
    (leAt 5 1 b ≤ 1 → leAt 6 1 b = 0) → s.dev.nspace (nsKey n id) = some x → x.kind = 0 → (s.dev.submit via).nsBusy n id = 0 →
    let y := { x with lbaf := leAt 5 1 b, guardSrc := leAt 6 1 b, append := 0 }
    Does (.nsFormat via msg) s ((((begun.dropNs (nsKey n id)).putNs (nsKey n id) y).namespaceChanged n id).endOp
      (s.dev.opOf via 0x62) 0 0 0)) ∧
  (∀ (s : State) (via : Via) (msg b : List Byte) (n : Nat), let begun := s.dev.begins via msg 0x70
    let op := s.dev.opOf via 0x70
    let blob := staged begun.mgt.stageProg (leAt 1 4 b)
    let r := begun.loadProgram n blob (loaderCrc blob)
    s.dev.asksLong via msg 0x70 b → b.length = 5 → leAt 0 1 b = n → leAt 1 4 b ≤ 64 * 2 ^ 20 →
    (s.dev.submit via).insOn n = true →
    let tasks := ((r.1.eft.programs.getLast?).map (·.tasks)).getD []
    Does (.programLoad via msg) s (if r.2 = true then (r.1.opData op (leBytes 8 (leAt 16 8 blob) ++
        leBytes 2 (tasks.headD 0) ++ leBytes 2 (tasks.getLastD 0))).endOp op 0 0 0
      else r.1.endOp op 0x0C 0 (Config.loadCause ((begun.checkLoader n blob (loaderCrc blob)).getD 8)))) ∧
  (∀ (s : State) (via : Via) (msg b : List Byte) (p : Program), s.dev.asksLong via msg 0x71 b → b.length = 9 →
    p ∈ s.dev.eft.programs → p.inst = leAt 0 1 b → p.id = leAt 1 8 b → p.unloading = false →
    Does (.programUnload via msg) s ((s.dev.begins via msg 0x71).unloadProgram p.inst p.id)) ∧
  (∀ (s : State) (via : Via) (msg b : List Byte) (n steps : Nat), let begun := s.dev.begins via msg 0x95
    let op := s.dev.opOf via 0x95
    let start := fun z : Sanitize => Dev.runSanitize steps
      ({ begun with mgt.sanitize := begun.mgt.sanitize ++ [z] } : Dev).showSanitize
    s.dev.asksLong via msg 0x95 b → b.length = 2 →
    (leAt 0 1 b = 0 → leAt 1 1 b = n → (s.dev.submit via).insOn n = true →
      Does (.sanitizeInstance via msg steps) s (start ⟨false, n, op, 1⟩)) ∧
    (leAt 0 1 b = 1 → s.dev.rd .AVL_STATUS_MODE = 7 → (∀ m < 256, begun.insOn m = true → n ≤ m) → n < 256 → begun.insOn n = true →
      Does (.sanitizeDevice via msg steps) s (start ⟨true, n, op, 1⟩)))

/-- R415 and R427 to R430, the lock, the keys and the security version: a free lock is taken for its seconds, released by
its own TAG or by its time; the manager's key wraps the key area; a key that unwraps, or 64 random bytes, enter an empty
slot; the minimum version rises to what both firmware slots hold. -/
def Obligations.LockAndKeys : Prop :=
  (∀ (s : State) (via : Via) (msg b : List Byte), let d := s.dev.submit via
    (s.dev.asks via msg 0x80 b → b.length = 6 → 1 ≤ leAt 4 2 b → leAt 4 2 b ≤ 3600 → s.dev.mgt.lock = none →
      Does (.lock via msg) s ((({ d with mgt.lock := some (leAt 0 4 b, s.dev.now + leAt 4 2 b * 1000000000) } : Dev).wr
        .MGT_STATUS_LOCK_HELD 1).says via msg [])) ∧
    (∀ t, s.dev.asks via msg 0x81 b → b.length = 4 → s.dev.mgt.lock = some (leAt 0 4 b, t) →
      Does (.unlock via msg) s ((({ d with mgt.lock := none } : Dev).wr .MGT_STATUS_LOCK_HELD 0).says via msg [])) ∧
    (∀ t tag, s.dev.asks via msg 0x81 b → b.length = 4 → s.dev.mgt.lock = some (tag, t) → tag ≠ leAt 0 4 b →
      Does (.unlock via msg) s (d.says via msg []))) ∧
  (∀ (s : State) (tag t : Nat), s.dev.mgt.lock = some (tag, t) → t ≤ s.dev.now →
    Does .lockExpiry s (({ s.dev with mgt.lock := none } : Dev).wr .MGT_STATUS_LOCK_HELD 0)) ∧
  (∀ (s : State) (via : Via) (msg b : List Byte), let d := s.dev.submit via
    (s.dev.asks via msg 0x90 b → s.dev.rd .SEC_STATUS_MK_STATE = 0 → b.length = 36 → leAt 0 1 b ≤ 1 →
      allZero (sliceB 1 3 b) = true → Does (.keyMgrSet via msg) s ((d.setMk (leAt 0 1 b) (b.drop 4)).says via msg [])) ∧
    (∀ old, s.dev.asks via msg 0x90 b → s.dev.rd .SEC_STATUS_MK_STATE ≠ 0 → b.length = 44 → leAt 0 1 b ≤ 1 →
      allZero (sliceB 1 3 b) = true → s.dev.mgt.mgrKey = some old →
      Does (.keyMgrSet via msg) s (match Config.kwOpen old (b.drop 4) with
        | some mk => (d.setMk (leAt 0 1 b) mk).says via msg []
        | none => d.answerReq via msg ⟨0x0B, [], 0⟩)) ∧
    (s.dev.asks via msg 0x91 b → b.length = 32 → s.dev.rd .SEC_STATUS_MK_STATE = 2 →
      (∀ p ∈ s.dev.mgt.boot.keys, (Config.kwOpen b p.2).isSome = true) →
      Does (.keyUnlock via msg) s
        (((({ d with mgt.mgrKey := some b } : Dev).wr .SEC_STATUS_MK_STATE 1).loadKeys).says via msg []))) ∧
  (∀ (s : State) (via : Via) (msg b : List Byte) (n : Nat) (mk : List Byte), let d := s.dev.submit via
    leAt 0 1 b = n → d.insOn n = true → (∀ z ∈ s.dev.mgt.sanitize, z.device = false ∧ z.inst ≠ n) → s.dev.mgt.mgrKey = some mk →
    amFind n s.dev.mgt.slots = none → amFind n s.dev.mgt.boot.keys = none →
    let kept := fun (e : Dev) (key wrapped : List Byte) (own : Bool) =>
      let g : List Nat := if own then n :: e.mgt.boot.generated else e.mgt.boot.generated
      let e : Dev := { e with mgt.boot.keys := amPut n wrapped e.mgt.boot.keys, mgt.boot.generated := g }
      (((e.setKey n key).wr .SEC_KEY_STATE_STORED 1 n).wr .SEC_KEY_STATE_GENERATED (b2n own) n).raiseI n 0xD030
        [(1, n), (4, leAt 0 4 (kcv key))]
    (s.dev.asks via msg 0x92 b → b.length = 74 → leAt 1 1 b = 0 →
      Does (.keyLoad via msg) s (match Config.kwOpen mk (b.drop 2) with
        | some key => if key.take 32 = key.drop 32 then d.answerReq via msg ⟨4, [], 0⟩ else
            (kept d key (b.drop 2) false).says via msg (kcv key)
        | none => d.answerReq via msg ⟨0x0B, [], 0⟩)) ∧
    (s.dev.asks via msg 0x93 b → b.length = 1 →
      let key := (d.drawBytes 64).1
      let e := (d.drawBytes 64).2
      Does (.keyGenerate via msg) s (if key.take 32 = key.drop 32 then e.answerReq via msg ⟨4, [], 0⟩ else
        (kept e key (Config.kw mk key) true).says via msg (Config.kw mk key ++ kcv key)))) ∧
  (∀ (s : State) (via : Via) (msg b : List Byte) (svn : Nat), let d := s.dev.submit via
    let holds := fun bs : List Byte => fwEnvelope bs = none ∧ svn ≤ fwSvn bs
    s.dev.asks via msg 0xA0 b → b.length = 1 → leAt 0 1 b = svn → svn ≤ 63 → s.dev.rd .SEC_STATUS_SVN_MIN < svn →
    svn ≤ fwSvn (s.dev.fwSlot (s.dev.rd .MGT_ACT_FW_SLOT)) → holds s.dev.mgt.boot.fwA → holds s.dev.mgt.boot.fwB →
    Does (.svnCommit via msg) s (((d.wr .SEC_STATUS_SVN_MIN svn).raise 0xD040 [(1, svn)]).says via msg []))

/-- R466 and R467, REFCLK_LOSS, REFCLK_VALID and REFCLK_REVERT: the device goes on with the other reference where that is
valid (0xE080), else in holdover (0xE082); a reference valid again ends holdover (0xE083) or counts as valid (0xE081); the
preferred one is taken back where REVERT asks for it. R33, R445 and R488, PTP_LOCK, PTP_LOCK_LOSS and PTP_RELOCK: the first
lock steps the counter to TAI and takes the servo's increment; a loss clears LOCKED alone; a later lock sets LOCKED and
changes only the increment. -/
def Obligations.TimeAndClocks : Prop :=
  ((∀ (s : State) (r : Fin 2), s.dev.refOk r = true → s.dev.refOk (1 - r.val) = true → s.dev.rd .THM_CLK_ACTIVE = r.val →
    Does (.refclkLoss r) s
      (let e := s.dev.setRef r 0
       let e := { e with avl.refLost := r.val :: s.dev.avl.refLost.filter (fun x => x != r.val) }
       (((e.wr .THM_CLK_ACTIVE (1 - r.val)).cnt .THM_CLK_SWITCHES).raise 0xE080 [(1, r.val), (1, 1 - r.val)]).degrade 10 r)) ∧
  (∀ (s : State) (r : Fin 2), s.dev.refOk r = true → s.dev.refOk (1 - r.val) = false →
    Does (.refclkLoss r) s
      (let e := s.dev.setRef r 0
       let e := { e with avl.refLost := r.val :: s.dev.avl.refLost.filter (fun x => x != r.val) }
       ((e.wr .THM_CLK_HOLDOVER 1).raise 0xE082 []).degrade 10 r)) ∧
  (∀ (s : State) (r : Fin 2), s.dev.rd .THM_CLK_HOLDOVER = 1 →
    Does (.refclkValid r) s
      ((((s.dev.wr .THM_CLK_HOLDOVER 0).wr .THM_CLK_ACTIVE r).setRef r 1).raise 0xE083 [(1, r.val)])) ∧
  (∀ s : State, s.dev.rd .THM_CLK_REVERT = 1 → s.dev.rd .THM_CLK_PREFER ≠ s.dev.rd .THM_CLK_ACTIVE →
    s.dev.refOk (s.dev.rd .THM_CLK_PREFER) = true → s.dev.rd .THM_CLK_PREFER ∉ s.dev.avl.refLost →
    s.dev.rd .THM_CLK_HOLDOVER = 0 →
    Does .refclkRevert s (s.dev.wr .THM_CLK_ACTIVE (s.dev.rd .THM_CLK_PREFER)))) ∧
  ((∀ (s : State) (p : Fin 128) (tai inc : Nat), s.dev.ptpPort p = true → s.dev.rd .SYS_TIME_STATUS_STEPPED = 0 →
    s.dev.rd .NET_PORT_STATUS_UP p = 1 → tai < 2 ^ 64 →
    Ends (.ptpLock p tai inc) s (fun e => e.now = tai ∧ e.sys.inc = inc ∧ e.rd .SYS_TIME_STATUS_LOCKED = 1 ∧
      e.rd .SYS_TIME_STATUS_STEPPED = 1 ∧ e.logged 0x0040 0 (packData [(8, s.dev.now), (8, tai)]) ∧ SameMem s.dev e ∧
      SameRegs (fun f _ => f == .SYS_TIME_STATUS_LOCKED || f == .SYS_TIME_STATUS_STEPPED) s.dev e)) ∧
  (∀ s : State, Does .ptpLockLoss s (s.dev.wr .SYS_TIME_STATUS_LOCKED 0)) ∧
  (∀ (s : State) (p : Fin 128) (inc : Nat), s.dev.ptpPort p = true → s.dev.rd .SYS_TIME_STATUS_STEPPED = 1 →
    s.dev.rd .NET_PORT_STATUS_UP p = 1 →
    Does (.ptpRelock p inc) s ({ s.dev with sys.inc := inc }.wr .SYS_TIME_STATUS_LOCKED 1)))

/-- R458, R464, R475 to R477, SENSOR_READ, POWER_CAP_CHECK, TAP_INSTRUCTION and PERST: below the trips the sensors read as
sampled and the thermal level follows the hottest; power above the cap is noted once (0xE062); a TAP instruction that is not
always available selects BYPASS outside Maintenance; PERST of link 0 clears the mailbox of physical function 0. R208, R211,
R461 and R462, POWER_FAIL_ASSERT, POWER_FAIL_DEASSERT and RAIL_UNDERVOLT: the table Hold-up sequence runs in mode Hold-up;
the input's end is a cold reset, unless a trip holds it; a rail below its minimum is the same hold-up after 0xE090. -/
def Obligations.ElectricalCommands : Prop :=
  ((∀ (s : State) (temps : List Nat) (f : Found) (fl : Flush), s.dev.avl.tripHold = false → temps.length = 24 →
    (∀ t ∈ temps, t < 98) → s.dev.stackMax < 100 →
    Does (.sensorRead temps f fl) s
      (let tj := temps.foldl max 0
       let old := s.dev.avl.thermal
       let e := ((s.dev.setSensors 0 temps).wr .THM_STATUS_TJ_MAX tj).wr .THM_STATUS_STACK_MAX s.dev.stackMax
       ({ e with avl.thermal := thermalNext old tj }.noteThresholds old (thermalNext old tj) tj).thermalApply)) ∧
  (∀ (d : Dev) (temps : List Nat) (n t : Nat), (∀ t ∈ temps, t < 256) → temps[n]? = some t →
    (d.setSensors 0 temps).rd .THM_SENSOR n = t) ∧
  (∀ (s : State) (dw : Nat), dw < 2 ^ 16 → s.dev.rd .THM_CTRL_CAP_W < 520 → s.dev.rd .THM_CTRL_CAP_W * 10 < dw →
    s.dev.avl.capped = false →
    Does (.powerCapCheck dw) s
      (({ (s.dev.wr .THM_POWER dw).raise 0xE062 [(2, dw), (2, s.dev.rd .THM_CTRL_CAP_W)] with
          avl.capped := true, avl.capBelow := none } : Dev).thermalApply)) ∧
  (∀ (s : State) (code : Nat),
    Does (.tapInstruction code) s
      { s.dev with avl.tap := if code ≤ 5 ∨ s.dev.rd .AVL_STATUS_MODE = 7 then code else 2 }) ∧
  (∀ s : State, Ends (.perst 0) s (fun e => e.mgt.mbxResp = [] ∧ e.mgt.mbxReady = false))) ∧
  ((∀ (s : State) (fl : Flush), s.dev.avl.powerFail = false → s.dev.rd .AVL_STATUS_MODE ≠ 6 →
    Does (.powerFailAssert fl) s (({ s.dev with avl.powerFail := true } : Dev).setMode 6 |>.flushBuffer fl)) ∧
  (∀ (s : State) (f : Found), s.dev.avl.tripHold = false → s.dev.rd .AVL_STATUS_MODE = 6 →
    Does (.powerFailDeassert f) s (({ s.dev with avl.powerFail := false } : Dev).coldReset 2 f)) ∧
  (∀ (s : State) (rail : Nat) (fl : Flush), s.dev.avl.powerFail = false → s.dev.rd .AVL_STATUS_MODE ≠ 6 →
    Does (.railUndervolt rail fl) s (((s.dev.raise 0xE090 [(1, rail)]).setMode 6).flushBuffer fl)) ∧
  (∀ (s : State) (rail : Nat) (fl : Flush), s.dev.rd .AVL_STATUS_MODE = 6 →
    Does (.railUndervolt rail fl) s (s.dev.raise 0xE090 [(1, rail)])))

/-- R438 to R441, POWER_ON_RESET and COLD_RESET_PIN, while the power-fail input is asserted, so that the boot waits at its
first step (R462): device memory is zero, device time starts at 0, the KIND of the reset is recorded, no image is active, no
connection and no stream is left, and the boot flash keeps its contents. -/
def Obligations.ResetCommands : Prop :=
  (∀ (s : State) (supplies : Bool) (f : Found), s.dev.avl.powerFail = true →
    Ends (.powerOnReset supplies f) s (fun e => e.ram = [] ∧ e.now = 0 ∧ e.rd .AVL_RESET_CAUSE_KIND = 0 ∧
      e.img.active = none ∧ e.hq.conns = [] ∧ e.cap.streams = [] ∧ e.ev.plog = s.dev.ev.plog ∧ e.mgt.boot = s.dev.mgt.boot)) ∧
  (∀ (s : State) (f : Found) (fl : Flush), s.dev.avl.powerFail = true → s.dev.avl.tripHold = false →
    s.dev.rd .STI_STATUS_STATE ≠ 3 →
    Ends (.coldResetPin f fl) s (fun e => e.ram = [] ∧ e.now = 0 ∧ e.rd .AVL_RESET_CAUSE_KIND = 1 ∧
      e.rd .AVL_RESET_CAUSE_CAUSE = 0 ∧ e.img.active = none ∧ e.hq.conns = [] ∧ e.cap.streams = [] ∧
      e.mgt.boot = s.dev.mgt.boot))

/-- R417, R434, R448, R449, R451 and R455, RECOVERY_RUN, STEWARD_MISMATCH, STOP_DETECT, LIFE_TICK, LIFE_SAVE and LOG_COPY:
the other pair takes over from the active one (0xE050); a stop longer than 100 ms counts with 0xE020; a second of service
life adds the acceleration factor of the junction temperature; the life is saved after 3,600 of them; the log copy leaves
nothing uncopied. -/
def Obligations.AvailabilityCommands : Prop :=
  (∀ (s : State) (f : Found), s.dev.mgt.up = true → s.dev.avl.pair0 = true → s.dev.avl.pair1 = true →
    s.dev.rd .AVL_STEWARD_ACTIVE = 0 → s.dev.mgt.hold = none →
    Does (.stewardMismatch 0 true f) s
      (((((s.dev.cnt .AVL_STEWARD_FAILOVERS).wr .AVL_STEWARD_ACTIVE 1).raise 0xE050 [(1, 0), (1, 1)]).wr
        .AVL_STEWARD_STANDBY_OK 1).raise 0xE051 [(1, 0)])) ∧
  (∀ (s : State) (f : Found), s.dev.mgt.up = true → s.dev.avl.pair0 = true → s.dev.avl.pair1 = true →
    s.dev.rd .AVL_STEWARD_ACTIVE = 0 → s.dev.mgt.hold = none →
    Does (.stewardMismatch 1 false f) s
      ((({ s.dev.raise 0xE050 [(1, 1), (1, 0)] with avl.pair1 := false } : Dev).wr .AVL_STEWARD_STANDBY_OK 0).retirePair 1)) ∧
  (∀ (s : State) (p : Fin 128) (start ms : Nat), 100 < ms → p.val ∈ s.dev.upPorts →
    Does (.stopDetect p start ms) s ((s.dev.cnt .AVL_STOPS_COUNT).raise 0xE020 [(2, p.val), (8, start), (4, ms * 1000000)])) ∧
  (∀ s : State, Ends .lifeTick s (fun e =>
    e.avl.life = s.dev.avl.life + lifeFactor (s.dev.rd .THM_STATUS_TJ_MAX) / 2 ^ 32 / 3600 ∧ SameMem s.dev e ∧
    SameRegs (fun f _ => f == .AVL_LIFE_HOURS || f == .AVL_LIFE_LIFE_PM) s.dev e)) ∧
  (∀ s : State, 3600 ≤ s.dev.avl.lifeSaved →
    Does .lifeSave s { s.dev with mgt.boot.life := s.dev.avl.life, avl.lifeSaved := 0 }) ∧
  (∀ s : State, s.dev.mgt.up = true → s.dev.ev.lost = 0 →
    Ends .logCopy s (fun e => e.ev.uncopied = 0 ∧ e.ev.queue = s.dev.ev.queue ∧ e.regs = s.dev.regs ∧ SameMem s.dev e ∧
      e.ev.plog = keepLast 131072 (s.dev.ev.plog ++ keepLast s.dev.ev.uncopied s.dev.ev.alwaysOn))) ∧
  (∀ (s : State) (bad : Option Nat) (undecoded : List Nat), s.dev.rd .AVL_STATUS_MODE = 5 →
    Ends (.recoveryRun bad undecoded) s (fun e => e.avl.stoppedPorts = []))
end

