-- ==== Sys2Proof/Laws/AMap.lean ====
section
/-! SUPPORT. Laws of sparse tables: what a read gives after each update, and that every update keeps the canonical form. -/
namespace Sys2Proof.Machine

variable {α : Type}

/-! ## Reads after updates -/

@[simp] theorem amGet_nil (d : α) (k : Nat) : amGet d k [] = d := rfl

theorem amGet_cons (d : α) (k j : Nat) (v : α) (m : AMap α) :
    amGet d k ((j, v) :: m) = if j = k then v else amGet d k m := rfl

theorem amGet_amDel (d : α) (j k : Nat) (m : AMap α) :
    amGet d j (amDel k m) = if j = k then d else amGet d j m := by
  induction m with
  | nil => simp [amDel]
  | cons p m ih =>
    obtain ⟨i, v⟩ := p
    simp only [amDel, List.filter_cons] at ih ⊢
    by_cases hik : i = k <;> by_cases hjk : j = k <;> by_cases hij : i = j <;>
      simp_all [amGet_cons]

theorem amGet_amIns (d : α) (j k : Nat) (v : α) (m : AMap α) :
    amGet d j (amIns k v m) = if j = k then v else amGet d j m := by
  induction m with
  | nil => simp [amIns, amGet_cons, eq_comm]
  | cons p m ih =>
    obtain ⟨i, w⟩ := p
    simp only [amIns]
    split
    · by_cases hij : i = j
      · simp [amGet_cons, hij, show j ≠ k by omega]
      · simp [amGet_cons, hij, ih]
    · by_cases hjk : j = k
      · simp [amGet_cons, hjk]
      · simp [amGet_cons, hjk, Ne.symm hjk]

/-- A read after a write: the value at its key, what was there at every other key. -/
theorem amGet_amSet [DecidableEq α] (d : α) (j k : Nat) (v : α) (m : AMap α) :
    amGet d j (amSet d k v m) = if j = k then v else amGet d j m := by
  unfold amSet
  by_cases hv : v = d
  · subst hv
    simp only [if_true, amGet_amDel]
  · rw [if_neg hv, amGet_amIns, amGet_amDel]
    by_cases hjk : j = k <;> simp [hjk]

@[simp] theorem amGet_amSet_same [DecidableEq α] (d : α) (k : Nat) (v : α) (m : AMap α) :
    amGet d k (amSet d k v m) = v := by simp [amGet_amSet]

theorem amGet_amSet_ne [DecidableEq α] (d : α) {j k : Nat} (h : j ≠ k) (v : α) (m : AMap α) :
    amGet d j (amSet d k v m) = amGet d j m := by simp [amGet_amSet, h]

theorem amGet_amMod [DecidableEq α] (d : α) (j k : Nat) (f : α → α) (m : AMap α) :
    amGet d j (amMod d k f m) = if j = k then f (amGet d k m) else amGet d j m := amGet_amSet ..

/-- A read of a table cut by a test of keys alone. -/
theorem amGet_filter (d : α) (j : Nat) (f : Nat → Bool) (m : AMap α) :
    amGet d j (List.filter (fun p => f p.1) m) = if f j then amGet d j m else d := by
  induction m with
  | nil => simp
  | cons p m ih =>
    obtain ⟨i, v⟩ := p
    by_cases hfi : f i <;> by_cases hij : i = j <;>
      simp_all [amGet_cons]

theorem amGet_append_of_ne (d : α) (j : Nat) (m n : AMap α) (h : ∀ p ∈ m, p.1 ≠ j) :
    amGet d j (m ++ n) = amGet d j n := by
  induction m with
  | nil => rfl
  | cons p m ih =>
    obtain ⟨i, v⟩ := p
    have hi : i ≠ j := h (i, v) (by simp)
    simp only [List.cons_append, amGet_cons, if_neg hi]
    exact ih (fun p hp => h p (List.mem_cons_of_mem _ hp))

theorem amGet_append (d : α) (j : Nat) (m n : AMap α) (h : ∀ p ∈ n, p.1 ≠ j) :
    amGet d j (m ++ n) = amGet d j m := by
  induction m with
  | nil =>
    have := amGet_append_of_ne d j n [] h
    simpa using this
  | cons p m ih => obtain ⟨i, v⟩ := p; simp [amGet_cons, ih]

/-- The values of a written range, as a table. -/
def amSeg [DecidableEq α] (d : α) (a : Nat) (vs : List α) : AMap α :=
  ((vs.zipIdx a).filter (fun p => p.1 ≠ d)).map (fun p => (p.2, p.1))

theorem amSeg_cons [DecidableEq α] (d : α) (a : Nat) (v : α) (vs : List α) :
    amSeg d a (v :: vs) = if v ≠ d then (a, v) :: amSeg d (a + 1) vs else amSeg d (a + 1) vs := by
  by_cases h : v = d <;> simp [amSeg, List.zipIdx_cons, h]

theorem amSeg_keys [DecidableEq α] (d : α) (a : Nat) (vs : List α) :
    ∀ p ∈ amSeg d a vs, a ≤ p.1 ∧ p.1 < a + vs.length := by
  induction vs generalizing a with
  | nil => simp [amSeg]
  | cons v vs ih =>
    intro p hp
    rw [amSeg_cons] at hp
    split at hp
    · rcases List.mem_cons.1 hp with rfl | hp
      · simp
      · have := ih (a + 1) p hp; simp only [List.length_cons]; omega
    · have := ih (a + 1) p hp; simp only [List.length_cons]; omega

theorem amGet_amSeg [DecidableEq α] (d : α) (a : Nat) (vs : List α) (j : Nat) :
    amGet d j (amSeg d a vs) = if a ≤ j ∧ j < a + vs.length then vs.getD (j - a) d else d := by
  induction vs generalizing a with
  | nil => simp [amSeg]
  | cons v vs ih =>
    rw [amSeg_cons]
    by_cases hj : j = a
    · subst hj
      have hlt : amGet d j (amSeg d (j + 1) vs) = d := by rw [ih]; simp
      by_cases hv : v = d
      · simp [hv, hlt]
      · simp [hv, amGet_cons]
    · have hr : amGet d j (amSeg d (a + 1) vs) =
          if a ≤ j ∧ j < a + (vs.length + 1) then (v :: vs).getD (j - a) d else d := by
        rw [ih]
        by_cases h1 : a + 1 ≤ j ∧ j < a + 1 + vs.length
        · have e : j - a = (j - (a + 1)) + 1 := by omega
          rw [if_pos h1, if_pos (by omega), e, List.getD_cons_succ]
        · rw [if_neg h1, if_neg (by omega)]
      split
      · rw [amGet_cons, if_neg (Ne.symm hj), hr]; simp
      · rw [hr]; simp

/-- A read after a write of a range. -/
theorem amGet_amSetRange [DecidableEq α] (d : α) (a : Nat) (vs : List α) (m : AMap α) (j : Nat) :
    amGet d j (amSetRange d a vs m) =
      if a ≤ j ∧ j < a + vs.length then vs.getD (j - a) d else amGet d j m := by
  change amGet d j (m.filter (fun p => (fun k => decide (k < a)) p.1) ++ amSeg d a vs ++
    m.filter (fun p => (fun k => decide (a + vs.length ≤ k)) p.1)) = _
  by_cases h1 : j < a
  · rw [amGet_append, amGet_append, amGet_filter d j (fun k => decide (k < a))]
    · simp [h1]
    · intro p hp; have := amSeg_keys d a vs p hp; omega
    · intro p hp; simp only [List.mem_filter, decide_eq_true_eq] at hp; omega
  · by_cases h2 : j < a + vs.length
    · rw [amGet_append, amGet_append_of_ne, amGet_amSeg, if_pos (by omega), if_pos (by omega)]
      · intro p hp; simp only [List.mem_filter, decide_eq_true_eq] at hp; omega
      · intro p hp; simp only [List.mem_filter, decide_eq_true_eq] at hp; omega
    · rw [amGet_append_of_ne, amGet_filter d j (fun k => decide (a + vs.length ≤ k))]
      · simp [show a + vs.length ≤ j by omega]
      · intro p hp
        rcases List.mem_append.1 hp with hp | hp
        · simp only [List.mem_filter, decide_eq_true_eq] at hp; omega
        · have := amSeg_keys d a vs p hp; omega

theorem amGetRange_length (d : α) (a n : Nat) (m : AMap α) : (amGetRange d a n m).length = n := by
  simp [amGetRange]

/-- A range is read value by value. -/
theorem amGetRange_getD (d : α) (a n : Nat) (m : AMap α) (k : Nat) (h : k < n) :
    (amGetRange d a n m).getD k d = amGet d (a + k) m := by
  have : amGet d (a + k) (m.filter (fun p => (fun i => decide (a ≤ i ∧ i < a + n)) p.1)) = amGet d (a + k) m := by
    rw [amGet_filter d (a + k) (fun i => decide (a ≤ i ∧ i < a + n))]; simp [h]
  simpa [amGetRange, List.getD_eq_getElem?_getD, h] using this

/-! ## The canonical form -/

theorem amSorted_iff (m : AMap α) : amSorted m = true ↔ m.Pairwise (fun p q => p.1 < q.1) := by
  induction m with
  | nil => simp [amSorted]
  | cons p m ih =>
    cases m with
    | nil => simp [amSorted]
    | cons q m =>
      simp only [amSorted, Bool.and_eq_true, decide_eq_true_eq, ih]
      constructor
      · rintro ⟨h, hs⟩
        refine List.pairwise_cons.2 ⟨fun x hx => ?_, hs⟩
        rcases List.mem_cons.1 hx with rfl | hx
        · exact h
        · exact lt_trans h ((List.pairwise_cons.1 hs).1 x hx)
      · intro hs
        exact ⟨(List.pairwise_cons.1 hs).1 q (by simp), (List.pairwise_cons.1 hs).2⟩

theorem amWf_iff [DecidableEq α] (d : α) (m : AMap α) :
    amWf d m = true ↔ m.Pairwise (fun p q => p.1 < q.1) ∧ ∀ p ∈ m, p.2 ≠ d := by
  simp [amWf, amSorted_iff]

theorem amWf_filter [DecidableEq α] (d : α) (f : Nat × α → Bool) (m : AMap α) (h : amWf d m = true) :
    amWf d (m.filter f) = true := by
  rw [amWf_iff] at h ⊢
  exact ⟨h.1.filter _, fun p hp => h.2 p (List.mem_of_mem_filter hp)⟩

theorem amWf_amDel [DecidableEq α] (d : α) (k : Nat) (m : AMap α) (h : amWf d m = true) :
    amWf d (amDel k m) = true := amWf_filter d _ m h

theorem mem_amIns (k : Nat) (v : α) (m : AMap α) (p : Nat × α) : p ∈ amIns k v m ↔ p = (k, v) ∨ p ∈ m := by
  induction m with
  | nil => simp [amIns]
  | cons q m ih =>
    obtain ⟨i, w⟩ := q
    simp only [amIns]
    split
    · simp only [List.mem_cons, ih]; tauto
    · simp only [List.mem_cons]

theorem pairwise_amIns (k : Nat) (v : α) (m : AMap α) (h : m.Pairwise (fun p q => p.1 < q.1))
    (hk : ∀ p ∈ m, p.1 ≠ k) : (amIns k v m).Pairwise (fun p q => p.1 < q.1) := by
  induction m with
  | nil => simp [amIns]
  | cons q m ih =>
    obtain ⟨i, w⟩ := q
    obtain ⟨h1, h2⟩ := List.pairwise_cons.1 h
    simp only [amIns]
    split
    · rename_i hlt
      refine List.pairwise_cons.2 ⟨fun p hp => ?_, ih h2 (fun p hp => hk p (List.mem_cons_of_mem _ hp))⟩
      rcases (mem_amIns k v m p).1 hp with rfl | hp
      · exact hlt
      · exact h1 p hp
    · rename_i hge
      have hki : k < i := by
        have := hk (i, w) (by simp); simp only at this hge; omega
      refine List.pairwise_cons.2 ⟨fun p hp => ?_, h⟩
      rcases List.mem_cons.1 hp with rfl | hp
      · exact hki
      · exact lt_trans hki (h1 p hp)

/-- A write keeps the canonical form. -/
theorem amWf_amSet [DecidableEq α] (d : α) (k : Nat) (v : α) (m : AMap α) (h : amWf d m = true) :
    amWf d (amSet d k v m) = true := by
  unfold amSet
  split
  · exact amWf_amDel d k m h
  · rename_i hv
    have h' := (amWf_iff d _).1 (amWf_amDel d k m h)
    rw [amWf_iff]
    refine ⟨pairwise_amIns k v _ h'.1 (fun p hp => ?_), fun p hp => ?_⟩
    · simp only [amDel, List.mem_filter, bne_iff_ne, ne_eq] at hp; exact hp.2
    · rcases (mem_amIns k v _ p).1 hp with rfl | hp
      · exact hv
      · exact h'.2 p hp

theorem amWf_amMod [DecidableEq α] (d : α) (k : Nat) (f : α → α) (m : AMap α) (h : amWf d m = true) :
    amWf d (amMod d k f m) = true := amWf_amSet d k _ m h

theorem amSeg_pairwise [DecidableEq α] (d : α) (a : Nat) (vs : List α) :
    (amSeg d a vs).Pairwise (fun p q => p.1 < q.1) := by
  induction vs generalizing a with
  | nil => simp [amSeg]
  | cons v vs ih =>
    rw [amSeg_cons]
    split
    · refine List.pairwise_cons.2 ⟨fun p hp => ?_, ih (a + 1)⟩
      have := amSeg_keys d (a + 1) vs p hp
      simp only; omega
    · exact ih (a + 1)

theorem amSeg_ne [DecidableEq α] (d : α) (a : Nat) (vs : List α) : ∀ p ∈ amSeg d a vs, p.2 ≠ d := by
  induction vs generalizing a with
  | nil => simp [amSeg]
  | cons v vs ih =>
    intro p hp
    rw [amSeg_cons] at hp
    split at hp
    · rename_i hv
      rcases List.mem_cons.1 hp with rfl | hp
      · exact hv
      · exact ih _ p hp
    · exact ih _ p hp

/-- A write of a range keeps the canonical form. -/
theorem amWf_amSetRange [DecidableEq α] (d : α) (a : Nat) (vs : List α) (m : AMap α) (h : amWf d m = true) :
    amWf d (amSetRange d a vs m) = true := by
  have h1 := (amWf_iff d _).1 (amWf_filter d (fun p => decide (p.1 < a)) m h)
  have h2 := (amWf_iff d _).1 (amWf_filter d (fun p => decide (a + vs.length ≤ p.1)) m h)
  change amWf d (m.filter (fun p => decide (p.1 < a)) ++ amSeg d a vs ++
    m.filter (fun p => decide (a + vs.length ≤ p.1))) = true
  rw [amWf_iff]
  constructor
  · rw [List.append_assoc, List.pairwise_append]
    refine ⟨h1.1, ?_, ?_⟩
    · rw [List.pairwise_append]
      refine ⟨amSeg_pairwise d a vs, h2.1, fun p hp q hq => ?_⟩
      have := amSeg_keys d a vs p hp
      simp only [List.mem_filter, decide_eq_true_eq] at hq; omega
    · intro p hp q hq
      simp only [List.mem_filter, decide_eq_true_eq] at hp
      rcases List.mem_append.1 hq with hq | hq
      · have := amSeg_keys d a vs q hq; omega
      · simp only [List.mem_filter, decide_eq_true_eq] at hq; omega
  · intro p hp
    rcases List.mem_append.1 hp with hp | hp
    · rcases List.mem_append.1 hp with hp | hp
      · exact h1.2 p hp
      · exact amSeg_ne d a vs p hp
    · exact h2.2 p hp

/-! ## Tables of things that may be absent -/

theorem amFind_amDel (j k : Nat) (m : AMap α) : amFind j (amDel k m) = if j = k then none else amFind j m := by
  induction m with
  | nil => simp [amDel, amFind]
  | cons p m ih =>
    obtain ⟨i, v⟩ := p
    simp only [amDel, List.filter_cons] at ih ⊢
    by_cases hik : i = k <;> by_cases hjk : j = k <;> by_cases hij : i = j <;> simp_all [amFind]

theorem amFind_amIns (j k : Nat) (v : α) (m : AMap α) :
    amFind j (amIns k v m) = if j = k then some v else amFind j m := by
  induction m with
  | nil => simp [amIns, amFind, eq_comm]
  | cons p m ih =>
    obtain ⟨i, w⟩ := p
    simp only [amIns]
    split
    · rename_i h
      by_cases hij : i = j
      · simp [amFind, hij, show j ≠ k by omega]
      · simp [amFind, hij, ih]
    · by_cases hjk : j = k
      · simp [amFind, hjk]
      · simp [amFind, hjk, Ne.symm hjk]

/-- A lookup after an insertion. -/
theorem amFind_amPut (j k : Nat) (v : α) (m : AMap α) :
    amFind j (amPut k v m) = if j = k then some v else amFind j m := by
  rw [amPut, amFind_amIns]
  by_cases h : j = k <;> simp [h, amFind_amDel]

end Sys2Proof.Machine
end

