-- ==== Sys2Proof/Laws/State.lean ====
section
/-! SUPPORT. What each shared operation leaves alone, field by field, and the laws of the register file. -/
namespace Sys2Proof.Machine

/-! ## wr -/
@[simp] theorem Dev.wr_ram (d : Dev) (f : Fld) (v i : Nat) : (d.wr f v i).ram = d.ram := rfl
@[simp] theorem Dev.wr_sys (d : Dev) (f : Fld) (v i : Nat) : (d.wr f v i).sys = d.sys := rfl
@[simp] theorem Dev.wr_pol (d : Dev) (f : Fld) (v i : Nat) : (d.wr f v i).pol = d.pol := rfl
@[simp] theorem Dev.wr_ev (d : Dev) (f : Fld) (v i : Nat) : (d.wr f v i).ev = d.ev := rfl
@[simp] theorem Dev.wr_mem (d : Dev) (f : Fld) (v i : Nat) : (d.wr f v i).mem = d.mem := rfl
@[simp] theorem Dev.wr_eft (d : Dev) (f : Fld) (v i : Nat) : (d.wr f v i).eft = d.eft := rfl
@[simp] theorem Dev.wr_cor (d : Dev) (f : Fld) (v i : Nat) : (d.wr f v i).cor = d.cor := rfl
@[simp] theorem Dev.wr_gk (d : Dev) (f : Fld) (v i : Nat) : (d.wr f v i).gk = d.gk := rfl
@[simp] theorem Dev.wr_chk (d : Dev) (f : Fld) (v i : Nat) : (d.wr f v i).chk = d.chk := rfl
@[simp] theorem Dev.wr_img (d : Dev) (f : Fld) (v i : Nat) : (d.wr f v i).img = d.img := rfl
@[simp] theorem Dev.wr_cap (d : Dev) (f : Fld) (v i : Nat) : (d.wr f v i).cap = d.cap := rfl
@[simp] theorem Dev.wr_cdc (d : Dev) (f : Fld) (v i : Nat) : (d.wr f v i).cdc = d.cdc := rfl
@[simp] theorem Dev.wr_fls (d : Dev) (f : Fld) (v i : Nat) : (d.wr f v i).fls = d.fls := rfl
@[simp] theorem Dev.wr_dur (d : Dev) (f : Fld) (v i : Nat) : (d.wr f v i).dur = d.dur := rfl
@[simp] theorem Dev.wr_hq (d : Dev) (f : Fld) (v i : Nat) : (d.wr f v i).hq = d.hq := rfl
@[simp] theorem Dev.wr_shr (d : Dev) (f : Fld) (v i : Nat) : (d.wr f v i).shr = d.shr := rfl
@[simp] theorem Dev.wr_ins (d : Dev) (f : Fld) (v i : Nat) : (d.wr f v i).ins = d.ins := rfl
@[simp] theorem Dev.wr_mgt (d : Dev) (f : Fld) (v i : Nat) : (d.wr f v i).mgt = d.mgt := rfl
@[simp] theorem Dev.wr_avl (d : Dev) (f : Fld) (v i : Nat) : (d.wr f v i).avl = d.avl := rfl
@[simp] theorem Dev.wr_out (d : Dev) (f : Fld) (v i : Nat) : (d.wr f v i).out = d.out := rfl
@[simp] theorem Dev.wr_free (d : Dev) (f : Fld) (v i : Nat) : (d.wr f v i).free = d.free := rfl
@[simp] theorem Dev.wr_now (d : Dev) (f : Fld) (v i : Nat) : (d.wr f v i).now = d.now := by simp only [Dev.now, Dev.wr_sys]
@[simp] theorem Dev.wr_core (d : Dev) (f : Fld) (v i : Nat) (c : Nat) : (d.wr f v i).core c = d.core c := by
  simp only [Dev.core, Dev.wr_cor]

/-! ## wr64 -/
@[simp] theorem Dev.wr64_ram (d : Dev) (lo hi : Fld) (v i : Nat) : (d.wr64 lo hi v i).ram = d.ram := rfl
@[simp] theorem Dev.wr64_sys (d : Dev) (lo hi : Fld) (v i : Nat) : (d.wr64 lo hi v i).sys = d.sys := rfl
@[simp] theorem Dev.wr64_pol (d : Dev) (lo hi : Fld) (v i : Nat) : (d.wr64 lo hi v i).pol = d.pol := rfl
@[simp] theorem Dev.wr64_ev (d : Dev) (lo hi : Fld) (v i : Nat) : (d.wr64 lo hi v i).ev = d.ev := rfl
@[simp] theorem Dev.wr64_mem (d : Dev) (lo hi : Fld) (v i : Nat) : (d.wr64 lo hi v i).mem = d.mem := rfl
@[simp] theorem Dev.wr64_eft (d : Dev) (lo hi : Fld) (v i : Nat) : (d.wr64 lo hi v i).eft = d.eft := rfl
@[simp] theorem Dev.wr64_cor (d : Dev) (lo hi : Fld) (v i : Nat) : (d.wr64 lo hi v i).cor = d.cor := rfl
@[simp] theorem Dev.wr64_gk (d : Dev) (lo hi : Fld) (v i : Nat) : (d.wr64 lo hi v i).gk = d.gk := rfl
@[simp] theorem Dev.wr64_chk (d : Dev) (lo hi : Fld) (v i : Nat) : (d.wr64 lo hi v i).chk = d.chk := rfl
@[simp] theorem Dev.wr64_img (d : Dev) (lo hi : Fld) (v i : Nat) : (d.wr64 lo hi v i).img = d.img := rfl
@[simp] theorem Dev.wr64_cap (d : Dev) (lo hi : Fld) (v i : Nat) : (d.wr64 lo hi v i).cap = d.cap := rfl
@[simp] theorem Dev.wr64_cdc (d : Dev) (lo hi : Fld) (v i : Nat) : (d.wr64 lo hi v i).cdc = d.cdc := rfl
@[simp] theorem Dev.wr64_fls (d : Dev) (lo hi : Fld) (v i : Nat) : (d.wr64 lo hi v i).fls = d.fls := rfl
@[simp] theorem Dev.wr64_dur (d : Dev) (lo hi : Fld) (v i : Nat) : (d.wr64 lo hi v i).dur = d.dur := rfl
@[simp] theorem Dev.wr64_hq (d : Dev) (lo hi : Fld) (v i : Nat) : (d.wr64 lo hi v i).hq = d.hq := rfl
@[simp] theorem Dev.wr64_shr (d : Dev) (lo hi : Fld) (v i : Nat) : (d.wr64 lo hi v i).shr = d.shr := rfl
@[simp] theorem Dev.wr64_ins (d : Dev) (lo hi : Fld) (v i : Nat) : (d.wr64 lo hi v i).ins = d.ins := rfl
@[simp] theorem Dev.wr64_mgt (d : Dev) (lo hi : Fld) (v i : Nat) : (d.wr64 lo hi v i).mgt = d.mgt := rfl
@[simp] theorem Dev.wr64_avl (d : Dev) (lo hi : Fld) (v i : Nat) : (d.wr64 lo hi v i).avl = d.avl := rfl
@[simp] theorem Dev.wr64_out (d : Dev) (lo hi : Fld) (v i : Nat) : (d.wr64 lo hi v i).out = d.out := rfl
@[simp] theorem Dev.wr64_free (d : Dev) (lo hi : Fld) (v i : Nat) : (d.wr64 lo hi v i).free = d.free := rfl
@[simp] theorem Dev.wr64_now (d : Dev) (lo hi : Fld) (v i : Nat) : (d.wr64 lo hi v i).now = d.now := by simp only [Dev.now, Dev.wr64_sys]
@[simp] theorem Dev.wr64_core (d : Dev) (lo hi : Fld) (v i : Nat) (c : Nat) : (d.wr64 lo hi v i).core c = d.core c := by
  simp only [Dev.core, Dev.wr64_cor]

/-! ## cnt -/
@[simp] theorem Dev.cnt_ram (d : Dev) (f : Fld) (i n : Nat) : (d.cnt f i n).ram = d.ram := rfl
@[simp] theorem Dev.cnt_sys (d : Dev) (f : Fld) (i n : Nat) : (d.cnt f i n).sys = d.sys := rfl
@[simp] theorem Dev.cnt_pol (d : Dev) (f : Fld) (i n : Nat) : (d.cnt f i n).pol = d.pol := rfl
@[simp] theorem Dev.cnt_ev (d : Dev) (f : Fld) (i n : Nat) : (d.cnt f i n).ev = d.ev := rfl
@[simp] theorem Dev.cnt_mem (d : Dev) (f : Fld) (i n : Nat) : (d.cnt f i n).mem = d.mem := rfl
@[simp] theorem Dev.cnt_eft (d : Dev) (f : Fld) (i n : Nat) : (d.cnt f i n).eft = d.eft := rfl
@[simp] theorem Dev.cnt_cor (d : Dev) (f : Fld) (i n : Nat) : (d.cnt f i n).cor = d.cor := rfl
@[simp] theorem Dev.cnt_gk (d : Dev) (f : Fld) (i n : Nat) : (d.cnt f i n).gk = d.gk := rfl
@[simp] theorem Dev.cnt_chk (d : Dev) (f : Fld) (i n : Nat) : (d.cnt f i n).chk = d.chk := rfl
@[simp] theorem Dev.cnt_img (d : Dev) (f : Fld) (i n : Nat) : (d.cnt f i n).img = d.img := rfl
@[simp] theorem Dev.cnt_cap (d : Dev) (f : Fld) (i n : Nat) : (d.cnt f i n).cap = d.cap := rfl
@[simp] theorem Dev.cnt_cdc (d : Dev) (f : Fld) (i n : Nat) : (d.cnt f i n).cdc = d.cdc := rfl
@[simp] theorem Dev.cnt_fls (d : Dev) (f : Fld) (i n : Nat) : (d.cnt f i n).fls = d.fls := rfl
@[simp] theorem Dev.cnt_dur (d : Dev) (f : Fld) (i n : Nat) : (d.cnt f i n).dur = d.dur := rfl
@[simp] theorem Dev.cnt_hq (d : Dev) (f : Fld) (i n : Nat) : (d.cnt f i n).hq = d.hq := rfl
@[simp] theorem Dev.cnt_shr (d : Dev) (f : Fld) (i n : Nat) : (d.cnt f i n).shr = d.shr := rfl
@[simp] theorem Dev.cnt_ins (d : Dev) (f : Fld) (i n : Nat) : (d.cnt f i n).ins = d.ins := rfl
@[simp] theorem Dev.cnt_mgt (d : Dev) (f : Fld) (i n : Nat) : (d.cnt f i n).mgt = d.mgt := rfl
@[simp] theorem Dev.cnt_avl (d : Dev) (f : Fld) (i n : Nat) : (d.cnt f i n).avl = d.avl := rfl
@[simp] theorem Dev.cnt_out (d : Dev) (f : Fld) (i n : Nat) : (d.cnt f i n).out = d.out := rfl
@[simp] theorem Dev.cnt_free (d : Dev) (f : Fld) (i n : Nat) : (d.cnt f i n).free = d.free := rfl
@[simp] theorem Dev.cnt_now (d : Dev) (f : Fld) (i n : Nat) : (d.cnt f i n).now = d.now := by simp only [Dev.now, Dev.cnt_sys]
@[simp] theorem Dev.cnt_core (d : Dev) (f : Fld) (i n : Nat) (c : Nat) : (d.cnt f i n).core c = d.core c := by
  simp only [Dev.core, Dev.cnt_cor]

/-! ## cnt64 -/
@[simp] theorem Dev.cnt64_ram (d : Dev) (lo hi : Fld) (i n : Nat) : (d.cnt64 lo hi i n).ram = d.ram := rfl
@[simp] theorem Dev.cnt64_sys (d : Dev) (lo hi : Fld) (i n : Nat) : (d.cnt64 lo hi i n).sys = d.sys := rfl
@[simp] theorem Dev.cnt64_pol (d : Dev) (lo hi : Fld) (i n : Nat) : (d.cnt64 lo hi i n).pol = d.pol := rfl
@[simp] theorem Dev.cnt64_ev (d : Dev) (lo hi : Fld) (i n : Nat) : (d.cnt64 lo hi i n).ev = d.ev := rfl
@[simp] theorem Dev.cnt64_mem (d : Dev) (lo hi : Fld) (i n : Nat) : (d.cnt64 lo hi i n).mem = d.mem := rfl
@[simp] theorem Dev.cnt64_eft (d : Dev) (lo hi : Fld) (i n : Nat) : (d.cnt64 lo hi i n).eft = d.eft := rfl
@[simp] theorem Dev.cnt64_cor (d : Dev) (lo hi : Fld) (i n : Nat) : (d.cnt64 lo hi i n).cor = d.cor := rfl
@[simp] theorem Dev.cnt64_gk (d : Dev) (lo hi : Fld) (i n : Nat) : (d.cnt64 lo hi i n).gk = d.gk := rfl
@[simp] theorem Dev.cnt64_chk (d : Dev) (lo hi : Fld) (i n : Nat) : (d.cnt64 lo hi i n).chk = d.chk := rfl
@[simp] theorem Dev.cnt64_img (d : Dev) (lo hi : Fld) (i n : Nat) : (d.cnt64 lo hi i n).img = d.img := rfl
@[simp] theorem Dev.cnt64_cap (d : Dev) (lo hi : Fld) (i n : Nat) : (d.cnt64 lo hi i n).cap = d.cap := rfl
@[simp] theorem Dev.cnt64_cdc (d : Dev) (lo hi : Fld) (i n : Nat) : (d.cnt64 lo hi i n).cdc = d.cdc := rfl
@[simp] theorem Dev.cnt64_fls (d : Dev) (lo hi : Fld) (i n : Nat) : (d.cnt64 lo hi i n).fls = d.fls := rfl
@[simp] theorem Dev.cnt64_dur (d : Dev) (lo hi : Fld) (i n : Nat) : (d.cnt64 lo hi i n).dur = d.dur := rfl
@[simp] theorem Dev.cnt64_hq (d : Dev) (lo hi : Fld) (i n : Nat) : (d.cnt64 lo hi i n).hq = d.hq := rfl
@[simp] theorem Dev.cnt64_shr (d : Dev) (lo hi : Fld) (i n : Nat) : (d.cnt64 lo hi i n).shr = d.shr := rfl
@[simp] theorem Dev.cnt64_ins (d : Dev) (lo hi : Fld) (i n : Nat) : (d.cnt64 lo hi i n).ins = d.ins := rfl
@[simp] theorem Dev.cnt64_mgt (d : Dev) (lo hi : Fld) (i n : Nat) : (d.cnt64 lo hi i n).mgt = d.mgt := rfl
@[simp] theorem Dev.cnt64_avl (d : Dev) (lo hi : Fld) (i n : Nat) : (d.cnt64 lo hi i n).avl = d.avl := rfl
@[simp] theorem Dev.cnt64_out (d : Dev) (lo hi : Fld) (i n : Nat) : (d.cnt64 lo hi i n).out = d.out := rfl
@[simp] theorem Dev.cnt64_free (d : Dev) (lo hi : Fld) (i n : Nat) : (d.cnt64 lo hi i n).free = d.free := rfl
@[simp] theorem Dev.cnt64_now (d : Dev) (lo hi : Fld) (i n : Nat) : (d.cnt64 lo hi i n).now = d.now := by simp only [Dev.now, Dev.cnt64_sys]
@[simp] theorem Dev.cnt64_core (d : Dev) (lo hi : Fld) (i n : Nat) (c : Nat) : (d.cnt64 lo hi i n).core c = d.core c := by
  simp only [Dev.core, Dev.cnt64_cor]

/-! ## record -/
@[simp] theorem Dev.record_regs (d : Dev) (r : EvRec) : (d.record r).regs = d.regs := rfl
@[simp] theorem Dev.record_ram (d : Dev) (r : EvRec) : (d.record r).ram = d.ram := rfl
@[simp] theorem Dev.record_sys (d : Dev) (r : EvRec) : (d.record r).sys = d.sys := rfl
@[simp] theorem Dev.record_pol (d : Dev) (r : EvRec) : (d.record r).pol = d.pol := rfl
@[simp] theorem Dev.record_mem (d : Dev) (r : EvRec) : (d.record r).mem = d.mem := rfl
@[simp] theorem Dev.record_eft (d : Dev) (r : EvRec) : (d.record r).eft = d.eft := rfl
@[simp] theorem Dev.record_cor (d : Dev) (r : EvRec) : (d.record r).cor = d.cor := rfl
@[simp] theorem Dev.record_gk (d : Dev) (r : EvRec) : (d.record r).gk = d.gk := rfl
@[simp] theorem Dev.record_chk (d : Dev) (r : EvRec) : (d.record r).chk = d.chk := rfl
@[simp] theorem Dev.record_img (d : Dev) (r : EvRec) : (d.record r).img = d.img := rfl
@[simp] theorem Dev.record_cap (d : Dev) (r : EvRec) : (d.record r).cap = d.cap := rfl
@[simp] theorem Dev.record_cdc (d : Dev) (r : EvRec) : (d.record r).cdc = d.cdc := rfl
@[simp] theorem Dev.record_fls (d : Dev) (r : EvRec) : (d.record r).fls = d.fls := rfl
@[simp] theorem Dev.record_dur (d : Dev) (r : EvRec) : (d.record r).dur = d.dur := rfl
@[simp] theorem Dev.record_hq (d : Dev) (r : EvRec) : (d.record r).hq = d.hq := rfl
@[simp] theorem Dev.record_shr (d : Dev) (r : EvRec) : (d.record r).shr = d.shr := rfl
@[simp] theorem Dev.record_ins (d : Dev) (r : EvRec) : (d.record r).ins = d.ins := rfl
@[simp] theorem Dev.record_mgt (d : Dev) (r : EvRec) : (d.record r).mgt = d.mgt := rfl
@[simp] theorem Dev.record_avl (d : Dev) (r : EvRec) : (d.record r).avl = d.avl := rfl
@[simp] theorem Dev.record_free (d : Dev) (r : EvRec) : (d.record r).free = d.free := rfl
@[simp] theorem Dev.record_rd (d : Dev) (r : EvRec) (g : Fld) (k : Nat) : (d.record r).rd g k = d.rd g k := by
  simp only [Dev.rd, Dev.record_regs]
@[simp] theorem Dev.record_now (d : Dev) (r : EvRec) : (d.record r).now = d.now := by simp only [Dev.now, Dev.record_sys]
@[simp] theorem Dev.record_core (d : Dev) (r : EvRec) (c : Nat) : (d.record r).core c = d.core c := by
  simp only [Dev.core, Dev.record_cor]

/-! ## raiseI -/
@[simp] theorem Dev.raiseI_regs (d : Dev) (n code : Nat) (fs : List (Nat × Nat)) : (d.raiseI n code fs).regs = d.regs := rfl
@[simp] theorem Dev.raiseI_ram (d : Dev) (n code : Nat) (fs : List (Nat × Nat)) : (d.raiseI n code fs).ram = d.ram := rfl
@[simp] theorem Dev.raiseI_sys (d : Dev) (n code : Nat) (fs : List (Nat × Nat)) : (d.raiseI n code fs).sys = d.sys := rfl
@[simp] theorem Dev.raiseI_pol (d : Dev) (n code : Nat) (fs : List (Nat × Nat)) : (d.raiseI n code fs).pol = d.pol := rfl
@[simp] theorem Dev.raiseI_mem (d : Dev) (n code : Nat) (fs : List (Nat × Nat)) : (d.raiseI n code fs).mem = d.mem := rfl
@[simp] theorem Dev.raiseI_eft (d : Dev) (n code : Nat) (fs : List (Nat × Nat)) : (d.raiseI n code fs).eft = d.eft := rfl
@[simp] theorem Dev.raiseI_cor (d : Dev) (n code : Nat) (fs : List (Nat × Nat)) : (d.raiseI n code fs).cor = d.cor := rfl
@[simp] theorem Dev.raiseI_gk (d : Dev) (n code : Nat) (fs : List (Nat × Nat)) : (d.raiseI n code fs).gk = d.gk := rfl
@[simp] theorem Dev.raiseI_chk (d : Dev) (n code : Nat) (fs : List (Nat × Nat)) : (d.raiseI n code fs).chk = d.chk := rfl
@[simp] theorem Dev.raiseI_img (d : Dev) (n code : Nat) (fs : List (Nat × Nat)) : (d.raiseI n code fs).img = d.img := rfl
@[simp] theorem Dev.raiseI_cap (d : Dev) (n code : Nat) (fs : List (Nat × Nat)) : (d.raiseI n code fs).cap = d.cap := rfl
@[simp] theorem Dev.raiseI_cdc (d : Dev) (n code : Nat) (fs : List (Nat × Nat)) : (d.raiseI n code fs).cdc = d.cdc := rfl
@[simp] theorem Dev.raiseI_fls (d : Dev) (n code : Nat) (fs : List (Nat × Nat)) : (d.raiseI n code fs).fls = d.fls := rfl
@[simp] theorem Dev.raiseI_dur (d : Dev) (n code : Nat) (fs : List (Nat × Nat)) : (d.raiseI n code fs).dur = d.dur := rfl
@[simp] theorem Dev.raiseI_hq (d : Dev) (n code : Nat) (fs : List (Nat × Nat)) : (d.raiseI n code fs).hq = d.hq := rfl
@[simp] theorem Dev.raiseI_shr (d : Dev) (n code : Nat) (fs : List (Nat × Nat)) : (d.raiseI n code fs).shr = d.shr := rfl
@[simp] theorem Dev.raiseI_ins (d : Dev) (n code : Nat) (fs : List (Nat × Nat)) : (d.raiseI n code fs).ins = d.ins := rfl
@[simp] theorem Dev.raiseI_mgt (d : Dev) (n code : Nat) (fs : List (Nat × Nat)) : (d.raiseI n code fs).mgt = d.mgt := rfl
@[simp] theorem Dev.raiseI_avl (d : Dev) (n code : Nat) (fs : List (Nat × Nat)) : (d.raiseI n code fs).avl = d.avl := rfl
@[simp] theorem Dev.raiseI_free (d : Dev) (n code : Nat) (fs : List (Nat × Nat)) : (d.raiseI n code fs).free = d.free := rfl
@[simp] theorem Dev.raiseI_rd (d : Dev) (n code : Nat) (fs : List (Nat × Nat)) (g : Fld) (k : Nat) : (d.raiseI n code fs).rd g k = d.rd g k := by
  simp only [Dev.rd, Dev.raiseI_regs]
@[simp] theorem Dev.raiseI_now (d : Dev) (n code : Nat) (fs : List (Nat × Nat)) : (d.raiseI n code fs).now = d.now := by simp only [Dev.now, Dev.raiseI_sys]
@[simp] theorem Dev.raiseI_core (d : Dev) (n code : Nat) (fs : List (Nat × Nat)) (c : Nat) : (d.raiseI n code fs).core c = d.core c := by
  simp only [Dev.core, Dev.raiseI_cor]

/-! ## raise -/
@[simp] theorem Dev.raise_regs (d : Dev) (code : Nat) (fs : List (Nat × Nat)) : (d.raise code fs).regs = d.regs := rfl
@[simp] theorem Dev.raise_ram (d : Dev) (code : Nat) (fs : List (Nat × Nat)) : (d.raise code fs).ram = d.ram := rfl
@[simp] theorem Dev.raise_sys (d : Dev) (code : Nat) (fs : List (Nat × Nat)) : (d.raise code fs).sys = d.sys := rfl
@[simp] theorem Dev.raise_pol (d : Dev) (code : Nat) (fs : List (Nat × Nat)) : (d.raise code fs).pol = d.pol := rfl
@[simp] theorem Dev.raise_mem (d : Dev) (code : Nat) (fs : List (Nat × Nat)) : (d.raise code fs).mem = d.mem := rfl
@[simp] theorem Dev.raise_eft (d : Dev) (code : Nat) (fs : List (Nat × Nat)) : (d.raise code fs).eft = d.eft := rfl
@[simp] theorem Dev.raise_cor (d : Dev) (code : Nat) (fs : List (Nat × Nat)) : (d.raise code fs).cor = d.cor := rfl
@[simp] theorem Dev.raise_gk (d : Dev) (code : Nat) (fs : List (Nat × Nat)) : (d.raise code fs).gk = d.gk := rfl
@[simp] theorem Dev.raise_chk (d : Dev) (code : Nat) (fs : List (Nat × Nat)) : (d.raise code fs).chk = d.chk := rfl
@[simp] theorem Dev.raise_img (d : Dev) (code : Nat) (fs : List (Nat × Nat)) : (d.raise code fs).img = d.img := rfl
@[simp] theorem Dev.raise_cap (d : Dev) (code : Nat) (fs : List (Nat × Nat)) : (d.raise code fs).cap = d.cap := rfl
@[simp] theorem Dev.raise_cdc (d : Dev) (code : Nat) (fs : List (Nat × Nat)) : (d.raise code fs).cdc = d.cdc := rfl
@[simp] theorem Dev.raise_fls (d : Dev) (code : Nat) (fs : List (Nat × Nat)) : (d.raise code fs).fls = d.fls := rfl
@[simp] theorem Dev.raise_dur (d : Dev) (code : Nat) (fs : List (Nat × Nat)) : (d.raise code fs).dur = d.dur := rfl
@[simp] theorem Dev.raise_hq (d : Dev) (code : Nat) (fs : List (Nat × Nat)) : (d.raise code fs).hq = d.hq := rfl
@[simp] theorem Dev.raise_shr (d : Dev) (code : Nat) (fs : List (Nat × Nat)) : (d.raise code fs).shr = d.shr := rfl
@[simp] theorem Dev.raise_ins (d : Dev) (code : Nat) (fs : List (Nat × Nat)) : (d.raise code fs).ins = d.ins := rfl
@[simp] theorem Dev.raise_mgt (d : Dev) (code : Nat) (fs : List (Nat × Nat)) : (d.raise code fs).mgt = d.mgt := rfl
@[simp] theorem Dev.raise_avl (d : Dev) (code : Nat) (fs : List (Nat × Nat)) : (d.raise code fs).avl = d.avl := rfl
@[simp] theorem Dev.raise_free (d : Dev) (code : Nat) (fs : List (Nat × Nat)) : (d.raise code fs).free = d.free := rfl
@[simp] theorem Dev.raise_rd (d : Dev) (code : Nat) (fs : List (Nat × Nat)) (g : Fld) (k : Nat) : (d.raise code fs).rd g k = d.rd g k := by
  simp only [Dev.rd, Dev.raise_regs]
@[simp] theorem Dev.raise_now (d : Dev) (code : Nat) (fs : List (Nat × Nat)) : (d.raise code fs).now = d.now := by simp only [Dev.now, Dev.raise_sys]
@[simp] theorem Dev.raise_core (d : Dev) (code : Nat) (fs : List (Nat × Nat)) (c : Nat) : (d.raise code fs).core c = d.core c := by
  simp only [Dev.core, Dev.raise_cor]

/-! ## raiseSec -/
@[simp] theorem Dev.raiseSec_regs (d : Dev) (n code item : Nat) (fs : List (Nat × Nat)) : (d.raiseSec n code item fs).regs = d.regs := by
  unfold Dev.raiseSec; dsimp only; split <;> rfl
@[simp] theorem Dev.raiseSec_ram (d : Dev) (n code item : Nat) (fs : List (Nat × Nat)) : (d.raiseSec n code item fs).ram = d.ram := by
  unfold Dev.raiseSec; dsimp only; split <;> rfl
@[simp] theorem Dev.raiseSec_sys (d : Dev) (n code item : Nat) (fs : List (Nat × Nat)) : (d.raiseSec n code item fs).sys = d.sys := by
  unfold Dev.raiseSec; dsimp only; split <;> rfl
@[simp] theorem Dev.raiseSec_pol (d : Dev) (n code item : Nat) (fs : List (Nat × Nat)) : (d.raiseSec n code item fs).pol = d.pol := by
  unfold Dev.raiseSec; dsimp only; split <;> rfl
@[simp] theorem Dev.raiseSec_mem (d : Dev) (n code item : Nat) (fs : List (Nat × Nat)) : (d.raiseSec n code item fs).mem = d.mem := by
  unfold Dev.raiseSec; dsimp only; split <;> rfl
@[simp] theorem Dev.raiseSec_eft (d : Dev) (n code item : Nat) (fs : List (Nat × Nat)) : (d.raiseSec n code item fs).eft = d.eft := by
  unfold Dev.raiseSec; dsimp only; split <;> rfl
@[simp] theorem Dev.raiseSec_cor (d : Dev) (n code item : Nat) (fs : List (Nat × Nat)) : (d.raiseSec n code item fs).cor = d.cor := by
  unfold Dev.raiseSec; dsimp only; split <;> rfl
@[simp] theorem Dev.raiseSec_gk (d : Dev) (n code item : Nat) (fs : List (Nat × Nat)) : (d.raiseSec n code item fs).gk = d.gk := by
  unfold Dev.raiseSec; dsimp only; split <;> rfl
@[simp] theorem Dev.raiseSec_chk (d : Dev) (n code item : Nat) (fs : List (Nat × Nat)) : (d.raiseSec n code item fs).chk = d.chk := by
  unfold Dev.raiseSec; dsimp only; split <;> rfl
@[simp] theorem Dev.raiseSec_img (d : Dev) (n code item : Nat) (fs : List (Nat × Nat)) : (d.raiseSec n code item fs).img = d.img := by
  unfold Dev.raiseSec; dsimp only; split <;> rfl
@[simp] theorem Dev.raiseSec_cap (d : Dev) (n code item : Nat) (fs : List (Nat × Nat)) : (d.raiseSec n code item fs).cap = d.cap := by
  unfold Dev.raiseSec; dsimp only; split <;> rfl
@[simp] theorem Dev.raiseSec_cdc (d : Dev) (n code item : Nat) (fs : List (Nat × Nat)) : (d.raiseSec n code item fs).cdc = d.cdc := by
  unfold Dev.raiseSec; dsimp only; split <;> rfl
@[simp] theorem Dev.raiseSec_fls (d : Dev) (n code item : Nat) (fs : List (Nat × Nat)) : (d.raiseSec n code item fs).fls = d.fls := by
  unfold Dev.raiseSec; dsimp only; split <;> rfl
@[simp] theorem Dev.raiseSec_dur (d : Dev) (n code item : Nat) (fs : List (Nat × Nat)) : (d.raiseSec n code item fs).dur = d.dur := by
  unfold Dev.raiseSec; dsimp only; split <;> rfl
@[simp] theorem Dev.raiseSec_hq (d : Dev) (n code item : Nat) (fs : List (Nat × Nat)) : (d.raiseSec n code item fs).hq = d.hq := by
  unfold Dev.raiseSec; dsimp only; split <;> rfl
@[simp] theorem Dev.raiseSec_shr (d : Dev) (n code item : Nat) (fs : List (Nat × Nat)) : (d.raiseSec n code item fs).shr = d.shr := by
  unfold Dev.raiseSec; dsimp only; split <;> rfl
@[simp] theorem Dev.raiseSec_ins (d : Dev) (n code item : Nat) (fs : List (Nat × Nat)) : (d.raiseSec n code item fs).ins = d.ins := by
  unfold Dev.raiseSec; dsimp only; split <;> rfl
@[simp] theorem Dev.raiseSec_mgt (d : Dev) (n code item : Nat) (fs : List (Nat × Nat)) : (d.raiseSec n code item fs).mgt = d.mgt := by
  unfold Dev.raiseSec; dsimp only; split <;> rfl
@[simp] theorem Dev.raiseSec_avl (d : Dev) (n code item : Nat) (fs : List (Nat × Nat)) : (d.raiseSec n code item fs).avl = d.avl := by
  unfold Dev.raiseSec; dsimp only; split <;> rfl
@[simp] theorem Dev.raiseSec_free (d : Dev) (n code item : Nat) (fs : List (Nat × Nat)) : (d.raiseSec n code item fs).free = d.free := by
  unfold Dev.raiseSec; dsimp only; split <;> rfl
@[simp] theorem Dev.raiseSec_rd (d : Dev) (n code item : Nat) (fs : List (Nat × Nat)) (g : Fld) (k : Nat) : (d.raiseSec n code item fs).rd g k = d.rd g k := by
  simp only [Dev.rd, Dev.raiseSec_regs]
@[simp] theorem Dev.raiseSec_now (d : Dev) (n code item : Nat) (fs : List (Nat × Nat)) : (d.raiseSec n code item fs).now = d.now := by simp only [Dev.now, Dev.raiseSec_sys]
@[simp] theorem Dev.raiseSec_core (d : Dev) (n code item : Nat) (fs : List (Nat × Nat)) (c : Nat) : (d.raiseSec n code item fs).core c = d.core c := by
  simp only [Dev.core, Dev.raiseSec_cor]

/-! ## countSec -/
@[simp] theorem Dev.countSec_regs (d : Dev) (code item : Nat) : (d.countSec code item).regs = d.regs := rfl
@[simp] theorem Dev.countSec_ram (d : Dev) (code item : Nat) : (d.countSec code item).ram = d.ram := rfl
@[simp] theorem Dev.countSec_sys (d : Dev) (code item : Nat) : (d.countSec code item).sys = d.sys := rfl
@[simp] theorem Dev.countSec_pol (d : Dev) (code item : Nat) : (d.countSec code item).pol = d.pol := rfl
@[simp] theorem Dev.countSec_mem (d : Dev) (code item : Nat) : (d.countSec code item).mem = d.mem := rfl
@[simp] theorem Dev.countSec_eft (d : Dev) (code item : Nat) : (d.countSec code item).eft = d.eft := rfl
@[simp] theorem Dev.countSec_cor (d : Dev) (code item : Nat) : (d.countSec code item).cor = d.cor := rfl
@[simp] theorem Dev.countSec_gk (d : Dev) (code item : Nat) : (d.countSec code item).gk = d.gk := rfl
@[simp] theorem Dev.countSec_chk (d : Dev) (code item : Nat) : (d.countSec code item).chk = d.chk := rfl
@[simp] theorem Dev.countSec_img (d : Dev) (code item : Nat) : (d.countSec code item).img = d.img := rfl
@[simp] theorem Dev.countSec_cap (d : Dev) (code item : Nat) : (d.countSec code item).cap = d.cap := rfl
@[simp] theorem Dev.countSec_cdc (d : Dev) (code item : Nat) : (d.countSec code item).cdc = d.cdc := rfl
@[simp] theorem Dev.countSec_fls (d : Dev) (code item : Nat) : (d.countSec code item).fls = d.fls := rfl
@[simp] theorem Dev.countSec_dur (d : Dev) (code item : Nat) : (d.countSec code item).dur = d.dur := rfl
@[simp] theorem Dev.countSec_hq (d : Dev) (code item : Nat) : (d.countSec code item).hq = d.hq := rfl
@[simp] theorem Dev.countSec_shr (d : Dev) (code item : Nat) : (d.countSec code item).shr = d.shr := rfl
@[simp] theorem Dev.countSec_ins (d : Dev) (code item : Nat) : (d.countSec code item).ins = d.ins := rfl
@[simp] theorem Dev.countSec_mgt (d : Dev) (code item : Nat) : (d.countSec code item).mgt = d.mgt := rfl
@[simp] theorem Dev.countSec_avl (d : Dev) (code item : Nat) : (d.countSec code item).avl = d.avl := rfl
@[simp] theorem Dev.countSec_out (d : Dev) (code item : Nat) : (d.countSec code item).out = d.out := rfl
@[simp] theorem Dev.countSec_free (d : Dev) (code item : Nat) : (d.countSec code item).free = d.free := rfl
@[simp] theorem Dev.countSec_rd (d : Dev) (code item : Nat) (g : Fld) (k : Nat) : (d.countSec code item).rd g k = d.rd g k := by
  simp only [Dev.rd, Dev.countSec_regs]
@[simp] theorem Dev.countSec_now (d : Dev) (code item : Nat) : (d.countSec code item).now = d.now := by simp only [Dev.now, Dev.countSec_sys]
@[simp] theorem Dev.countSec_core (d : Dev) (code item : Nat) (c : Nat) : (d.countSec code item).core c = d.core c := by
  simp only [Dev.core, Dev.countSec_cor]

/-! ## send -/
@[simp] theorem Dev.send_regs (d : Dev) (m : Out) : (d.send m).regs = d.regs := rfl
@[simp] theorem Dev.send_ram (d : Dev) (m : Out) : (d.send m).ram = d.ram := rfl
@[simp] theorem Dev.send_sys (d : Dev) (m : Out) : (d.send m).sys = d.sys := rfl
@[simp] theorem Dev.send_pol (d : Dev) (m : Out) : (d.send m).pol = d.pol := rfl
@[simp] theorem Dev.send_ev (d : Dev) (m : Out) : (d.send m).ev = d.ev := rfl
@[simp] theorem Dev.send_mem (d : Dev) (m : Out) : (d.send m).mem = d.mem := rfl
@[simp] theorem Dev.send_eft (d : Dev) (m : Out) : (d.send m).eft = d.eft := rfl
@[simp] theorem Dev.send_cor (d : Dev) (m : Out) : (d.send m).cor = d.cor := rfl
@[simp] theorem Dev.send_gk (d : Dev) (m : Out) : (d.send m).gk = d.gk := rfl
@[simp] theorem Dev.send_chk (d : Dev) (m : Out) : (d.send m).chk = d.chk := rfl
@[simp] theorem Dev.send_img (d : Dev) (m : Out) : (d.send m).img = d.img := rfl
@[simp] theorem Dev.send_cap (d : Dev) (m : Out) : (d.send m).cap = d.cap := rfl
@[simp] theorem Dev.send_cdc (d : Dev) (m : Out) : (d.send m).cdc = d.cdc := rfl
@[simp] theorem Dev.send_fls (d : Dev) (m : Out) : (d.send m).fls = d.fls := rfl
@[simp] theorem Dev.send_dur (d : Dev) (m : Out) : (d.send m).dur = d.dur := rfl
@[simp] theorem Dev.send_hq (d : Dev) (m : Out) : (d.send m).hq = d.hq := rfl
@[simp] theorem Dev.send_shr (d : Dev) (m : Out) : (d.send m).shr = d.shr := rfl
@[simp] theorem Dev.send_ins (d : Dev) (m : Out) : (d.send m).ins = d.ins := rfl
@[simp] theorem Dev.send_mgt (d : Dev) (m : Out) : (d.send m).mgt = d.mgt := rfl
@[simp] theorem Dev.send_avl (d : Dev) (m : Out) : (d.send m).avl = d.avl := rfl
@[simp] theorem Dev.send_free (d : Dev) (m : Out) : (d.send m).free = d.free := rfl
@[simp] theorem Dev.send_rd (d : Dev) (m : Out) (g : Fld) (k : Nat) : (d.send m).rd g k = d.rd g k := by
  simp only [Dev.rd, Dev.send_regs]
@[simp] theorem Dev.send_now (d : Dev) (m : Out) : (d.send m).now = d.now := by simp only [Dev.now, Dev.send_sys]
@[simp] theorem Dev.send_core (d : Dev) (m : Out) (c : Nat) : (d.send m).core c = d.core c := by
  simp only [Dev.core, Dev.send_cor]

/-! ## draw -/
@[simp] theorem Dev.draw_regs (d : Dev) (w : Nat) : ((d.draw w).2).regs = d.regs := rfl
@[simp] theorem Dev.draw_ram (d : Dev) (w : Nat) : ((d.draw w).2).ram = d.ram := rfl
@[simp] theorem Dev.draw_sys (d : Dev) (w : Nat) : ((d.draw w).2).sys = d.sys := rfl
@[simp] theorem Dev.draw_pol (d : Dev) (w : Nat) : ((d.draw w).2).pol = d.pol := rfl
@[simp] theorem Dev.draw_ev (d : Dev) (w : Nat) : ((d.draw w).2).ev = d.ev := rfl
@[simp] theorem Dev.draw_mem (d : Dev) (w : Nat) : ((d.draw w).2).mem = d.mem := rfl
@[simp] theorem Dev.draw_eft (d : Dev) (w : Nat) : ((d.draw w).2).eft = d.eft := rfl
@[simp] theorem Dev.draw_cor (d : Dev) (w : Nat) : ((d.draw w).2).cor = d.cor := rfl
@[simp] theorem Dev.draw_gk (d : Dev) (w : Nat) : ((d.draw w).2).gk = d.gk := rfl
@[simp] theorem Dev.draw_chk (d : Dev) (w : Nat) : ((d.draw w).2).chk = d.chk := rfl
@[simp] theorem Dev.draw_img (d : Dev) (w : Nat) : ((d.draw w).2).img = d.img := rfl
@[simp] theorem Dev.draw_cap (d : Dev) (w : Nat) : ((d.draw w).2).cap = d.cap := rfl
@[simp] theorem Dev.draw_cdc (d : Dev) (w : Nat) : ((d.draw w).2).cdc = d.cdc := rfl
@[simp] theorem Dev.draw_fls (d : Dev) (w : Nat) : ((d.draw w).2).fls = d.fls := rfl
@[simp] theorem Dev.draw_dur (d : Dev) (w : Nat) : ((d.draw w).2).dur = d.dur := rfl
@[simp] theorem Dev.draw_hq (d : Dev) (w : Nat) : ((d.draw w).2).hq = d.hq := rfl
@[simp] theorem Dev.draw_shr (d : Dev) (w : Nat) : ((d.draw w).2).shr = d.shr := rfl
@[simp] theorem Dev.draw_ins (d : Dev) (w : Nat) : ((d.draw w).2).ins = d.ins := rfl
@[simp] theorem Dev.draw_mgt (d : Dev) (w : Nat) : ((d.draw w).2).mgt = d.mgt := rfl
@[simp] theorem Dev.draw_avl (d : Dev) (w : Nat) : ((d.draw w).2).avl = d.avl := rfl
@[simp] theorem Dev.draw_out (d : Dev) (w : Nat) : ((d.draw w).2).out = d.out := rfl
@[simp] theorem Dev.draw_rd (d : Dev) (w : Nat) (g : Fld) (k : Nat) : ((d.draw w).2).rd g k = d.rd g k := by
  simp only [Dev.rd, Dev.draw_regs]
@[simp] theorem Dev.draw_now (d : Dev) (w : Nat) : ((d.draw w).2).now = d.now := by simp only [Dev.now, Dev.draw_sys]
@[simp] theorem Dev.draw_core (d : Dev) (w : Nat) (c : Nat) : ((d.draw w).2).core c = d.core c := by
  simp only [Dev.core, Dev.draw_cor]

/-! ## drawBytes -/
@[simp] theorem Dev.drawBytes_regs (d : Dev) (n : Nat) : ((d.drawBytes n).2).regs = d.regs := rfl
@[simp] theorem Dev.drawBytes_ram (d : Dev) (n : Nat) : ((d.drawBytes n).2).ram = d.ram := rfl
@[simp] theorem Dev.drawBytes_sys (d : Dev) (n : Nat) : ((d.drawBytes n).2).sys = d.sys := rfl
@[simp] theorem Dev.drawBytes_pol (d : Dev) (n : Nat) : ((d.drawBytes n).2).pol = d.pol := rfl
@[simp] theorem Dev.drawBytes_ev (d : Dev) (n : Nat) : ((d.drawBytes n).2).ev = d.ev := rfl
@[simp] theorem Dev.drawBytes_mem (d : Dev) (n : Nat) : ((d.drawBytes n).2).mem = d.mem := rfl
@[simp] theorem Dev.drawBytes_eft (d : Dev) (n : Nat) : ((d.drawBytes n).2).eft = d.eft := rfl
@[simp] theorem Dev.drawBytes_cor (d : Dev) (n : Nat) : ((d.drawBytes n).2).cor = d.cor := rfl
@[simp] theorem Dev.drawBytes_gk (d : Dev) (n : Nat) : ((d.drawBytes n).2).gk = d.gk := rfl
@[simp] theorem Dev.drawBytes_chk (d : Dev) (n : Nat) : ((d.drawBytes n).2).chk = d.chk := rfl
@[simp] theorem Dev.drawBytes_img (d : Dev) (n : Nat) : ((d.drawBytes n).2).img = d.img := rfl
@[simp] theorem Dev.drawBytes_cap (d : Dev) (n : Nat) : ((d.drawBytes n).2).cap = d.cap := rfl
@[simp] theorem Dev.drawBytes_cdc (d : Dev) (n : Nat) : ((d.drawBytes n).2).cdc = d.cdc := rfl
@[simp] theorem Dev.drawBytes_fls (d : Dev) (n : Nat) : ((d.drawBytes n).2).fls = d.fls := rfl
@[simp] theorem Dev.drawBytes_dur (d : Dev) (n : Nat) : ((d.drawBytes n).2).dur = d.dur := rfl
@[simp] theorem Dev.drawBytes_hq (d : Dev) (n : Nat) : ((d.drawBytes n).2).hq = d.hq := rfl
@[simp] theorem Dev.drawBytes_shr (d : Dev) (n : Nat) : ((d.drawBytes n).2).shr = d.shr := rfl
@[simp] theorem Dev.drawBytes_ins (d : Dev) (n : Nat) : ((d.drawBytes n).2).ins = d.ins := rfl
@[simp] theorem Dev.drawBytes_mgt (d : Dev) (n : Nat) : ((d.drawBytes n).2).mgt = d.mgt := rfl
@[simp] theorem Dev.drawBytes_avl (d : Dev) (n : Nat) : ((d.drawBytes n).2).avl = d.avl := rfl
@[simp] theorem Dev.drawBytes_out (d : Dev) (n : Nat) : ((d.drawBytes n).2).out = d.out := rfl
@[simp] theorem Dev.drawBytes_rd (d : Dev) (n : Nat) (g : Fld) (k : Nat) : ((d.drawBytes n).2).rd g k = d.rd g k := by
  simp only [Dev.rd, Dev.drawBytes_regs]
@[simp] theorem Dev.drawBytes_now (d : Dev) (n : Nat) : ((d.drawBytes n).2).now = d.now := by simp only [Dev.now, Dev.drawBytes_sys]
@[simp] theorem Dev.drawBytes_core (d : Dev) (n : Nat) (c : Nat) : ((d.drawBytes n).2).core c = d.core c := by
  simp only [Dev.core, Dev.drawBytes_cor]

/-! ## tick -/
@[simp] theorem Dev.tick_regs (d : Dev) : (d.tick).regs = d.regs := rfl
@[simp] theorem Dev.tick_ram (d : Dev) : (d.tick).ram = d.ram := rfl
@[simp] theorem Dev.tick_pol (d : Dev) : (d.tick).pol = d.pol := rfl
@[simp] theorem Dev.tick_ev (d : Dev) : (d.tick).ev = d.ev := rfl
@[simp] theorem Dev.tick_mem (d : Dev) : (d.tick).mem = d.mem := rfl
@[simp] theorem Dev.tick_eft (d : Dev) : (d.tick).eft = d.eft := rfl
@[simp] theorem Dev.tick_cor (d : Dev) : (d.tick).cor = d.cor := rfl
@[simp] theorem Dev.tick_gk (d : Dev) : (d.tick).gk = d.gk := rfl
@[simp] theorem Dev.tick_chk (d : Dev) : (d.tick).chk = d.chk := rfl
@[simp] theorem Dev.tick_img (d : Dev) : (d.tick).img = d.img := rfl
@[simp] theorem Dev.tick_cap (d : Dev) : (d.tick).cap = d.cap := rfl
@[simp] theorem Dev.tick_cdc (d : Dev) : (d.tick).cdc = d.cdc := rfl
@[simp] theorem Dev.tick_fls (d : Dev) : (d.tick).fls = d.fls := rfl
@[simp] theorem Dev.tick_dur (d : Dev) : (d.tick).dur = d.dur := rfl
@[simp] theorem Dev.tick_hq (d : Dev) : (d.tick).hq = d.hq := rfl
@[simp] theorem Dev.tick_shr (d : Dev) : (d.tick).shr = d.shr := rfl
@[simp] theorem Dev.tick_ins (d : Dev) : (d.tick).ins = d.ins := rfl
@[simp] theorem Dev.tick_mgt (d : Dev) : (d.tick).mgt = d.mgt := rfl
@[simp] theorem Dev.tick_avl (d : Dev) : (d.tick).avl = d.avl := rfl
@[simp] theorem Dev.tick_out (d : Dev) : (d.tick).out = d.out := rfl
@[simp] theorem Dev.tick_free (d : Dev) : (d.tick).free = d.free := rfl
@[simp] theorem Dev.tick_rd (d : Dev) (g : Fld) (k : Nat) : (d.tick).rd g k = d.rd g k := by
  simp only [Dev.rd, Dev.tick_regs]
@[simp] theorem Dev.tick_core (d : Dev) (c : Nat) : (d.tick).core c = d.core c := by
  simp only [Dev.core, Dev.tick_cor]

/-! ## writeByte -/
@[simp] theorem Dev.writeByte_regs (d : Dev) (a : Nat) (b : Byte) : (d.writeByte a b).regs = d.regs := rfl
@[simp] theorem Dev.writeByte_sys (d : Dev) (a : Nat) (b : Byte) : (d.writeByte a b).sys = d.sys := rfl
@[simp] theorem Dev.writeByte_pol (d : Dev) (a : Nat) (b : Byte) : (d.writeByte a b).pol = d.pol := rfl
@[simp] theorem Dev.writeByte_ev (d : Dev) (a : Nat) (b : Byte) : (d.writeByte a b).ev = d.ev := rfl
@[simp] theorem Dev.writeByte_mem (d : Dev) (a : Nat) (b : Byte) : (d.writeByte a b).mem = d.mem := rfl
@[simp] theorem Dev.writeByte_eft (d : Dev) (a : Nat) (b : Byte) : (d.writeByte a b).eft = d.eft := rfl
@[simp] theorem Dev.writeByte_cor (d : Dev) (a : Nat) (b : Byte) : (d.writeByte a b).cor = d.cor := rfl
@[simp] theorem Dev.writeByte_gk (d : Dev) (a : Nat) (b : Byte) : (d.writeByte a b).gk = d.gk := rfl
@[simp] theorem Dev.writeByte_chk (d : Dev) (a : Nat) (b : Byte) : (d.writeByte a b).chk = d.chk := rfl
@[simp] theorem Dev.writeByte_img (d : Dev) (a : Nat) (b : Byte) : (d.writeByte a b).img = d.img := rfl
@[simp] theorem Dev.writeByte_cap (d : Dev) (a : Nat) (b : Byte) : (d.writeByte a b).cap = d.cap := rfl
@[simp] theorem Dev.writeByte_cdc (d : Dev) (a : Nat) (b : Byte) : (d.writeByte a b).cdc = d.cdc := rfl
@[simp] theorem Dev.writeByte_fls (d : Dev) (a : Nat) (b : Byte) : (d.writeByte a b).fls = d.fls := rfl
@[simp] theorem Dev.writeByte_dur (d : Dev) (a : Nat) (b : Byte) : (d.writeByte a b).dur = d.dur := rfl
@[simp] theorem Dev.writeByte_hq (d : Dev) (a : Nat) (b : Byte) : (d.writeByte a b).hq = d.hq := rfl
@[simp] theorem Dev.writeByte_shr (d : Dev) (a : Nat) (b : Byte) : (d.writeByte a b).shr = d.shr := rfl
@[simp] theorem Dev.writeByte_ins (d : Dev) (a : Nat) (b : Byte) : (d.writeByte a b).ins = d.ins := rfl
@[simp] theorem Dev.writeByte_mgt (d : Dev) (a : Nat) (b : Byte) : (d.writeByte a b).mgt = d.mgt := rfl
@[simp] theorem Dev.writeByte_avl (d : Dev) (a : Nat) (b : Byte) : (d.writeByte a b).avl = d.avl := rfl
@[simp] theorem Dev.writeByte_out (d : Dev) (a : Nat) (b : Byte) : (d.writeByte a b).out = d.out := rfl
@[simp] theorem Dev.writeByte_free (d : Dev) (a : Nat) (b : Byte) : (d.writeByte a b).free = d.free := rfl
@[simp] theorem Dev.writeByte_rd (d : Dev) (a : Nat) (b : Byte) (g : Fld) (k : Nat) : (d.writeByte a b).rd g k = d.rd g k := by
  simp only [Dev.rd, Dev.writeByte_regs]
@[simp] theorem Dev.writeByte_now (d : Dev) (a : Nat) (b : Byte) : (d.writeByte a b).now = d.now := by simp only [Dev.now, Dev.writeByte_sys]
@[simp] theorem Dev.writeByte_core (d : Dev) (a : Nat) (b : Byte) (c : Nat) : (d.writeByte a b).core c = d.core c := by
  simp only [Dev.core, Dev.writeByte_cor]

/-! ## writeMem -/
@[simp] theorem Dev.writeMem_regs (d : Dev) (a : Nat) (bs : List Byte) : (d.writeMem a bs).regs = d.regs := rfl
@[simp] theorem Dev.writeMem_sys (d : Dev) (a : Nat) (bs : List Byte) : (d.writeMem a bs).sys = d.sys := rfl
@[simp] theorem Dev.writeMem_pol (d : Dev) (a : Nat) (bs : List Byte) : (d.writeMem a bs).pol = d.pol := rfl
@[simp] theorem Dev.writeMem_ev (d : Dev) (a : Nat) (bs : List Byte) : (d.writeMem a bs).ev = d.ev := rfl
@[simp] theorem Dev.writeMem_mem (d : Dev) (a : Nat) (bs : List Byte) : (d.writeMem a bs).mem = d.mem := rfl
@[simp] theorem Dev.writeMem_eft (d : Dev) (a : Nat) (bs : List Byte) : (d.writeMem a bs).eft = d.eft := rfl
@[simp] theorem Dev.writeMem_cor (d : Dev) (a : Nat) (bs : List Byte) : (d.writeMem a bs).cor = d.cor := rfl
@[simp] theorem Dev.writeMem_gk (d : Dev) (a : Nat) (bs : List Byte) : (d.writeMem a bs).gk = d.gk := rfl
@[simp] theorem Dev.writeMem_chk (d : Dev) (a : Nat) (bs : List Byte) : (d.writeMem a bs).chk = d.chk := rfl
@[simp] theorem Dev.writeMem_img (d : Dev) (a : Nat) (bs : List Byte) : (d.writeMem a bs).img = d.img := rfl
@[simp] theorem Dev.writeMem_cap (d : Dev) (a : Nat) (bs : List Byte) : (d.writeMem a bs).cap = d.cap := rfl
@[simp] theorem Dev.writeMem_cdc (d : Dev) (a : Nat) (bs : List Byte) : (d.writeMem a bs).cdc = d.cdc := rfl
@[simp] theorem Dev.writeMem_fls (d : Dev) (a : Nat) (bs : List Byte) : (d.writeMem a bs).fls = d.fls := rfl
@[simp] theorem Dev.writeMem_dur (d : Dev) (a : Nat) (bs : List Byte) : (d.writeMem a bs).dur = d.dur := rfl
@[simp] theorem Dev.writeMem_hq (d : Dev) (a : Nat) (bs : List Byte) : (d.writeMem a bs).hq = d.hq := rfl
@[simp] theorem Dev.writeMem_shr (d : Dev) (a : Nat) (bs : List Byte) : (d.writeMem a bs).shr = d.shr := rfl
@[simp] theorem Dev.writeMem_ins (d : Dev) (a : Nat) (bs : List Byte) : (d.writeMem a bs).ins = d.ins := rfl
@[simp] theorem Dev.writeMem_mgt (d : Dev) (a : Nat) (bs : List Byte) : (d.writeMem a bs).mgt = d.mgt := rfl
@[simp] theorem Dev.writeMem_avl (d : Dev) (a : Nat) (bs : List Byte) : (d.writeMem a bs).avl = d.avl := rfl
@[simp] theorem Dev.writeMem_out (d : Dev) (a : Nat) (bs : List Byte) : (d.writeMem a bs).out = d.out := rfl
@[simp] theorem Dev.writeMem_free (d : Dev) (a : Nat) (bs : List Byte) : (d.writeMem a bs).free = d.free := rfl
@[simp] theorem Dev.writeMem_rd (d : Dev) (a : Nat) (bs : List Byte) (g : Fld) (k : Nat) : (d.writeMem a bs).rd g k = d.rd g k := by
  simp only [Dev.rd, Dev.writeMem_regs]
@[simp] theorem Dev.writeMem_now (d : Dev) (a : Nat) (bs : List Byte) : (d.writeMem a bs).now = d.now := by simp only [Dev.now, Dev.writeMem_sys]
@[simp] theorem Dev.writeMem_core (d : Dev) (a : Nat) (bs : List Byte) (c : Nat) : (d.writeMem a bs).core c = d.core c := by
  simp only [Dev.core, Dev.writeMem_cor]

/-! ## zeroMem -/
@[simp] theorem Dev.zeroMem_regs (d : Dev) (a n : Nat) : (d.zeroMem a n).regs = d.regs := rfl
@[simp] theorem Dev.zeroMem_sys (d : Dev) (a n : Nat) : (d.zeroMem a n).sys = d.sys := rfl
@[simp] theorem Dev.zeroMem_pol (d : Dev) (a n : Nat) : (d.zeroMem a n).pol = d.pol := rfl
@[simp] theorem Dev.zeroMem_ev (d : Dev) (a n : Nat) : (d.zeroMem a n).ev = d.ev := rfl
@[simp] theorem Dev.zeroMem_mem (d : Dev) (a n : Nat) : (d.zeroMem a n).mem = d.mem := rfl
@[simp] theorem Dev.zeroMem_eft (d : Dev) (a n : Nat) : (d.zeroMem a n).eft = d.eft := rfl
@[simp] theorem Dev.zeroMem_cor (d : Dev) (a n : Nat) : (d.zeroMem a n).cor = d.cor := rfl
@[simp] theorem Dev.zeroMem_gk (d : Dev) (a n : Nat) : (d.zeroMem a n).gk = d.gk := rfl
@[simp] theorem Dev.zeroMem_chk (d : Dev) (a n : Nat) : (d.zeroMem a n).chk = d.chk := rfl
@[simp] theorem Dev.zeroMem_img (d : Dev) (a n : Nat) : (d.zeroMem a n).img = d.img := rfl
@[simp] theorem Dev.zeroMem_cap (d : Dev) (a n : Nat) : (d.zeroMem a n).cap = d.cap := rfl
@[simp] theorem Dev.zeroMem_cdc (d : Dev) (a n : Nat) : (d.zeroMem a n).cdc = d.cdc := rfl
@[simp] theorem Dev.zeroMem_fls (d : Dev) (a n : Nat) : (d.zeroMem a n).fls = d.fls := rfl
@[simp] theorem Dev.zeroMem_dur (d : Dev) (a n : Nat) : (d.zeroMem a n).dur = d.dur := rfl
@[simp] theorem Dev.zeroMem_hq (d : Dev) (a n : Nat) : (d.zeroMem a n).hq = d.hq := rfl
@[simp] theorem Dev.zeroMem_shr (d : Dev) (a n : Nat) : (d.zeroMem a n).shr = d.shr := rfl
@[simp] theorem Dev.zeroMem_ins (d : Dev) (a n : Nat) : (d.zeroMem a n).ins = d.ins := rfl
@[simp] theorem Dev.zeroMem_mgt (d : Dev) (a n : Nat) : (d.zeroMem a n).mgt = d.mgt := rfl
@[simp] theorem Dev.zeroMem_avl (d : Dev) (a n : Nat) : (d.zeroMem a n).avl = d.avl := rfl
@[simp] theorem Dev.zeroMem_out (d : Dev) (a n : Nat) : (d.zeroMem a n).out = d.out := rfl
@[simp] theorem Dev.zeroMem_free (d : Dev) (a n : Nat) : (d.zeroMem a n).free = d.free := rfl
@[simp] theorem Dev.zeroMem_rd (d : Dev) (a n : Nat) (g : Fld) (k : Nat) : (d.zeroMem a n).rd g k = d.rd g k := by
  simp only [Dev.rd, Dev.zeroMem_regs]
@[simp] theorem Dev.zeroMem_now (d : Dev) (a n : Nat) : (d.zeroMem a n).now = d.now := by simp only [Dev.now, Dev.zeroMem_sys]
@[simp] theorem Dev.zeroMem_core (d : Dev) (a n : Nat) (c : Nat) : (d.zeroMem a n).core c = d.core c := by
  simp only [Dev.core, Dev.zeroMem_cor]

/-! ## yieldAt -/
@[simp] theorem Dev.yieldAt_ram (d : Dev) (n p : Nat) : (d.yieldAt n p).ram = d.ram := rfl
@[simp] theorem Dev.yieldAt_sys (d : Dev) (n p : Nat) : (d.yieldAt n p).sys = d.sys := rfl
@[simp] theorem Dev.yieldAt_pol (d : Dev) (n p : Nat) : (d.yieldAt n p).pol = d.pol := rfl
@[simp] theorem Dev.yieldAt_mem (d : Dev) (n p : Nat) : (d.yieldAt n p).mem = d.mem := rfl
@[simp] theorem Dev.yieldAt_eft (d : Dev) (n p : Nat) : (d.yieldAt n p).eft = d.eft := rfl
@[simp] theorem Dev.yieldAt_cor (d : Dev) (n p : Nat) : (d.yieldAt n p).cor = d.cor := rfl
@[simp] theorem Dev.yieldAt_gk (d : Dev) (n p : Nat) : (d.yieldAt n p).gk = d.gk := rfl
@[simp] theorem Dev.yieldAt_chk (d : Dev) (n p : Nat) : (d.yieldAt n p).chk = d.chk := rfl
@[simp] theorem Dev.yieldAt_img (d : Dev) (n p : Nat) : (d.yieldAt n p).img = d.img := rfl
@[simp] theorem Dev.yieldAt_cap (d : Dev) (n p : Nat) : (d.yieldAt n p).cap = d.cap := rfl
@[simp] theorem Dev.yieldAt_cdc (d : Dev) (n p : Nat) : (d.yieldAt n p).cdc = d.cdc := rfl
@[simp] theorem Dev.yieldAt_fls (d : Dev) (n p : Nat) : (d.yieldAt n p).fls = d.fls := rfl
@[simp] theorem Dev.yieldAt_dur (d : Dev) (n p : Nat) : (d.yieldAt n p).dur = d.dur := rfl
@[simp] theorem Dev.yieldAt_hq (d : Dev) (n p : Nat) : (d.yieldAt n p).hq = d.hq := rfl
@[simp] theorem Dev.yieldAt_shr (d : Dev) (n p : Nat) : (d.yieldAt n p).shr = d.shr := rfl
@[simp] theorem Dev.yieldAt_ins (d : Dev) (n p : Nat) : (d.yieldAt n p).ins = d.ins := rfl
@[simp] theorem Dev.yieldAt_mgt (d : Dev) (n p : Nat) : (d.yieldAt n p).mgt = d.mgt := rfl
@[simp] theorem Dev.yieldAt_avl (d : Dev) (n p : Nat) : (d.yieldAt n p).avl = d.avl := rfl
@[simp] theorem Dev.yieldAt_out (d : Dev) (n p : Nat) : (d.yieldAt n p).out = d.out := rfl
@[simp] theorem Dev.yieldAt_free (d : Dev) (n p : Nat) : (d.yieldAt n p).free = d.free := rfl
@[simp] theorem Dev.yieldAt_now (d : Dev) (n p : Nat) : (d.yieldAt n p).now = d.now := by simp only [Dev.now, Dev.yieldAt_sys]
@[simp] theorem Dev.yieldAt_core (d : Dev) (n p : Nat) (c : Nat) : (d.yieldAt n p).core c = d.core c := by
  simp only [Dev.core, Dev.yieldAt_cor]

/-! ## setCore -/
@[simp] theorem Dev.setCore_regs (d : Dev) (c : Nat) (x : PCore) : (d.setCore c x).regs = d.regs := rfl
@[simp] theorem Dev.setCore_ram (d : Dev) (c : Nat) (x : PCore) : (d.setCore c x).ram = d.ram := rfl
@[simp] theorem Dev.setCore_sys (d : Dev) (c : Nat) (x : PCore) : (d.setCore c x).sys = d.sys := rfl
@[simp] theorem Dev.setCore_pol (d : Dev) (c : Nat) (x : PCore) : (d.setCore c x).pol = d.pol := rfl
@[simp] theorem Dev.setCore_ev (d : Dev) (c : Nat) (x : PCore) : (d.setCore c x).ev = d.ev := rfl
@[simp] theorem Dev.setCore_mem (d : Dev) (c : Nat) (x : PCore) : (d.setCore c x).mem = d.mem := rfl
@[simp] theorem Dev.setCore_eft (d : Dev) (c : Nat) (x : PCore) : (d.setCore c x).eft = d.eft := rfl
@[simp] theorem Dev.setCore_gk (d : Dev) (c : Nat) (x : PCore) : (d.setCore c x).gk = d.gk := rfl
@[simp] theorem Dev.setCore_chk (d : Dev) (c : Nat) (x : PCore) : (d.setCore c x).chk = d.chk := rfl
@[simp] theorem Dev.setCore_img (d : Dev) (c : Nat) (x : PCore) : (d.setCore c x).img = d.img := rfl
@[simp] theorem Dev.setCore_cap (d : Dev) (c : Nat) (x : PCore) : (d.setCore c x).cap = d.cap := rfl
@[simp] theorem Dev.setCore_cdc (d : Dev) (c : Nat) (x : PCore) : (d.setCore c x).cdc = d.cdc := rfl
@[simp] theorem Dev.setCore_fls (d : Dev) (c : Nat) (x : PCore) : (d.setCore c x).fls = d.fls := rfl
@[simp] theorem Dev.setCore_dur (d : Dev) (c : Nat) (x : PCore) : (d.setCore c x).dur = d.dur := rfl
@[simp] theorem Dev.setCore_hq (d : Dev) (c : Nat) (x : PCore) : (d.setCore c x).hq = d.hq := rfl
@[simp] theorem Dev.setCore_shr (d : Dev) (c : Nat) (x : PCore) : (d.setCore c x).shr = d.shr := rfl
@[simp] theorem Dev.setCore_ins (d : Dev) (c : Nat) (x : PCore) : (d.setCore c x).ins = d.ins := rfl
@[simp] theorem Dev.setCore_mgt (d : Dev) (c : Nat) (x : PCore) : (d.setCore c x).mgt = d.mgt := rfl
@[simp] theorem Dev.setCore_avl (d : Dev) (c : Nat) (x : PCore) : (d.setCore c x).avl = d.avl := rfl
@[simp] theorem Dev.setCore_out (d : Dev) (c : Nat) (x : PCore) : (d.setCore c x).out = d.out := rfl
@[simp] theorem Dev.setCore_free (d : Dev) (c : Nat) (x : PCore) : (d.setCore c x).free = d.free := rfl
@[simp] theorem Dev.setCore_rd (d : Dev) (c : Nat) (x : PCore) (g : Fld) (k : Nat) : (d.setCore c x).rd g k = d.rd g k := by
  simp only [Dev.rd, Dev.setCore_regs]
@[simp] theorem Dev.setCore_now (d : Dev) (c : Nat) (x : PCore) : (d.setCore c x).now = d.now := by simp only [Dev.now, Dev.setCore_sys]

/-! ## The register file -/

theorem Fld.ctorIdx_lt (f : Fld) : f.ctorIdx < 1024 := by cases f <;> decide

theorem Fld.ctorIdx_inj {f g : Fld} (h : f.ctorIdx = g.ctorIdx) : f = g := by
  rw [← Fld.ofNat_ctorIdx f, ← Fld.ofNat_ctorIdx g, h]

/-- Two fields at two indices have one key only where both are the same. -/
theorem fkey_inj {f g : Fld} {i j : Nat} (h : fkey f i = fkey g j) : f = g ∧ i = j := by
  have hf := f.ctorIdx_lt
  have hg := g.ctorIdx_lt
  unfold fkey at h
  exact ⟨Fld.ctorIdx_inj (by omega), by omega⟩

/-- A read after a write of a field: the value, cut to the field's width; every other field is as before. -/
theorem Dev.rd_wr (d : Dev) (f g : Fld) (v i j : Nat) :
    (d.wr g v j).rd f i = if f = g ∧ i = j then v % 2 ^ g.width else d.rd f i := by
  unfold Dev.rd Dev.wr
  by_cases h : f = g ∧ i = j
  · obtain ⟨rfl, rfl⟩ := h
    simp
  · have hk : fkey f i ≠ fkey g j := fun e => h (fkey_inj e)
    rw [if_neg h]
    by_cases hr : fkey f i = fkey g j
    · exact absurd hr hk
    · show amGet (f.reset i) (fkey f i) (amSet (g.reset j) (fkey g j) (v % 2 ^ g.width) d.regs) = _
      unfold amSet
      split <;> simp [amGet_amIns, amGet_amDel, hk]

@[simp] theorem Dev.rd_wr_same (d : Dev) (f : Fld) (v i : Nat) : (d.wr f v i).rd f i = v % 2 ^ f.width := by
  simp [Dev.rd_wr]

theorem Dev.rd_wr_fld (d : Dev) {f g : Fld} (h : f ≠ g) (v i j : Nat) : (d.wr g v j).rd f i = d.rd f i := by
  simp [Dev.rd_wr, h]

theorem Dev.rd_wr_idx (d : Dev) (f : Fld) {i j : Nat} (h : i ≠ j) (v : Nat) : (d.wr f v j).rd f i = d.rd f i := by
  simp [Dev.rd_wr, h]

/-- A read after a count. -/
theorem Dev.rd_cnt (d : Dev) (f g : Fld) (i j n : Nat) :
    (d.cnt g j n).rd f i =
      if f = g ∧ i = j then satAdd (2 ^ g.width - 1) (d.rd g j) n % 2 ^ g.width else d.rd f i := by
  simp only [Dev.cnt, Dev.rd_wr]

/-! ## Cores -/

/-- A core as it was set; the others as they were. -/
theorem Dev.core_setCore (d : Dev) (c k : Nat) (x : PCore) :
    (d.setCore c x).core k = if k = c then x else d.core k := by
  unfold Dev.core Dev.setCore; exact amGet_amSet ..

@[simp] theorem Dev.core_setCore_same (d : Dev) (c : Nat) (x : PCore) : (d.setCore c x).core c = x := by
  simp [Dev.core_setCore]

/-! ## Device memory -/

/-- A byte after a write of one byte. -/
theorem Dev.readByte_writeByte (d : Dev) (a k : Nat) (b : Byte) :
    (d.writeByte a b).readByte k = if k = a then b else d.readByte k := by
  unfold Dev.readByte Dev.writeByte; exact amGet_amSet ..

/-- A byte after a write of many: those written, and what was there. -/
theorem Dev.readByte_writeMem (d : Dev) (a k : Nat) (bs : List Byte) :
    (d.writeMem a bs).readByte k = if a ≤ k ∧ k < a + bs.length then bs.getD (k - a) 0 else d.readByte k := by
  unfold Dev.readByte Dev.writeMem; exact amGet_amSetRange ..

/-- A byte after a range is zeroed. -/
theorem Dev.readByte_zeroMem (d : Dev) (a n k : Nat) :
    (d.zeroMem a n).readByte k = if a ≤ k ∧ k < a + n then memDefault else d.readByte k := by
  unfold Dev.readByte Dev.zeroMem
  rw [amGet_filter memDefault k (fun i => decide (i < a ∨ a + n ≤ i))]
  by_cases h : a ≤ k ∧ k < a + n
  · have : ¬ (k < a ∨ a + n ≤ k) := by omega
    simp [h, this]
  · have : k < a ∨ a + n ≤ k := by omega
    simp [h, this]

theorem Memory.wf_writeByte (d : Dev) (a : Nat) (b : Byte) (h : Memory.wf d.ram) : Memory.wf (d.writeByte a b).ram :=
  amWf_amSet _ _ _ _ h

theorem Memory.wf_writeMem (d : Dev) (a : Nat) (bs : List Byte) (h : Memory.wf d.ram) : Memory.wf (d.writeMem a bs).ram :=
  amWf_amSetRange _ _ _ _ h

theorem Memory.wf_zeroMem (d : Dev) (a n : Nat) (h : Memory.wf d.ram) : Memory.wf (d.zeroMem a n).ram :=
  amWf_filter _ _ _ h

theorem Memory.wf_writeLive (bs : List Byte) : ∀ (d : Dev) (a : Nat), Memory.wf d.ram → Memory.wf (d.writeLive a bs).ram := by
  induction bs with
  | nil => exact fun _ _ h => h
  | cons b bs ih =>
    intro d a h
    unfold Dev.writeLive
    apply ih
    split
    · exact h
    · exact Memory.wf_writeByte d a b h

theorem Dev.healLines_ram (d : Dev) (a n : Nat) : (d.healLines a n).ram = d.ram := by
  unfold Dev.healLines; dsimp only; split <;> rfl

/-- The store of the memory controller keeps the canonical form. -/
theorem Memory.wf_store (d : Dev) (a : Nat) (bs : List Byte) (h : Memory.wf d.ram) : Memory.wf (d.store a bs).ram := by
  unfold Dev.store
  rw [Dev.healLines_ram]
  split
  · exact Memory.wf_writeMem d a bs h
  · exact Memory.wf_writeLive bs d a h

/-- Reset memory lists nothing. -/
theorem Memory.wf_reset : Memory.wf State.reset.dev.ram = true := rfl

/-! ## The queue -/

@[simp] theorem onDev_pending (s : State) (f : Dev → Dev) : (onDev s f).pending = s.pending := rfl
@[simp] theorem onDev_dev (s : State) (f : Dev → Dev) : (onDev s f).dev = f s.dev := rfl

/-- A lookup after an entry that exists is changed. -/
theorem amFind_amAdj {α : Type} (m n : Nat) (g : α → α) (t : AMap α) :
    amFind m (amAdj n g t) = if m = n then (amFind m t).map g else amFind m t := by
  induction t with
  | nil => simp [amAdj, amFind]
  | cons p t ih =>
    obtain ⟨i, v⟩ := p
    simp only [amAdj, List.map_cons, amFind] at ih ⊢
    by_cases h : i = n <;> by_cases h2 : i = m <;> (try subst h) <;> (try subst h2) <;> simp_all [eq_comm]

/-- A raised event is the newest record of the queue. -/
theorem Dev.newest_raiseI (d : Dev) (n c : Nat) (fs : List (Nat × Nat)) :
    (d.raiseI n c fs).ev.queue.getLast? = some ⟨d.now, d.ev.next, c, severity c, n, packData fs⟩ := by
  simp only [Dev.raiseI, Dev.record, keepLast]
  split <;> (rw [List.getLast?_drop]; simp)


end Sys2Proof.Machine
end

