-- ==== Sys2Proof/Laws/Does.lean ====
section
/-! SUPPORT. How a claim that a command completes follows from its effect on the device. -/
namespace Sys2Proof.Machine

/-- A command whose meaning is an effect `f` on the device does what `f` gives. -/
theorem Does.of {c : Instr} {s : State} {f e : Dev} (h : exec c s = .next { s with dev := f }) (he : f = e) : Does c s e := by
  subst he; exact h

/-- The same, for a property of the device. -/
theorem Ends.of {c : Instr} {s : State} {f : Dev} {P : Dev → Prop} (h : exec c s = .next { s with dev := f }) (hp : P f) :
    Ends c s P := ⟨f, h, hp⟩

/-- What every element of a fold keeps, the fold keeps. -/
theorem foldl_keep {α β γ : Type} (P : α → γ) (g : α → β → α) (h : ∀ d x, P (g d x) = P d) (l : List β) :
    ∀ d, P (l.foldl g d) = P d := by
  induction l with
  | nil => intro d; rfl
  | cons a l ih => intro d; rw [List.foldl_cons, ih, h]

/-- Register reads see only the register file. -/
theorem Dev.rd_congr {d e : Dev} (h : e.regs = d.regs) (f : Fld) (i : Nat) : e.rd f i = d.rd f i := by
  unfold Dev.rd; rw [h]

/-- The newest record after an event is that event. -/
theorem Dev.logged_raiseI (d : Dev) (n c : Nat) (fs : List (Nat × Nat)) : (d.raiseI n c fs).logged c n (packData fs) :=
  ⟨_, _, Dev.newest_raiseI d n c fs⟩

theorem Dev.logged_raise (d : Dev) (c : Nat) (fs : List (Nat × Nat)) : (d.raise c fs).logged c 0 (packData fs) :=
  Dev.logged_raiseI d 0 c fs

/-- A command that is ready is run by its row. -/
theorem Dev.onCmd_ready {d : Dev} {h : Nat} {admin : Bool} {op stage : Nat} {c : HCmd} (r : d.ready h admin op stage c)
    (f : HCmd → Dev) : d.onCmd h admin op stage f = f c := by
  obtain ⟨h1, h2, h3, h4, h5, h6, h7⟩ := r
  have : ¬ c.stage < stage := by omega
  simp [Dev.onCmd, h1, h2, h3, this, h5, h6, h7]

theorem Dev.onNs_ready {d : Dev} {h op stage : Nat} {c : HCmd} {x : Namespace} (r : d.readyNs h op stage c x)
    (f : HCmd → Namespace → Dev) : d.onNs h op stage f = f c x := by
  obtain ⟨h1, h2, h3⟩ := r
  rw [Dev.onNs, Dev.onCmd_ready h1, h2]
  exact if_neg (by omega)

theorem Dev.onAdmin_ready {d : Dev} {h op : Nat} {c : HCmd} {k : Ctrl} (r : d.readyAdmin h op c k)
    (f : HCmd → Ctrl → Dev) : d.onAdmin h op f = f c k := by
  rw [Dev.onAdmin, Dev.onCmd_ready r.1, r.2]

/-- A request that is asked runs and is answered. -/
theorem Dev.short_asks {d : Dev} {via : Via} {msg b : List Byte} {type : Nat} (h : d.asks via msg type b)
    (run : Dev → List Byte → Dev × Reply) :
    d.short via msg type run = (run (d.submit via) b).1.answerReq via msg (run (d.submit via) b).2 := by
  obtain ⟨h1, h2, h3, h4, h5, h6⟩ := h
  have hm : (d.submit via).mgt.replay = d.mgt.replay := by cases via <;> rfl
  have hr : (d.submit via).refusal msg = d.refusal msg := by cases via <;> rfl
  simp [Dev.short, Dev.request, h1, h2, h3, h4, hm, h5, hr, h6]

/-- A long request that is asked and passes its check begins, and then its operation runs. -/
theorem Dev.long_asks {d : Dev} {via : Via} {msg b : List Byte} {type : Nat} (h : d.asksLong via msg type b)
    (mine : List Byte → Bool) (check : Dev → List Byte → Nat) (go : Dev → Nat → List Byte → Dev) (hm : mine b = true)
    (hc : check (d.submit via) b = 0) :
    d.long via msg type mine check go = go (d.begins via msg type) (d.opOf via type) b := by
  obtain ⟨⟨h1, h2, h3, h4, h5, h6⟩, h7⟩ := h
  have hp : (d.submit via).mgt.replay = d.mgt.replay := by cases via <;> rfl
  have hr : (d.submit via).refusal msg = d.refusal msg := by cases via <;> rfl
  simp [Dev.long, Dev.request, h1, h2, h3, h4, hp, h5, hr, h6, h7, hm, hc, Dev.begins, Dev.opOf]

end Sys2Proof.Machine
end

