-- ==== Sys2Proof/Laws/Pypoiz.lean ====
section
/-! SUPPORT. How a bundle of one syllable executes. -/
namespace Sys2Proof.Machine

/-! ## Legality, syllable by syllable (R283, R296, R303, R314) -/

section
variable (x : PCore) (alone b i : Bool)
theorem sylLegal_cmp (cond pd ra rb) : x.sylLegal alone (.cmp b cond pd ra rb) = (decide (cond.toNat < 6) && pd != 0) := rfl
theorem sylLegal_cmpi (cond pd ra n) : x.sylLegal alone (.cmpi b cond pd ra n) = (decide (cond.toNat < 6) && pd != 0) := rfl
theorem sylLegal_plog (fn pd pa pb) : x.sylLegal alone (.plog b fn pd pa pb) = (decide (fn.toNat < 4) && pd != 0) := rfl
theorem sylLegal_unary (fn rd ra) : x.sylLegal alone (.unary b fn rd ra) = decide (fn.toNat < 8) := rfl
theorem sylLegal_mfs (rd s) : x.sylLegal alone (.mfs b rd s) = decide (s.toNat < 6) := rfl
theorem sylLegal_mts (s ra) : x.sylLegal alone (.mts b s ra) = (decide (s.toNat < 6) && s != 4) := rfl
theorem sylLegal_br (p n off) : x.sylLegal alone (.br p n off) = !(p == 0 && n == 1) := rfl
theorem sylLegal_fence (fn) : x.sylLegal alone (.fence fn) = decide (fn.toNat < 4) := rfl
theorem sylLegal_rep (ra) : x.sylLegal alone (.rep i ra) =
    (alone && (if i then decide ((x.gr ra).toNat ≤ 65535) else decide ((x.gr ra).toNat ≤ 64))) := rfl
theorem sylLegal_repc (n) : x.sylLegal alone (.repc i n) = (alone && (i || decide (n.toNat ≤ 64))) := rfl
theorem sylLegal_wfe (rd) : x.sylLegal alone (.wfe rd) = (alone && !(x.evm == 0 && !x.ie)) := rfl
theorem sylLegal_waitt (rd ra) : x.sylLegal alone (.waitt rd ra) = (alone && !(x.evm == 0 && !x.ie)) := rfl
theorem sylLegal_endw : x.sylLegal alone .endw = !x.exc := rfl
theorem sylLegal_vsh (op vd va ew n) : x.sylLegal alone (.vsh op vd va ew n) = decide (n.toNat < ewBits ew) := rfl
theorem sylLegal_vget (g v ew k) : x.sylLegal alone (.vget g v ew k) = decide (k.toNat < 256 / ewBits ew) := rfl
theorem sylLegal_vunp (vd va m k) : x.sylLegal alone (.vunp vd va m k) = (k != 3) := rfl
end

/-! ## The stages of a control syllable -/

section
variable (x z : PCore) (d : Dev) (c b next now val : Nat)
theorem apply_br (p : BitVec 3) (n : BitVec 1) (off : BitVec 19) : x.apply z b next now val (.br p n off) = z := rfl
theorem storeStage_br (p : BitVec 3) (n : BitVec 1) (off : BitVec 19) : d.storeStage c x val (.br p n off) = d := rfl
theorem eventStage_br (p : BitVec 3) (n : BitVec 1) (off : BitVec 19) : d.eventStage c x (.br p n off) = d := rfl
theorem ends_br (p : BitVec 3) (n : BitVec 1) (off : BitVec 19) : Syl.ends (.br p n off) = false := rfl
theorem storeStage_call (off : BitVec 19) : d.storeStage c x val (.call off) = d := rfl
theorem eventStage_call (off : BitVec 19) : d.eventStage c x (.call off) = d := rfl
theorem ends_call (off : BitVec 19) : Syl.ends (.call off) = false := rfl
theorem apply_jr (ra : BitVec 6) : x.apply z b next now val (.jr ra) = z := rfl
theorem storeStage_jr (ra : BitVec 6) : d.storeStage c x val (.jr ra) = d := rfl
theorem eventStage_jr (ra : BitVec 6) : d.eventStage c x (.jr ra) = d := rfl
theorem ends_jr (ra : BitVec 6) : Syl.ends (.jr ra) = false := rfl
theorem storeStage_jalr (ra : BitVec 6) : d.storeStage c x val (.jalr ra) = d := rfl
theorem eventStage_jalr (ra : BitVec 6) : d.eventStage c x (.jalr ra) = d := rfl
theorem ends_jalr (ra : BitVec 6) : Syl.ends (.jalr ra) = false := rfl
theorem apply_ret : x.apply z b next now val (.ret) = z := rfl
theorem storeStage_ret : d.storeStage c x val (.ret) = d := rfl
theorem eventStage_ret : d.eventStage c x (.ret) = d := rfl
theorem ends_ret : Syl.ends (.ret) = false := rfl
theorem apply_rep (i : Bool) (ra : BitVec 6) : x.apply z b next now val (.rep i ra) = z := rfl
theorem storeStage_rep (i : Bool) (ra : BitVec 6) : d.storeStage c x val (.rep i ra) = d := rfl
theorem eventStage_rep (i : Bool) (ra : BitVec 6) : d.eventStage c x (.rep i ra) = d := rfl
theorem branch_rep (i : Bool) (ra : BitVec 6) : x.branch b (.rep i ra) = none := rfl
theorem ends_rep (i : Bool) (ra : BitVec 6) : Syl.ends (.rep i ra) = true := rfl
theorem apply_repc (i : Bool) (n : BitVec 16) : x.apply z b next now val (.repc i n) = z := rfl
theorem storeStage_repc (i : Bool) (n : BitVec 16) : d.storeStage c x val (.repc i n) = d := rfl
theorem eventStage_repc (i : Bool) (n : BitVec 16) : d.eventStage c x (.repc i n) = d := rfl
theorem branch_repc (i : Bool) (n : BitVec 16) : x.branch b (.repc i n) = none := rfl
theorem ends_repc (i : Bool) (n : BitVec 16) : Syl.ends (.repc i n) = true := rfl
theorem apply_wfe (rd : BitVec 6) : x.apply z b next now val (.wfe rd) = z := rfl
theorem storeStage_wfe (rd : BitVec 6) : d.storeStage c x val (.wfe rd) = d := rfl
theorem eventStage_wfe (rd : BitVec 6) : d.eventStage c x (.wfe rd) = d := rfl
theorem branch_wfe (rd : BitVec 6) : x.branch b (.wfe rd) = none := rfl
theorem ends_wfe (rd : BitVec 6) : Syl.ends (.wfe rd) = true := rfl
theorem apply_waitt (rd ra : BitVec 6) : x.apply z b next now val (.waitt rd ra) = z := rfl
theorem storeStage_waitt (rd ra : BitVec 6) : d.storeStage c x val (.waitt rd ra) = d := rfl
theorem eventStage_waitt (rd ra : BitVec 6) : d.eventStage c x (.waitt rd ra) = d := rfl
theorem branch_waitt (rd ra : BitVec 6) : x.branch b (.waitt rd ra) = none := rfl
theorem ends_waitt (rd ra : BitVec 6) : Syl.ends (.waitt rd ra) = true := rfl
theorem apply_sev (ra : BitVec 6) : x.apply z b next now val (.sev ra) = z := rfl
theorem storeStage_sev (ra : BitVec 6) : d.storeStage c x val (.sev ra) = d := rfl
theorem branch_sev (ra : BitVec 6) : x.branch b (.sev ra) = none := rfl
theorem ends_sev (ra : BitVec 6) : Syl.ends (.sev ra) = false := rfl
theorem apply_trap (code : BitVec 8) : x.apply z b next now val (.trap code) = z := rfl
theorem storeStage_trap (code : BitVec 8) : d.storeStage c x val (.trap code) = d := rfl
theorem eventStage_trap (code : BitVec 8) : d.eventStage c x (.trap code) = d := rfl
theorem branch_trap (code : BitVec 8) : x.branch b (.trap code) = none := rfl
theorem ends_trap (code : BitVec 8) : Syl.ends (.trap code) = true := rfl
theorem apply_endw : x.apply z b next now val (.endw) = z := rfl
theorem storeStage_endw : d.storeStage c x val (.endw) = d := rfl
theorem eventStage_endw : d.eventStage c x (.endw) = d := rfl
theorem branch_endw : x.branch b (.endw) = none := rfl
theorem ends_endw : Syl.ends (.endw) = true := rfl
theorem apply_fence (fn : BitVec 5) : x.apply z b next now val (.fence fn) = z := rfl
theorem storeStage_fence (fn : BitVec 5) : d.storeStage c x val (.fence fn) = d := rfl
theorem eventStage_fence (fn : BitVec 5) : d.eventStage c x (.fence fn) = d := rfl
theorem branch_fence (fn : BitVec 5) : x.branch b (.fence fn) = none := rfl
theorem ends_fence (fn : BitVec 5) : Syl.ends (.fence fn) = false := rfl
theorem apply_eret : x.apply z b next now val (.eret) = z := rfl
theorem storeStage_eret : d.storeStage c x val (.eret) = d := rfl
theorem eventStage_eret : d.eventStage c x (.eret) = d := rfl
theorem branch_eret : x.branch b (.eret) = none := rfl
theorem ends_eret : Syl.ends (.eret) = true := rfl
end


/-- The word of a syllable that ends its bundle. -/
def lastWord (w : W32) : W32 := w ||| 0x80000000#32

theorem bundleWords_alone (u : Bundle) (w : W32) (h : u.before = []) (k : u.after = []) : bundleWords u w = [lastWord w] := by
  rw [bundleWords, h, k]; rfl

/-- A legal syllable alone in its bundle is no Illegal Instruction. -/
theorem PCore.illegalAt_alone (x : PCore) (y : Syl) (w : W32) (hw : decodeSyl w = some y) (h : x.sylLegal true y = true) :
    x.illegalAt [w] = none := by
  simp [PCore.illegalAt, hw, h, List.range_succ, List.find?]

/-- An illegal syllable alone in its bundle is the one at fault. -/
theorem PCore.illegalAt_bad (x : PCore) (w : W32) (h : ∀ y, decodeSyl w = some y → x.sylLegal true y = false) :
    x.illegalAt [w] = some 0 := by
  cases hw : decodeSyl w with
  | none => simp [PCore.illegalAt, hw, List.range_succ]
  | some y => simp [PCore.illegalAt, hw, h y hw, List.range_succ]

/-- A bundle of one legal syllable: its checks and read, then its registers, its store, its events and its branch. -/
theorem Dev.runBundle_alone (d e : Dev) (c b next v : Nat) (y : Syl) (w : W32) (hw : decodeSyl w = some y)
    (hl : (d.core c).sylLegal true y = true) (hp : d.privFault c y = false) (hm : d.memStage c y = .ok e v) :
    d.runBundle c b next [w] =
      .done (((e.setCore c ((d.core c).apply (e.core c) b next e.now (if y.slot = 2 then v else 0) y)).storeStage c (d.core c)
        (if y.slot = 2 then v else 0) y).eventStage c (d.core c) y) ((d.core c).branch b y) := by
  have hr : List.range 1 = [0] := rfl
  rw [Dev.runBundle]
  simp only [PCore.illegalAt_alone _ _ _ hw hl, hw, List.filterMap, List.length_cons, List.length_nil, Nat.zero_add, hr,
    List.find?, List.getElem?_cons_zero, hp, Dev.memAll, hm, List.findSome?, List.foldl]
  cases h : (d.core c).branch b y <;> rfl

/-- A bundle of one legal syllable that its core is about to execute. -/
theorem Dev.execBundle_alone (d e : Dev) (u : Bundle) (y : Syl) (v : Nat) (upTo : Option Nat) (h : d.about u y)
    (hw : decodeSyl (lastWord (y.encode false)) = some y) (hm : d.memStage u.core y = .ok e v) :
    d.execBundle u (y.encode false) upTo =
      ((((e.setCore u.core ((d.core u.core).apply (e.core u.core) (d.core u.core).pc.toNat ((d.core u.core).pc.toNat + 4) e.now
        (if y.slot = 2 then v else 0) y)).storeStage u.core (d.core u.core) (if y.slot = 2 then v else 0) y).eventStage u.core
        (d.core u.core) y).goOn u.core (d.core u.core) ((d.core u.core).pc.toNat + 4) upTo
        ((d.core u.core).branch (d.core u.core).pc.toNat y) (if y.ends then some y else none)) := by
  unfold Dev.about at h
  obtain ⟨h1, h2, h3, h4, h5, h6, h7⟩ := h
  rw [Dev.execBundle]
  simp only [h4, h5, bundleWords_alone _ _ h1 h2, h3, Bool.not_true, Bool.false_eq_true, if_false, List.length_cons,
    List.length_nil, Nat.zero_add, Nat.mul_one]
  generalize lastWord (y.encode false) = w at hw
  rw [Dev.runBundle_alone d e _ _ _ v y w hw h6 h7 hm]
  have hf : (List.filterMap decodeSyl [w]).find? Syl.ends = if y.ends then some y else none := by
    cases h : y.ends <;> simp [hw, h]
  rw [hf]

/-- A syllable that touches registers only. -/
theorem Computes.of (c : Instr) (u : Bundle) (y : Syl) (f : PCore → PCore)
    (hw : decodeSyl (lastWord (y.encode false)) = some y)
    (he : ∀ s, exec c s = .next (onDev s (fun d => d.execBundle u (y.encode false) none)))
    (hm : ∀ d : Dev, d.memStage u.core y = .ok d 0) (hs : ∀ (d : Dev) x, d.storeStage u.core x 0 y = d)
    (hv : ∀ (d : Dev) x, d.eventStage u.core x y = d) (hy : y.ends = false) (hb : ∀ (x : PCore) b, x.branch b y = none)
    (hf : ∀ (x : PCore) (now : Nat), x.sylLegal true y = true →
      x.apply x x.pc.toNat (x.pc.toNat + 4) now 0 y = f x) : Computes c u y f := by
  intro s h
  have hl := h.2.2.2.2.2.1
  unfold Does
  rw [he, onDev, Dev.execBundle_alone s.dev s.dev u y 0 none h hw (hm _), hy, hb]
  have h0 : (if y.slot = 2 then 0 else 0) = 0 := by split <;> rfl
  rw [h0, hs, hv, hf _ _ hl]
  rfl

end Sys2Proof.Machine
end

