-- ==== Sys2Proof/Tests/Slice0.lean ====
section
/-! SUPPORT. For each obligation with hypotheses, concrete states and operands that meet them, clause by clause, at boundary
values: the statement is applied to them and each hypothesis is evaluated by the kernel. Then the check values and the
syllable words that the spec gives, an ill-formed term for each check of WellFormed, and one step. -/
namespace Sys2Proof.Tests
open Sys2Proof.Machine
set_option Elab.async false

/-- A LANES record: port, WIDTH code, KIND, OWNER, no mirror, MAX_FRAME and FLAGS. -/
def lane (p w kind owner max flags : Nat) : List Byte :=
  leBytes 1 p ++ leBytes 1 w ++ leBytes 2 kind ++ leBytes 1 owner ++ [0xFF#8] ++ leBytes 2 max ++ leBytes 4 flags

/-- The device with the sections given as its active image. -/
def withImage (d : Dev) (secs : List Section) : Dev := { d with img.active := some ⟨1, 0, 1, secs, []⟩ }

/-- A device in Service with a port 0 of two lanes, both adapted, that admits NVMe/TCP and KFSP traffic. -/
def served : Dev :=
  ((((withImage Dev.blank [⟨1, 0, [lane 0 1 0 1 9216 12], [], []⟩]).wr .AVL_STATUS_MODE 2).wr .NET_PORT_STATUS_UP 1 0).setLane 0 0
    true).setLane 0 1 true |>.wr .NET_PORT_STATUS_RUN_WIDTH 1 0

/-- The state in which no further command waits. -/
def alone (d : Dev) : State := ⟨[], d⟩

/-- A flume of the links given. -/
def flume (ls alt : List Nat) : Flume := ⟨true, 0, 0, [(1, 0), (2, 0)], ls, alt, alt != [], false, false, false, false⟩

/-- What a call that says whether it went on left, when it did. -/
theorem went {α : Type} (x : α × Bool) (h : x.2 = true) : x = (x.1, true) := Prod.ext rfl h

theorem triple {α β γ : Type} (x : α × β × γ) : x = (x.1, x.2.1, x.2.2) := rfl

def flumed : Dev := { served with sys.flumes := [(3, flume [7] [8])] }
def poisoned : Dev := { flumed with sys.poisoned := [⟨3, 7, .forward 0⟩] }
theorem witness_FabricAndLanes_fabric (h : Obligations.FabricAndLanes) : True := by
  have := h.1.1 (alone flumed) 3 7 (.forward 0) (flume [7] [8]) (by decide +kernel) (by decide +kernel) (by decide +kernel)
  have := h.1.2.1 (alone poisoned) 3 true ⟨3, 7, .forward 0⟩ [] (by decide +kernel)
  have := h.1.2.2.1 (alone poisoned) 3 true ⟨3, 7, .forward 0⟩ [] (by decide +kernel)
  have := h.1.2.2.2 (alone { served with sys.flumes := [(3, { flume [7] [8] with stopped := true, switchTo := true })] }) 3
    { flume [7] [8] with stopped := true, switchTo := true } (by decide +kernel) rfl rfl (by decide +kernel)
  trivial
theorem witness_FabricAndLanes_lanes (h : Obligations.FabricAndLanes) : True := by
  have := h.2.1 (alone served) 0 1 (by decide +kernel) (by decide +kernel) (by decide +kernel) (by decide +kernel)
  have := h.2.2.1 (alone (served.setLane 0 1 false)) 0 1 (by decide +kernel) (by decide +kernel) (by decide +kernel)
  have := h.2.2.2.1 (alone (served.setLane 0 1 false)) 0 1 2 (by decide +kernel) (by decide +kernel) (by decide +kernel)
    (by decide +kernel) (by decide +kernel) (by decide +kernel)
  have := h.2.2.2.2 (alone (served.wr .NET_PORT_STATUS_RUN_WIDTH 0 0)) 0 (by decide +kernel) (by decide +kernel) (by decide +kernel)
  trivial

/-! ## Registers -/

/-- What an I/O address names for the steward and for register messages. -/
def at_ (a : Nat) : Block × Nat × RegDef × Nat :=
  match resolve 0 a with
  | .reg b c r i => (b, c, r, i)
  | _ => (.sys, 0, ⟨.sys, 0, 0, 0, 0, 0, []⟩, 0)

/-- MEM_TRAIN_CFG with every bit set (a reserved bit, values out of range), HQ_TCP_CFG in Configuration and in Service (RWL
fields), SYS_FABRIC_STATUS (RW1C), and the last field of a core's write. -/
theorem witness_RegisterWrite (h : Obligations.RegisterWrite) : True := by
  have w := fun (d : Dev) (ag : Agent) (a : Nat) (v : W32) => h (alone d) ag (BitVec.ofNat 32 a) v (at_ a).1 (at_ a).2.1
    (at_ a).2.2.1 (at_ a).2.2.2
  have := w served .manager 0x09000010 0xFFFFFFFF#32 ⟨(by decide +kernel), (by decide +kernel)⟩ (by decide +kernel) (by decide +kernel)
  have := w (served.wr .AVL_STATUS_MODE 1) .steward 0x06000008 0xC0080010#32 ⟨(by decide +kernel), (by decide +kernel)⟩ (by decide +kernel) (by decide +kernel)
  have := w served .steward 0x06000008 0xC0080010#32 ⟨(by decide +kernel), (by decide +kernel)⟩ (by decide +kernel) (by decide +kernel)
  have := w (served.wr .SYS_FABRIC_STATUS_POISON_SEEN 1) .manager 0x00000100 1#32 ⟨(by decide +kernel), (by decide +kernel)⟩ (by decide +kernel) (by decide +kernel)
  have := w served (.core 271) 0x0D000018 0x01010001#32 ⟨⟨(by decide +kernel), (by decide +kernel)⟩, (by decide +kernel)⟩ (by decide +kernel) (by decide +kernel)
  trivial

theorem witness_RegisterPairs (h : Obligations.RegisterPairs) : True := by
  let lo := at_ 0x02000020
  let hi := at_ 0x02000024
  let l := Fld.CAP_SW_TRIG_TIME_LO
  let g := Fld.CAP_SW_TRIG_TIME_HI
  let latched : Dev := { served with sys.pairs := [⟨273, l, 0, 7⟩] }
  let held : Dev := { served with sys.held := [⟨273, l, 0, 7⟩] }
  have := (h (alone served) .manager 0x02000020#32 lo.1 lo.2.1 lo.2.2.1 0 l g rfl).1 ⟨(by decide +kernel), (by decide +kernel)⟩ (by decide +kernel)
  have := (h (alone latched) .manager 0x02000024#32 hi.1 hi.2.1 hi.2.2.1 0 l g rfl).2.1 ⟨(by decide +kernel), (by decide +kernel)⟩ (by decide +kernel) |>.1 7 (by decide +kernel)
  have := (h (alone served) .manager 0x02000024#32 hi.1 hi.2.1 hi.2.2.1 0 l g rfl).2.1 ⟨(by decide +kernel), (by decide +kernel)⟩ (by decide +kernel) |>.2 (by decide +kernel)
  have := (h (alone served) .manager 0x02000020#32 lo.1 lo.2.1 lo.2.2.1 0 l g rfl).2.2.1 0xFFFFFFFF#32 ⟨(by decide +kernel), (by decide +kernel)⟩ (by decide +kernel) (by decide +kernel) (by decide +kernel)
  have := (h (alone held) .manager 0x02000024#32 hi.1 hi.2.1 hi.2.2.1 0 l g rfl).2.2.2 0#32 ⟨(by decide +kernel), (by decide +kernel)⟩ (by decide +kernel) (by decide +kernel) (by decide +kernel) (by decide +kernel) |>.1 7 (by decide +kernel)
  have := (h (alone served) .manager 0x02000024#32 hi.1 hi.2.1 hi.2.2.1 0 l g rfl).2.2.2 0#32 ⟨(by decide +kernel), (by decide +kernel)⟩ (by decide +kernel) (by decide +kernel) (by decide +kernel) (by decide +kernel) |>.2 (by decide +kernel)
  trivial

/-! ## The queue -/

theorem witness_StepRunsFront (h : Obligations.StepRunsFront) : True := by
  have := (h .tokenRefill [.logCopy] served).2 _ rfl
  trivial

/-! ## Capture -/

/-- A camera. -/
def cam : NetAddr := ⟨false, 0xC0A80001, 40000, 0x020000000001⟩
/-- A good frame of `n` bytes from port 0. -/
def good (n : Nat) : Arrival := ⟨0, n, .good 0, true, 0⟩
/-- A KFSP control message with an unchecked trailer (R70). -/
def ctrl (ver type stream session : Nat) (body : List Byte) : List Byte :=
  beBytes 1 ver ++ beBytes 1 type ++ beBytes 2 9 ++ beBytes 2 stream ++ beBytes 2 body.length ++ beBytes 4 session ++ zeros 4 ++
    body ++ zeros 4
/-- A session of the camera. -/
def session : Session := ⟨1, 0, cam, 0x13, 7, 1024, 8, []⟩
/-- A frame in progress of the stream below: one of its two packets has come. -/
def filling : Frame := ⟨5, 6, 0, 1, 40, 0, 0, 2, 0, 0, none, 0, 0, 0xFF, 0, [0], none, 0, false, false, false, none⟩
/-- A bound stream of the camera: 32 × 1 samples of 8 bits in two packets, with these frames. -/
def camStream (fs : List Frame) : Stream :=
  { bound := true, session := 1, port := 0, src := cam, raw := false, width := 32, height := 1, pixfmt := 0x01000000
    bytes := 32, rate := 60000, unit := 16, repairUs := 500, nak := true, region := 0, base := 0x200000, slots := 16
    target := 16, h := some 40, done := [], frames := fs, firstTime := none, lastTraffic := 0, idle := false, full := false
    refused := 0, nsid := 65537, standing := none, paused := none, thumbBase := 0, thumbLen := 0, thumbNext := 0 }
/-- `served` with a ring region and the camera's session. -/
def greeted : Dev :=
  { served.wr .INS_QUOTA_STREAMS 16 1 with cap.sessions := [session], mem.regions := [⟨0, 0, 1, 15, 0, 0x200000, 0x4000000, 0x4000000⟩] }
/-- The same with the camera's stream as number 4095, and tokens for its owner. -/
def bound (state : Nat) (fs : List Frame) : Dev :=
  ((({ greeted with cap.streams := [(4095, camStream fs)], cap.tokens := [(4097, 1000000)] } : Dev).wr .CAP_STREAM_CFG_STATE state 4095).wr .CAP_STREAM_CFG_INSTANCE 1
    4095).wr .CAP_STREAM_CFG_VERSION 0x13 4095
/-- Body of an OPEN of such a stream. -/
def openBody : List Byte :=
  beBytes 2 32 ++ beBytes 2 16 ++ beBytes 4 0x01000000 ++ beBytes 4 512 ++ beBytes 4 60000 ++ beBytes 2 256 ++ zeros 2 ++
    beBytes 6 0x020000000001 ++ zeros 6

/-- A HELLO for every version with every option; an OPEN without and with a session; CLOSE for the last reason; HEARTBEAT;
CLOSE_ACK. -/
theorem witness_CameraControl (h : Obligations.CameraControl) : True := by
  have w := fun (d : Dev) (bs : List Byte) (ok : (d.receive (good bs.length) bs).2 = true) =>
    h (alone d) (good bs.length) cam bs (d.receive (good bs.length) bs).1 (went _ ok)
  have := (w served (ctrl 0x13 0x20 0xFFFF 0 ([0x10, 0x13, 0, 7] ++ zeros 12)) (by decide +kernel) (by decide +kernel) (by decide +kernel)).1 0x13 (by decide +kernel) (by decide +kernel) (by decide +kernel) (by decide +kernel) (by decide +kernel) (by decide +kernel) (by decide +kernel) (by decide +kernel) (by decide +kernel)
  have := ((w served (ctrl 0x13 0x22 0xFFFF 1 openBody) (by decide +kernel) (by decide +kernel) (by decide +kernel)).2.1 (by decide +kernel) (by decide +kernel) (by decide +kernel) (by decide +kernel) (by decide +kernel) (by decide +kernel) (by decide +kernel) (by decide +kernel)).1 (by decide +kernel)
  have := ((w greeted (ctrl 0x13 0x22 0xFFFF 1 openBody) (by decide +kernel) (by decide +kernel) (by decide +kernel)).2.1 (by decide +kernel) (by decide +kernel) (by decide +kernel) (by decide +kernel) (by decide +kernel) (by decide +kernel) (by decide +kernel) (by decide +kernel)).2 session 0 (by decide +kernel) (by decide +kernel) (by decide +kernel) (by decide +kernel) (by decide +kernel) (by decide +kernel) (by decide +kernel)
  have := (w (bound 1 []) (ctrl 0x13 0x25 4095 1 [5, 0, 0, 0]) (by decide +kernel) (by decide +kernel) (by decide +kernel)).2.2.1 4095 (camStream []) (by decide +kernel) (by decide +kernel) (by decide +kernel)
  have := (w (bound 1 []) (ctrl 0x13 0x27 4095 1 []) (by decide +kernel) (by decide +kernel) (by decide +kernel)).2.2.2.1 4095 (camStream []) (by decide +kernel) (by decide +kernel)
  have := (w greeted (ctrl 0x13 0x26 4095 1 (zeros 4)) (by decide +kernel) (by decide +kernel) (by decide +kernel)).2.2.2.2 (by decide +kernel) (by decide +kernel) (by decide +kernel) (by decide +kernel) (by decide +kernel)
  trivial

/-- A data packet of the stream above (R71). -/
def packet (ver stream idx : Nat) : List Byte :=
  beBytes 1 ver ++ beBytes 1 1 ++ beBytes 2 0 ++ beBytes 2 stream ++ zeros 2 ++ beBytes 4 40 ++ beBytes 4 idx ++ zeros 8 ++
    beBytes 4 0x01000000 ++ beBytes 2 16 ++ zeros 2 ++ zeros 16 ++ zeros 4
/-- The SLUICES record of a stream's sluice, limited to one KiB. -/
def sluice (n : Nat) : List Byte := leBytes 2 n ++ leBytes 2 1 ++ leBytes 4 1 ++ leBytes 4 1 ++ zeros 4

/-- A statement about two calls that both go on, at what they leave. -/
theorem went_on {α : Type} {P : α → α → Prop} {x : α × Bool} {f : α → α × Bool}
    (h : ∀ a b, x = (a, true) → f a = (b, true) → P a b) (hx : x.2 = true) (hf : (f x.1).2 = true) : P x.1 (f x.1).1 :=
  h _ _ (went _ hx) (went _ hf)

/-- A packet of no stream, one of a wrong version, one that its sluice refuses, one that its frame takes, one that the frame
has. -/
theorem witness_CameraData (h : Obligations.CameraData) : True := by
  have w := fun (d : Dev) (bs : List Byte) (ok : (d.receive (good bs.length) bs).2 = true) =>
    h (alone d) (good bs.length) cam false bs (d.receive (good bs.length) bs).1 (went _ ok)
  let s := camStream [filling]
  have := (w served (packet 0x13 4095 1) (by decide +kernel) (by decide +kernel) (by decide +kernel)).1 (by decide +kernel) (by decide +kernel)
  have := ((w (bound 1 [filling]) (packet 0x12 4095 1) (by decide +kernel) (by decide +kernel) (by decide +kernel)).2 4095 s (by decide +kernel)).1 (by decide +kernel)
  have := (((w (withImage (bound 1 [filling]) [⟨1, 0, [lane 0 1 0 1 9216 12], [], []⟩, ⟨7, 0, [sluice 4095], [], []⟩])
    (packet 0x13 4095 1) (by decide +kernel) (by decide +kernel) (by decide +kernel)).2 4095 s (by decide +kernel)).2 (by decide +kernel)).1 (by decide +kernel)
  have := went_on (((w (bound 1 [filling]) (packet 0x13 4095 1) (by decide +kernel) (by decide +kernel) (by decide +kernel)).2 4095 s (by decide +kernel)).2 (by decide +kernel)).2 (by decide +kernel) (by decide +kernel) (by decide +kernel)
  have := (went_on (((w (bound 1 [filling]) (packet 0x13 4095 0) (by decide +kernel) (by decide +kernel) (by decide +kernel)).2 4095 s (by decide +kernel)).2 (by decide +kernel)).2 (by decide +kernel) (by decide +kernel) (by decide +kernel)).2 s filling (by decide +kernel) (by decide +kernel) (by decide +kernel) (by decide +kernel)
  trivial

/-! ## Networks and time -/

/-- A headgate partition of eight entries of instance 0, of a user, whose entry 3 matches every key with this RESULT. -/
def parted (d : Dev) (user res : Nat) : Dev :=
  ((({ d with gk.entries := [(3, ⟨0, 0, BitVec.ofNat 32 res, true, false, false, false⟩)] } : Dev).wr .GKO_PART_BASE_USER user 63).wr
    .GKO_PART_BASE_PRESENT 1 63).wr .GKO_PART_SIZE 8 63
/-- The device at a time in nanoseconds. -/
def timed (d : Dev) (t : Nat) : Dev := { d with sys.acc := t * 2 ^ 32 }

theorem witness_NetworkAndTimers_network (h : Obligations.NetworkAndTimers) : True := by
  have w := fun (d : Dev) (ok : (d.receive (good 64) []).2 = true) =>
    h.1.1 (alone d) (good 64) 0xFFFFFFFFFFFF#48 4095#12 true 1#2 17#8 65535#16 65535#16 cam [] _ (went _ ok)
  have := (w served (by decide +kernel)).1 (by decide +kernel)
  have := (w served (by decide +kernel)).2.1 (by decide +kernel)
  have := (w ((parted served 1 (127 * 2 ^ 23)).wr .NET_PORT_STATUS_UP 1 127) (by decide +kernel)).2.2 (127 * 2 ^ 23) 63 3 (by decide +kernel) (by decide +kernel) (by decide +kernel)
  have := h.1.2 (alone (timed served 100)) (by decide +kernel)
  trivial

theorem witness_NetworkAndTimers_time (h : Obligations.NetworkAndTimers) : True := by
  let f : Frame := { filling with repair := some (0, 1) }
  have w := fun (fs : List Frame) t => h.2 (alone (timed (bound 1 fs) t)) 4095 40#32 (camStream fs)
  have := ((w [f] 1000000 (by decide +kernel)).1 f 0 (by decide +kernel)).1 (by decide +kernel) (by decide +kernel) (by decide +kernel)
  have := ((w [f] 500000 (by decide +kernel)).1 f 0 (by decide +kernel)).2 1 (by decide +kernel) (by decide +kernel)
  have := (w [] 1000000000000 (by decide +kernel)).2.1 (by decide +kernel) (by decide +kernel) (by decide +kernel)
  have := (h.2 (alone (timed { bound 1 [] with cap.streams := [(4095, { camStream [] with idle := true })] } 1000000000000)) 4095
    40#32 { camStream [] with idle := true } (by decide +kernel)).2.2.1 (by decide +kernel) (by decide +kernel) (by decide +kernel)
  let g : Frame := { filling with state := 2, pendingVerdict := true }
  have := (w [g] 1000000000000 (by decide +kernel)).2.2.2 g (by decide +kernel) (by decide +kernel)
  trivial

/-- The TRIGGERS record of a pin with a debounce of 1 µs, or of an output with such a pulse. -/
def pin (n mode group : Nat) : List Byte :=
  leBytes 1 n ++ leBytes 1 mode ++ leBytes 1 group ++ zeros 1 ++ leBytes 4 1000 ++ leBytes 8 (2 ^ 63)

theorem witness_TriggerPins (h : Obligations.TriggerPins) : True := by
  let d := fun mode => withImage served [⟨8, 0, [pin 7 mode 0], [], []⟩]
  have := h.1 (alone (d 1)) 7 true (pin 7 1 0) (by decide +kernel) (by decide +kernel) (by decide +kernel)
  have := h.1 (alone (d 2)) 7 false (pin 7 2 0) (by decide +kernel) (by decide +kernel) (by decide +kernel)
  have := h.1 (alone (d 3)) 7 false (pin 7 3 0) (by decide +kernel) (by decide +kernel) (by decide +kernel)
  let e : Edge := ⟨7, 0, 1000, 2 ^ 63⟩
  have := h.2.1 (alone (timed { served with cap.edges := [e] } 1000)) 7 e (by decide +kernel)
  have := h.2.2.1 (alone (timed served 1000000000)) (by decide +kernel)
  have := h.2.2.2.1 (alone (timed { served with cap.pulses := [(0, 1000)] } 1000)) 0 1000 (by decide +kernel) (by decide +kernel)
  let x : TrigWindow := ⟨1, some 63, 0, 0, 0, [4095], [4095], false, 0, 0, 0, false, []⟩
  have := h.2.2.2.2 (alone (timed { served with cap.windows := [x] } 100000000000)) 1 x (by decide +kernel) (by decide +kernel) (by decide +kernel)
  trivial

/-- Group 63 of instance 1, with the stream armed into it. -/
def grouped (armed : Nat) : Dev :=
  (((bound armed []).wr .CAP_TG_CFG_ENABLE 1 63).wr .CAP_TG_CFG_INSTANCE 1 63).wr .CAP_STREAM_CFG_GROUP 63 4095

theorem witness_SoftwareTrigger (h : Obligations.SoftwareTrigger) : True := by
  have := (h (alone (bound 2 [])) 63 0 (by decide +kernel) (by decide +kernel)).1 (.inl (by decide +kernel))
  have := (h (alone (grouped 1)) 63 0 (by decide +kernel) (by decide +kernel)).1 (.inr (by decide +kernel))
  have := (h (alone ((grouped 2).wr .CAP_SW_TRIG_TIME_HI 2)) 63 (2 * 2 ^ 32) (by decide +kernel) (by decide +kernel)).2 (by decide +kernel) (by decide +kernel) (by decide +kernel) (by decide +kernel) (by decide +kernel) (by decide +kernel) (by decide +kernel)
  trivial

/-- A frozen frame of the stream, alone and in the drain queue with the namespace and the key of its instance. -/
def frozen : Frame := { filling with state := 3, window := some 1, queued := true }
def draining : Dev :=
  { bound 1 [frozen] with
    cap.queue := [(4095, 5)], hq.ns := [(65537, ⟨1, 1, 0, 1, false, 0, 0, 0, 0⟩)], mgt.slots := [(1, zeros 64)] }
/-- The same while the drain pauses for lack of slots. -/
def halted : Dev := { draining with cap.streams := [(4095, { camStream [frozen] with paused := some 1 })] }

theorem witness_DrainCommands (h : Obligations.DrainCommands) : True := by
  have := (h.1 (alone { draining with hq.ns := [] }) 4095 5 2 (camStream [frozen]) frozen (by decide +kernel) (by decide +kernel) (by decide +kernel)).1 (by decide +kernel) (by decide +kernel) (by decide +kernel)
  have := (h.1 (alone draining) 4095 5 2 (camStream [frozen]) frozen (by decide +kernel) (by decide +kernel) (by decide +kernel)).2 _ (by decide +kernel) (went _ (by decide +kernel))
  have := h.2 (alone halted) 4095 { camStream [frozen] with paused := some 1 } 1 (by decide +kernel) (by decide +kernel) (by decide +kernel)
  trivial

/-! ## Host commands -/

/-- A submission queue entry: opcode, namespace and dwords 10 to 15. -/
def sqe (op nsid : Nat) (w : List Nat) : List Byte :=
  leBytes 4 (op + 7 * 65536) ++ leBytes 4 nsid ++ zeros 32 ++ ((w ++ [0, 0, 0, 0, 0, 0]).take 6).flatMap (leBytes 4)
/-- A released command of I/O queue 1 of controller 64, which serves instance 1, with its data. -/
def io (op nsid : Nat) (w : List Nat) (data : List Byte) : HCmd :=
  ⟨9, 1, 64, 1, 0, sqe op nsid w, data, data.length, true, 0, 2, false, [], (0, 0, 0), [], [], [], [], false⟩
/-- The same on the admin queue. -/
def adm (op nsid : Nat) (w : List Nat) (data : List Byte) : HCmd := { io op nsid w data with queue := 0 }
/-- A controller over TCP, with CC as it is after it was enabled. -/
def ctrl64 : Ctrl := ⟨1, none, 120000, 0, [], [], List.replicate 16 1, 1, true, 0, 0, 0, 128, false⟩
/-- A namespace of 16 blocks of 4 KiB, or 128 of 512 bytes, of a kind: 0 block, 1 frame, 2 a view of namespace 1. -/
def space (kind lbaf : Nat) : Namespace := ⟨1, kind, lbaf, if lbaf = 1 ∨ lbaf = 4 then 128 else 16, false, 0, 0, 1, 0⟩
/-- The device with connection 5 on port 0, its controller with an admin queue and an I/O queue, namespaces 1 (frame),
2 (block) and 3 (view) of instance 1 with its key, and a command. -/
def host (d : Dev) (c : HCmd) : Dev :=
  { d with
    hq.conns := [(5, ⟨0, cam, 1, true, false, false, 0, false, some 64, 0⟩), (6, ⟨0, cam, 1, true, false, false, 0, false, some 64, 1⟩)]
    hq.ctrls := [(64, ctrl64)], hq.queues := [(0, ⟨64, 0, some 5, 0, 0, 32, 0⟩), (1, ⟨64, 1, some 6, 2, 2, 32, 0⟩)]
    hq.cmds := [c], hq.ns := [(65537, space 1 0), (65538, space 0 0), (65539, space 2 0)], mgt.slots := [(1, zeros 64)] }

theorem witness_CaptureArming (h : Obligations.CaptureArming) : True := by
  let c := io 0x81 1 [2 ^ 30 + 4095, 0, 10] []
  have := (h (alone (host (bound 1 []) c)) 9 c).1 (space 1 0) ⟨(by decide +kernel), (by decide +kernel), (by decide +kernel), (by decide +kernel), (by decide +kernel), (by decide +kernel), (by decide +kernel)⟩ (by decide +kernel) (by decide +kernel) (by decide +kernel) (by decide +kernel) (by decide +kernel) (by decide +kernel) (by decide +kernel) (by decide +kernel) (by decide +kernel) (by decide +kernel) (by decide +kernel) (by decide +kernel)
  let c := io 0x82 0 [4095] []
  have := (h (alone (host (grouped 2) c)) 9 c).2.1 ⟨(by decide +kernel), (by decide +kernel), (by decide +kernel), (by decide +kernel), (by decide +kernel), (by decide +kernel), (by decide +kernel)⟩ (by decide +kernel) (by decide +kernel) (by decide +kernel)
  let c := io 0x85 0 [63, 1000] []
  let d := fun e => host (timed e 1000) c
  have := ((h (alone (d ((bound 1 []).wr .CAP_TG_CFG_INSTANCE 1 63))) 9 c).2.2 1000 _ (.refused 0) ⟨(by decide +kernel), (by decide +kernel), (by decide +kernel), (by decide +kernel), (by decide +kernel), (by decide +kernel), (by decide +kernel)⟩ (by decide +kernel) (by decide +kernel) (by decide +kernel) (by decide +kernel)
    (Prod.ext rfl (by decide +kernel))).1 rfl
  have := ((h (alone (d (grouped 1))) 9 c).2.2 1000 _ (.refused 1) ⟨(by decide +kernel), (by decide +kernel), (by decide +kernel), (by decide +kernel), (by decide +kernel), (by decide +kernel), (by decide +kernel)⟩ (by decide +kernel) (by decide +kernel) (by decide +kernel) (by decide +kernel) (Prod.ext rfl (by decide +kernel))).2.1 rfl
  have := ((h (alone { d (grouped 2) with cap.lastT := [(63, 2001)] }) 9 c).2.2 1000 _ (.refused 2) ⟨(by decide +kernel), (by decide +kernel), (by decide +kernel), (by decide +kernel), (by decide +kernel), (by decide +kernel), (by decide +kernel)⟩ (by decide +kernel) (by decide +kernel) (by decide +kernel) (by decide +kernel)
    (Prod.ext rfl (by decide +kernel))).2.2.1 rfl
  have := ((h (alone (d (grouped 2))) 9 c).2.2 1000 _ (.accepted 0 1) ⟨(by decide +kernel), (by decide +kernel), (by decide +kernel), (by decide +kernel), (by decide +kernel), (by decide +kernel), (by decide +kernel)⟩ (by decide +kernel) (by decide +kernel) (by decide +kernel) (by decide +kernel) (Prod.ext rfl (by decide +kernel))).2.2.2 0 1
    rfl (by decide +kernel)
  trivial

/-- A query of every stream for all times. -/
def query : List Byte := [0xFF, 0xFF, 7, 0] ++ zeros 20 ++ List.replicate 8 255 ++ zeros 32
/-- Such a device with a query handle of two positions. -/
def asked (c : HCmd) : Dev := { host (bound 1 []) c with cap.handles := [(4, ⟨1, [0, 1], 0⟩)] }
/-- A committed frame that lacks a packet, frozen. -/
def stored : Frame := { frozen with missing := 1, queued := false }

theorem witness_FrameQueries (h : Obligations.FrameQueries) : True := by
  let c := io 0x86 0 [] query
  have := (h (alone (host (bound 1 []) c)) 9 c).1 _ _ _ ⟨(by decide +kernel), (by decide +kernel), (by decide +kernel), (by decide +kernel), (by decide +kernel), (by decide +kernel), (by decide +kernel)⟩ (by decide +kernel) (by decide +kernel) (by decide +kernel) (by decide +kernel) (by decide +kernel) (by decide +kernel) (by decide +kernel) (by decide +kernel) (by decide +kernel) (triple _)
  let c := io 0x87 0 [4, 256] []
  have := ((h (alone (asked c)) 9 c).2.1 ⟨1, [0, 1], 0⟩ ⟨(by decide +kernel), (by decide +kernel), (by decide +kernel), (by decide +kernel), (by decide +kernel), (by decide +kernel), (by decide +kernel)⟩ (by decide +kernel) (by decide +kernel) (by decide +kernel) (by decide +kernel) (by decide +kernel)).1 (by decide +kernel)
  let c := io 0x87 0 [4, 1] []
  have := ((h (alone (asked c)) 9 c).2.1 ⟨1, [0, 1], 0⟩ ⟨(by decide +kernel), (by decide +kernel), (by decide +kernel), (by decide +kernel), (by decide +kernel), (by decide +kernel), (by decide +kernel)⟩ (by decide +kernel) (by decide +kernel) (by decide +kernel) (by decide +kernel) (by decide +kernel)).2 (by decide +kernel)
  have := (h (alone (timed (asked c) 10000000000)) 4 c).2.2.1 ⟨1, [0, 1], 0⟩ (by decide +kernel) (by decide +kernel)
  let c := io 0x8A 0 [4095 + 2 ^ 16 + 2 ^ 17, 40, 4096, 8388544] []
  have := (h (alone (host (bound 1 [stored]) c)) 9 c).2.2.2 (camStream [stored]) stored ⟨(by decide +kernel), (by decide +kernel), (by decide +kernel), (by decide +kernel), (by decide +kernel), (by decide +kernel), (by decide +kernel)⟩ (by decide +kernel) (by decide +kernel) (by decide +kernel) (by decide +kernel) (by decide +kernel) (by decide +kernel) (by decide +kernel) (by decide +kernel) (by decide +kernel) (by decide +kernel)
    (.inr (by decide +kernel))
  trivial

/-! ## Codec -/

/-- A job descriptor of program queue 63: STORE, one block of 16 bytes. -/
def stores : List Byte := jobDesc 0 0 0 1 0 0 0 0 0x1000000 16 0 0x1000100 64 7 0
/-- The device with that descriptor at the head of queue 63, and with the job on engine 31. -/
def jobbed (b : List Byte) : Dev :=
  ((({ bound 1 [] with mem.regions := [⟨3, 8, 1, 15, 0, 0x1000000, 0x100000, 0x100000⟩] } : Dev).wr .CDC_Q_CFG_ENABLE 1 63).wr
    .CDC_Q_CFG_INSTANCE 1 63).writeMem (63 * 0x18000) b |>.wr .CDC_Q_SQ_TAIL 1 63
def run : Running := ⟨⟨63, stores, 1, 0, .program, none⟩, false, false⟩
def busy : Dev := { jobbed stores with cdc.engines := [(31, run)] }

theorem witness_CodecQueues (h : Obligations.CodecQueues) : True := by
  have := ((h (alone (jobbed stores))).1 63 1023#32 (by decide +kernel) (by decide +kernel) (by decide +kernel)).1 (by decide +kernel)
  have := ((h (alone { jobbed stores with cdc.fullEpisode := [63] })).1 63 0#32 (by decide +kernel) (by decide +kernel) (by decide +kernel)).2 (by decide +kernel) (by decide +kernel)
  have := (h (alone (jobbed stores))).2.1 63 1023#32 (by decide +kernel)
  have := ((h (alone (jobbed stores))).2.2.1 0 63 (by decide +kernel) (by decide +kernel) (by decide +kernel)).1 (by decide +kernel)
  have := ((h (alone (jobbed (zeros 64)))).2.2.1 0 63 (by decide +kernel) (by decide +kernel) (by decide +kernel)).2 3 (by decide +kernel)
  have := (h (alone busy)).2.2.2.1 31 run 0 (by decide +kernel) (by decide +kernel)
  have := (h (alone busy)).2.2.2.2 255
  trivial

theorem witness_CodecCompletion (h : Obligations.CodecCompletion) : True := by
  have w := h.1 (alone busy) 31 run (by decide +kernel) rfl (by decide +kernel) (by decide +kernel)
  have := w.1 (by decide +kernel) (by decide +kernel)
  have := w.2.1 ⟨stBlockBad, 0⟩ 0 (by decide +kernel) (by decide +kernel) (by decide +kernel)
  have := w.2.2 ⟨stBlockBad, 0⟩ ⟨stBlockCheck, 0⟩ 0 (by decide +kernel) (by decide +kernel) (by decide +kernel) (by decide +kernel)
  have := (h.2 (alone busy) 31).1 0
  have := (h.2 (alone busy) 31).2.1 271 (by decide +kernel)
  have := (h.2 (alone busy) 31).2.2.1 31 (by decide +kernel)
  have := (h.2 (alone busy) 31).2.2.2.1 31 (by decide +kernel)
  have := (h.2 (alone busy) 31).2.2.2.2.1 127 (by decide +kernel)
  have := (h.2 (alone busy) 31).2.2.2.2.2 15 (by decide +kernel)
  trivial

/-! ## Flash -/

/-- Every carrier ONLINE. -/
def carried (d : Dev) (state : Nat) : Dev := (List.range 16).foldl (fun d k => d.wr .FLS_CARRIER_STATE state k) d
/-- A die with a page of 8704 bytes, 4 planes and 64 blocks. -/
def die : Die := { dieInit with info := ⟨zeros 8, 8704, 256, 4, 3, 10, 64, 600⟩ }
/-- The stripe of superblock 63 (second half, die 31) on carriers 0 to 15. -/
def stripe (issued programmed : Bool) (units : List Nat) : Stripe :=
  ⟨5, 9, 63, 0, List.range 16, [], 0, [], false, issued, programmed, none, units, []⟩
/-- The device with that stripe. -/
def flash (x : Stripe) : Dev :=
  { carried served 5 with
    fls.dies := (List.range 16).map (fun k => (64 * k + 63, die)), fls.stripes := [x]
    fls.sbs := [(63, ⟨1, List.range 16, 9, 1, 0, 0, false⟩)] }

theorem witness_FlashReadLadder (h : Obligations.FlashReadLadder) : True := by
  let x := stripe true true []
  let bad : Ladder := ⟨none, 1, []⟩
  have w := fun a b o => h (alone (flash x)) 5 15 7 x a b o (by decide +kernel) (by decide +kernel) (by decide +kernel) (by decide +kernel) (fun i v hv => by cases hv)
  have := (w ⟨some 2, 0, [(1, 2)]⟩ bad false).1 2 (by decide +kernel)
  have := (w bad ⟨some 0, 0, []⟩ false).2.1 0 (by decide +kernel) (by decide +kernel)
  have := ((w bad bad true).2.2.1 (by decide +kernel) (by decide +kernel)).1 (by decide +kernel) (by decide +kernel)
  have := ((w bad bad false).2.2.1 (by decide +kernel) (by decide +kernel)).2 (by decide +kernel)
  trivial

theorem witness_FlashPrograms (h : Obligations.FlashPrograms) : True := by
  have w := fun x => h (alone (flash x))
  have := ((w (stripe true false [])).1 5 900000 15 (stripe true false []) (by decide +kernel) (by decide +kernel) (by decide +kernel) (by decide +kernel) (by decide +kernel)).1 (by decide +kernel)
  have := ((w (stripe true false (List.range 15))).1 5 900000 15 (stripe true false (List.range 15)) (by decide +kernel) (by decide +kernel) (by decide +kernel) (by decide +kernel) (by decide +kernel)).2.1 (by decide +kernel) (by decide +kernel)
  have := ((w (stripe true false [])).1 5 900000 15 (stripe true false []) (by decide +kernel) (by decide +kernel) (by decide +kernel) (by decide +kernel) (by decide +kernel)).2.2 (by decide +kernel)
  have := (h (alone { flash (stripe true true []) with fls.sbs := [(63, ⟨4, List.range 16, 9, 1, 0, 0, false⟩)] })).2.1 63 (by decide +kernel) (by decide +kernel)
  have v := (w (stripe true false [])).2.2.1 31 31 5 (by decide +kernel)
  have := v.2.2.1 (stripe true false []) (by decide +kernel) (by decide +kernel) (by decide +kernel) (by decide +kernel) (by decide +kernel) (by decide +kernel) (by decide +kernel)
  have := ((h (alone { flash (stripe true true []) with fls.sbs := [(63, ⟨4, List.range 16, 9, 1, 0, 0, false⟩)] })).2.2.1 31 31 63
    (by decide +kernel)).2.2.2 (by decide +kernel) (by decide +kernel) (by decide +kernel) (by decide +kernel)
  have := (h (alone (timed (flash (stripe true true [])) 600000000000))).2.2.2.2.1 (by decide +kernel)
  have := (w (stripe true true [])).2.2.2.2.2 31 (by decide +kernel)
  trivial

theorem witness_ChannelsAndCarriers_channels (h : Obligations.ChannelsAndCarriers) : True := by
  have w := fun d (ok : d.chanUp 31 = true) => h.1 (alone d) 31 ok
  let d := served.wr .FLS_TRAIN_CFG_PERIOD_S 60
  have := ((w (timed d 60000000000) (by decide +kernel)).1 (by decide +kernel) (by decide +kernel)).1 (by decide +kernel) (by decide +kernel)
  have := ((w d (by decide +kernel)).1 (by decide +kernel) (by decide +kernel)).2.1 200 (by decide +kernel)
  let t : Dev := { served with fls.training := some 31 }
  have := ((w t (by decide +kernel)).2 (by decide +kernel)).1 64
  have := ((w t (by decide +kernel)).2 (by decide +kernel)).2.1 64 (by decide +kernel)
  let u : Dev := { t with fls.train := [(31, ⟨false, false, true, 0, 0⟩)] }
  have := ((w u (by decide +kernel)).2 (by decide +kernel)).2.2 64 (by decide +kernel)
  trivial

theorem witness_ChannelsAndCarriers_carriers (h : Obligations.ChannelsAndCarriers) : True := by
  have w := fun n => h.2 (alone (served.wr .FLS_CARRIER_STATE n 15)) 15
  have := (w 0).1 (by decide +kernel)
  have := (w 7).2.1 (by decide +kernel)
  have := (h.2 (alone (timed (served.wr .FLS_CARRIER_STATE 1 15) 50000000)) 15).2.2.1 (by decide +kernel) (by decide +kernel)
  have := (w 2).2.2.2.1 (by decide +kernel) ⟨0, 15, 4, 0⟩ (by decide +kernel) (by decide +kernel)
  have := (w 2).2.2.2.2.1 (by decide +kernel) (by decide +kernel)
  have := (h.2 (alone ((served.wr .FLS_CARRIER_STATE 4 15).wr .FLS_CARRIER_STATE 8 0)) 15).2.2.2.2.2.1 (by decide +kernel) ⟨0, (by decide +kernel)⟩
  have := (h.2 (alone (carried served 5)) 15).2.2.2.2.2.2.1 (by decide +kernel) (by decide +kernel)
  have := (h.2 (alone ((carried served 5).wr .FLS_CARRIER_STATE 7 0)) 15).2.2.2.2.2.2.2.1 0 (by decide +kernel) (by decide +kernel) (by decide +kernel)
  have := (w 5).2.2.2.2.2.2.2.2.1 (by decide +kernel)
  have := (w 6).2.2.2.2.2.2.2.2.2.1 (by decide +kernel)
  have := (w 6).2.2.2.2.2.2.2.2.2.2.1 (.inl (by decide +kernel))
  have := (w 7).2.2.2.2.2.2.2.2.2.2.1 (.inr (by decide +kernel))
  have := (w 3).2.2.2.2.2.2.2.2.2.2.2.1 (by decide +kernel) []
  have := (w 7).2.2.2.2.2.2.2.2.2.2.2.2 (by decide +kernel)
  trivial

/-! ## Durability -/

/-- A journal page with one record. -/
def page : JPage := ⟨63, [.checkpoint 3], 0⟩
/-- A write of one 4 KiB block to namespace 2 that holds a slot, its data here. -/
def written : HCmd := { io 1 2 [15, 0, 0] (zeros 4096) with slots := [0], want := 4096 }
/-- Closed superblocks: relocation asked for or not, and erases. -/
def sbs (r : Bool) (a b : Nat) : Dev :=
  { served with
    fls.sbs := [(62, ⟨2, [], 0, 0, a, 0, r⟩), (63, ⟨2, [], 0, 0, b, 0, false⟩)]
    dur.map := [⟨65538, 0, 4096, 100, false, 62, 0, 0⟩] }

theorem witness_JournalAndWork_journal (h : Obligations.JournalAndWork) : True := by
  have := (h.1 (alone (timed { served with dur.page := some page } 100000))).1 page (by decide +kernel) (by decide +kernel)
  have := (h.1 (alone { served with dur.flight := [page] })).2.1 page [] (by decide +kernel)
  have := (h.1 (alone { served with dur.flight := [page] })).2.2.1 page [] true false (by decide +kernel) (by decide +kernel)
  have := (h.1 (alone (timed served 100000000000000))).2.2.2.1 (.inl (by decide +kernel)) (by decide +kernel) (by decide +kernel)
  trivial

theorem witness_JournalAndWork_work (h : Obligations.JournalAndWork) : True := by
  have := (h.2 (alone (host served written)) (by decide +kernel)).1 9 written (space 0 0) _ rfl (by decide +kernel) (by decide +kernel) (by decide +kernel) (by decide +kernel) (by decide +kernel) (by decide +kernel) (by decide +kernel) (went _ (by decide +kernel))
  have := ((h.2 (alone (sbs true 0 0)) (by decide +kernel)).2.1 (by decide +kernel)).1 62 (by decide +kernel)
  have := ((h.2 (alone (sbs false 0 60000)) (by decide +kernel)).2.1 (by decide +kernel)).2.1 62 (by decide +kernel) (by decide +kernel)
  have := ((h.2 (alone (sbs false 0 0)) (by decide +kernel)).2.1 (by decide +kernel)).2.2 63 (by decide +kernel) (by decide +kernel) (by decide +kernel)
  have := (h.2 (alone (flash (stripe true true []))) (by decide +kernel)).2.2 5 (stripe true true []) (by decide +kernel) (by decide +kernel)
  trivial

/-! ## Connections and commands -/

/-- A connection of instance 1 before and after ICResp. -/
def conn (ready : Bool) : Conn := ⟨0, cam, 1, ready, false, false, 0, false, none, 0⟩
def linked (x : Conn) : Dev :=
  { (served.wr .INS_STATUS_ENABLED 1 1).wr .INS_QUOTA_CONN 4 1 with
    hq.conns := [(7, x)], hq.nqns := [(1, [0x61])], hq.ctrls := [(64, ctrl64)] }
/-- A Connect capsule and its data: the queue, its size, the controller asked for. -/
def connectSqe (qid size : Nat) : List Byte := sqe 0x7F 1 [qid * 65536, size, 0]
def connectData (k : Nat) : List Byte := List.replicate 16 1 ++ leBytes 2 k ++ zeros 238 ++ [0x61] ++ zeros 255

theorem witness_TcpConnections (h : Obligations.TcpConnections) : True := by
  have := ((h (alone served)).1 0 cam 4420 (by decide +kernel) (by decide +kernel) (by decide +kernel) (by decide +kernel)).1 (by decide +kernel)
  let full : Dev := { served with hq.conns := List.replicate 65536 (0, conn true) }
  have := ((h (alone full)).1 0 cam 4420 (by decide +kernel) (by decide +kernel) (by decide +kernel) (by decide +kernel)).2 (Nat.le_of_eq List.length_replicate.symm)
  have := ((h (alone (linked (conn false)))).2.1 7 (conn false) (by decide +kernel) (by decide +kernel)).1 31 65535 true true (by decide +kernel) (by decide +kernel)
  have := ((h (alone (linked (conn false)))).2.1 7 (conn false) (by decide +kernel) (by decide +kernel)).2.1 [] [] (by decide +kernel)
  let c := io 1 2 [15, 0, 0] []
  have := ((h (alone (host served c))).2.1 6 ⟨0, cam, 1, true, false, false, 0, false, some 64, 1⟩ (by decide +kernel) (by decide +kernel)).2.2 (sqe 1 2 []) (zeros 16) 64 1
    ⟨64, 1, some 6, 2, 2, 32, 0⟩ (by decide +kernel) (by decide +kernel) (by decide +kernel) (by decide +kernel)
  have w := fun q size k => (h (alone (linked (conn true)))).2.2.1 7 1 120000 (conn true) (connectSqe q size) (connectData k)
  have := (w 0 1 0xFFFF (by decide +kernel) (by decide +kernel) (by decide +kernel) (by decide +kernel) (by decide +kernel) (by decide +kernel) (by decide +kernel) (by decide +kernel) (by decide +kernel) (by decide +kernel)).1 (by decide +kernel) (by decide +kernel)
  have := (w 128 1023 64 (by decide +kernel) (by decide +kernel) (by decide +kernel) (by decide +kernel) (by decide +kernel) (by decide +kernel) (by decide +kernel) (by decide +kernel) (by decide +kernel) (by decide +kernel)).2 ctrl64 (by decide +kernel) (by decide +kernel) (by decide +kernel) (by decide +kernel) (by decide +kernel) (by decide +kernel) (by decide +kernel) (by decide +kernel)
  have := (h (alone (linked (conn true)))).2.2.2 7 (conn true) (by decide +kernel) (by decide +kernel)
  trivial

/-- A command that waits for admission. -/
def waiting : HCmd := { io 1 2 [15, 0, 0] [] with stage := 0, arrival := 0 }
/-- A PCIe controller with the I/O queue 1. -/
def pcie (d : Dev) (c : HCmd) : Dev :=
  { host d c with
    hq.ctrls := [(64, { ctrl64 with pf := some 63 })]
    hq.queues := [(0, ⟨64, 0, none, 0, 0, 32, 0⟩), (1, ⟨64, 1, none, 2, 2, 32, 5⟩)], hq.cqs := [(64 * 1024 + 5, 32)] }

theorem witness_CommandFlow (h : Obligations.CommandFlow) : True := by
  have := (h (alone (pcie served waiting))).1 1 ⟨64, 1, none, 2, 2, 32, 5⟩ { ctrl64 with pf := some 63 } (sqe 1 2 []) (by decide +kernel) (by decide +kernel) (by decide +kernel) (by decide +kernel) (by decide +kernel) (by decide +kernel)
  let a : HCmd := { io 1 2 [0, 0, 0] [1, 2] with want := 5, slots := [0] }
  have := (h (alone (host served a))).2.1 9 6 a ⟨0, cam, 1, true, false, false, 0, false, some 64, 1⟩ [3, 4, 5] (by decide +kernel) (by decide +kernel) (by decide +kernel) (by decide +kernel) (by decide +kernel)
  have := (h (alone (pcie served a))).2.2.1 9 a [3, 4, 5] (by decide +kernel) (by decide +kernel) (by decide +kernel) (by decide +kernel) (by decide +kernel)
  let d := (host (served.wr .INS_SHARE_FLASHBW_PM 500 1) waiting).wr .HQ_INS_CFG_CMD_QUOTA 1 1
  have := ((h (alone d)).2.2.2.1 1 1 true waiting (by decide +kernel) (by decide +kernel) (by decide +kernel) (by decide +kernel) (by decide +kernel)).1 (by decide +kernel) (by decide +kernel)
  let e : Dev := { d with hq.cmds := [waiting, { waiting with handle := 8, stage := 1 }] }
  have := ((h (alone e)).2.2.2.1 1 1 true waiting (by decide +kernel) (by decide +kernel) (by decide +kernel) (by decide +kernel) (by decide +kernel)).2 (by decide +kernel)
  let k : HCmd := { io 1 2 [15, 0, 0] [] with held := true, stage := 1 }
  have := (h (alone (host served k))).2.2.2.2.1 9 k (space 0 0) (by decide +kernel) (by decide +kernel) (by decide +kernel) (by decide +kernel) (by decide +kernel) (by decide +kernel)
  have := (h (alone (host served k))).2.2.2.2.2 9 k (by decide +kernel) (by decide +kernel)
  trivial

theorem witness_ControllerCommands_controllers (h : Obligations.ControllerCommands) : True := by
  have := (h.1 (alone (timed (host served waiting) 120000000000))).1 64 ctrl64 (by decide +kernel) |>.1 (by decide +kernel) (by decide +kernel)
  let d := (withImage served [⟨1, 0, [lane 0 1 0 1 9216 12, lane 100 1 1 0 9216 0], List.replicate 64 1, []⟩]).wr .INS_STATUS_ENABLED 1 1
  have := (h.1 (alone d)).2.1 1 1 1 (by decide +kernel) (by decide +kernel) (by decide +kernel) (by decide +kernel) (by decide +kernel)
  have := (h.1 (alone (timed { served with mgt.hold := some ⟨1, 0, [], none⟩, hq.heldAt := some 0 } 50000000))).2.2 ⟨1, 0, [], none⟩ 0
    (by decide +kernel) (by decide +kernel) (by decide +kernel)
  trivial

/-- A Fabrics capsule on the admin queue: FCTYPE, OFST and VALUE. -/
def property (type ofst value : Nat) : HCmd := adm 0x7F type [0, ofst, value] []

theorem witness_ControllerCommands_properties (h : Obligations.ControllerCommands) : True := by
  have w := fun c => h.2 (alone (host served c)) 9 c ctrl64
  have := (w (property 4 0x14 0) ⟨⟨(by decide +kernel), (by decide +kernel), (by decide +kernel), (by decide +kernel), (by decide +kernel), (by decide +kernel), (by decide +kernel)⟩, (by decide +kernel)⟩ (by decide +kernel) (by decide +kernel)).1 (by decide +kernel) |>.1 (by decide +kernel)
  have := (w (property 4 0x1C 0) ⟨⟨(by decide +kernel), (by decide +kernel), (by decide +kernel), (by decide +kernel), (by decide +kernel), (by decide +kernel), (by decide +kernel)⟩, (by decide +kernel)⟩ (by decide +kernel) (by decide +kernel)).1 (by decide +kernel) |>.2 (by decide +kernel)
  have := (w (property 0 0x14 0) ⟨⟨(by decide +kernel), (by decide +kernel), (by decide +kernel), (by decide +kernel), (by decide +kernel), (by decide +kernel), (by decide +kernel)⟩, (by decide +kernel)⟩ (by decide +kernel) (by decide +kernel)).2 (by decide +kernel) (by decide +kernel) |>.1 (by decide +kernel) (by decide +kernel)
  have := (w (property 0 0x14 1) ⟨⟨(by decide +kernel), (by decide +kernel), (by decide +kernel), (by decide +kernel), (by decide +kernel), (by decide +kernel), (by decide +kernel)⟩, (by decide +kernel)⟩ (by decide +kernel) (by decide +kernel)).2 (by decide +kernel) (by decide +kernel) |>.2 (by decide +kernel) (by decide +kernel)
  trivial

theorem witness_AdminCommands_queues (h : Obligations.AdminCommands) : True := by
  let k : Ctrl := { ctrl64 with pf := some 63 }
  have w := fun c => h (alone (pcie served c)) 9 c k
  have := (w (adm 5 0 [128 + 1023 * 65536, 128 * 65536 + 2] [])).1 ⟨⟨(by decide +kernel), (by decide +kernel), (by decide +kernel), (by decide +kernel), (by decide +kernel), (by decide +kernel), (by decide +kernel)⟩, (by decide +kernel)⟩ (by decide +kernel) (by decide +kernel) (by decide +kernel) (by decide +kernel) (by decide +kernel) (by decide +kernel) (by decide +kernel) (by decide +kernel)
  have := (w (adm 1 0 [128 + 1 * 65536, 5 * 65536 + 7] [])).2.1 ⟨⟨(by decide +kernel), (by decide +kernel), (by decide +kernel), (by decide +kernel), (by decide +kernel), (by decide +kernel), (by decide +kernel)⟩, (by decide +kernel)⟩ (by decide +kernel) (by decide +kernel) (by decide +kernel) (by decide +kernel) (by decide +kernel) (by decide +kernel) (by decide +kernel) (by decide +kernel)
  have := (w (adm 0 0 [1] [])).2.2.1 1 ⟨64, 1, none, 2, 2, 32, 5⟩ ⟨⟨(by decide +kernel), (by decide +kernel), (by decide +kernel), (by decide +kernel), (by decide +kernel), (by decide +kernel), (by decide +kernel)⟩, (by decide +kernel)⟩ (by decide +kernel) (by decide +kernel) (by decide +kernel) (by decide +kernel)
  let c := adm 4 0 [5] []
  let free : Dev := { pcie served c with hq.queues := [(0, ⟨64, 0, none, 0, 0, 32, 0⟩)] }
  have := (h (alone free) 9 c k).2.2.2.1 ⟨⟨(by decide +kernel), (by decide +kernel), (by decide +kernel), (by decide +kernel), (by decide +kernel), (by decide +kernel), (by decide +kernel)⟩, (by decide +kernel)⟩ (by decide +kernel) (by decide +kernel) (by decide +kernel) (by decide +kernel)
  trivial

theorem witness_AdminCommands_reports (h : Obligations.AdminCommands) : True := by
  have w := fun c => h (alone (host served c)) 9 c ctrl64
  have := (w (adm 6 0xFFFFFFFD [2] [])).2.2.2.2.1 ⟨⟨(by decide +kernel), (by decide +kernel), (by decide +kernel), (by decide +kernel), (by decide +kernel), (by decide +kernel), (by decide +kernel)⟩, (by decide +kernel)⟩ (by decide +kernel) (by decide +kernel) (by decide +kernel)
  have := (w (adm 2 0xFFFFFFFF [0x3FF8004, 0] [])).2.2.2.2.2.1 ⟨⟨(by decide +kernel), (by decide +kernel), (by decide +kernel), (by decide +kernel), (by decide +kernel), (by decide +kernel), (by decide +kernel)⟩, (by decide +kernel)⟩ (by decide +kernel) (by decide +kernel) (by decide +kernel) (by decide +kernel) (by decide +kernel) (by decide +kernel) (by decide +kernel)
  let c := adm 8 0 [1 + 7 * 65536] []
  let d : Dev := { host served c with hq.cmds := [c, { waiting with handle := 8, stage := 1 }] }
  have := ((h (alone d) 9 c ctrl64).2.2.2.2.2.2.1 ⟨⟨(by decide +kernel), (by decide +kernel), (by decide +kernel), (by decide +kernel), (by decide +kernel), (by decide +kernel), (by decide +kernel)⟩, (by decide +kernel)⟩).1 { waiting with handle := 8, stage := 1 } (by decide +kernel)
  have := ((w c).2.2.2.2.2.2.1 ⟨⟨(by decide +kernel), (by decide +kernel), (by decide +kernel), (by decide +kernel), (by decide +kernel), (by decide +kernel), (by decide +kernel)⟩, (by decide +kernel)⟩).2 (by decide +kernel)
  trivial

theorem witness_AdminCommands_features (h : Obligations.AdminCommands) : True := by
  have w := fun c => h (alone (host served c)) 9 c ctrl64
  have := ((w (adm 9 0 [1, 7] [])).2.2.2.2.2.2.2.1 ⟨⟨(by decide +kernel), (by decide +kernel), (by decide +kernel), (by decide +kernel), (by decide +kernel), (by decide +kernel), (by decide +kernel)⟩, (by decide +kernel)⟩ (by decide +kernel)).1 (by decide +kernel) (by decide +kernel)
  have := ((w (adm 9 0 [7, 65534 + 65534 * 65536] [])).2.2.2.2.2.2.2.1 ⟨⟨(by decide +kernel), (by decide +kernel), (by decide +kernel), (by decide +kernel), (by decide +kernel), (by decide +kernel), (by decide +kernel)⟩, (by decide +kernel)⟩ (by decide +kernel)).2.1 (by decide +kernel) (by decide +kernel) (by decide +kernel)
  have := ((w (adm 9 0 [0xC0, 1 + 3 * 65536] [])).2.2.2.2.2.2.2.1 ⟨⟨(by decide +kernel), (by decide +kernel), (by decide +kernel), (by decide +kernel), (by decide +kernel), (by decide +kernel), (by decide +kernel)⟩, (by decide +kernel)⟩ (by decide +kernel)).2.2 1
    ⟨64, 1, some 6, 2, 2, 32, 0⟩ (by decide +kernel) (by decide +kernel) (by decide +kernel) (by decide +kernel)
  have := ((w (adm 10 0 [1] [])).2.2.2.2.2.2.2.2.1 ⟨⟨(by decide +kernel), (by decide +kernel), (by decide +kernel), (by decide +kernel), (by decide +kernel), (by decide +kernel), (by decide +kernel)⟩, (by decide +kernel)⟩ (by decide +kernel)).1 (by decide +kernel)
  have := ((w (adm 10 0 [15] [])).2.2.2.2.2.2.2.2.1 ⟨⟨(by decide +kernel), (by decide +kernel), (by decide +kernel), (by decide +kernel), (by decide +kernel), (by decide +kernel), (by decide +kernel)⟩, (by decide +kernel)⟩ (by decide +kernel)).2 (by decide +kernel)
  let c := adm 12 0 [] []
  have := ((w c).2.2.2.2.2.2.2.2.2.1 ⟨⟨(by decide +kernel), (by decide +kernel), (by decide +kernel), (by decide +kernel), (by decide +kernel), (by decide +kernel), (by decide +kernel)⟩, (by decide +kernel)⟩).1 (by decide +kernel) (by decide +kernel)
  let k : Ctrl := { ctrl64 with aers := [1, 2, 3, 4, 5, 6, 7, 8] }
  have := ((h (alone { host served c with hq.ctrls := [(64, k)] }) 9 c k).2.2.2.2.2.2.2.2.2.1 ⟨⟨(by decide +kernel), (by decide +kernel), (by decide +kernel), (by decide +kernel), (by decide +kernel), (by decide +kernel), (by decide +kernel)⟩, (by decide +kernel)⟩).2 (by decide +kernel)
  have := (w (adm 0x18 0 [] [])).2.2.2.2.2.2.2.2.2.2 ⟨⟨(by decide +kernel), (by decide +kernel), (by decide +kernel), (by decide +kernel), (by decide +kernel), (by decide +kernel), (by decide +kernel)⟩, (by decide +kernel)⟩
  trivial

theorem witness_NvmCommands_data (h : Obligations.NvmCommands) : True := by
  have w := fun c => h (alone (host served c)) 9 c (space 0 0)
  have r : ∀ d c x op stage, d.cmd 9 = some c → d.isAdmin c = false → sqeOp c.sqe = op → stage ≤ c.stage → c.stage ≠ 3 →
      d.answerDown c = false → c.clean false = true → d.nsOf c = some x → x.kind ≤ 2 → Dev.readyNs d 9 op stage c x :=
    fun _ _ _ _ _ a b e f g i j k l => ⟨⟨a, b, e, f, g, i, j⟩, k, l⟩
  have := (w (io 1 2 [15, 0, 0] [])).1 (r _ _ _ _ _ (by decide +kernel) (by decide +kernel) (by decide +kernel) (by decide +kernel) (by decide +kernel) (by decide +kernel) (by decide +kernel) (by decide +kernel) (by decide +kernel)) (by decide +kernel) (by decide +kernel) (by decide +kernel) (by decide +kernel) (by decide +kernel) (by decide +kernel) (by decide +kernel)
  have := (w (io 2 2 [0, 0, 15] [])).2.1 (r _ _ _ _ _ (by decide +kernel) (by decide +kernel) (by decide +kernel) (by decide +kernel) (by decide +kernel) (by decide +kernel) (by decide +kernel) (by decide +kernel) (by decide +kernel)) (by decide +kernel) (by decide +kernel) (by decide +kernel)
  have e := h (alone { host served (io 5 2 [127] (zeros 512)) with hq.ns := [(65538, space 0 1)] }) 9 (io 5 2 [127] (zeros 512)) (space 0 1)
  have := e.2.2.1 (r _ _ _ _ _ (by decide +kernel) (by decide +kernel) (by decide +kernel) (by decide +kernel) (by decide +kernel) (by decide +kernel) (by decide +kernel) (by decide +kernel) (by decide +kernel)) (by decide +kernel) (by decide +kernel) (by decide +kernel) (by decide +kernel) (by decide +kernel) (by decide +kernel)
  have := (w (io 0xC 2 [0, 0, 15] [])).2.2.2.1 (r _ _ _ _ _ (by decide +kernel) (by decide +kernel) (by decide +kernel) (by decide +kernel) (by decide +kernel) (by decide +kernel) (by decide +kernel) (by decide +kernel) (by decide +kernel)) (by decide +kernel) (by decide +kernel)
  have := (w (io 8 2 [0, 0, 15] [])).2.2.2.2.1 (r _ _ _ _ _ (by decide +kernel) (by decide +kernel) (by decide +kernel) (by decide +kernel) (by decide +kernel) (by decide +kernel) (by decide +kernel) (by decide +kernel) (by decide +kernel)) (by decide +kernel) (by decide +kernel) (by decide +kernel)
  have := ((w (io 9 2 [0, 3] (zeros 16))).2.2.2.2.2.1 (r _ _ _ _ _ (by decide +kernel) (by decide +kernel) (by decide +kernel) (by decide +kernel) (by decide +kernel) (by decide +kernel) (by decide +kernel) (by decide +kernel) (by decide +kernel)) (by decide +kernel) (by decide +kernel) (by decide +kernel) (by decide +kernel) (by decide +kernel) (by decide +kernel)).1 (by decide +kernel)
  have := ((w (io 9 2 [0, 4] (zeros 4 ++ leBytes 4 1 ++ leBytes 8 15))).2.2.2.2.2.1 (r _ _ _ _ _ (by decide +kernel) (by decide +kernel) (by decide +kernel) (by decide +kernel) (by decide +kernel) (by decide +kernel) (by decide +kernel) (by decide +kernel) (by decide +kernel)) (by decide +kernel) (by decide +kernel) (by decide +kernel) (by decide +kernel) (by decide +kernel)
    (by decide +kernel)).2 (by decide +kernel) (by decide +kernel)
  have := (w (io 0 2 [] [])).2.2.2.2.2.2.1 ⟨(by decide +kernel), (by decide +kernel), (by decide +kernel), (by decide +kernel), (by decide +kernel), (by decide +kernel), (by decide +kernel)⟩ (by decide +kernel) (by decide +kernel) (by decide +kernel)
  have := (w (io 0xFF 2 [] [])).2.2.2.2.2.2.2 (by decide +kernel) (by decide +kernel) (by decide +kernel)
  trivial

/-- A command on a namespace reaches its row. -/
theorem ns_ready (d : Dev) (c : HCmd) (x : Namespace) (op stage : Nat) (h1 : d.cmd 9 = some c) (h2 : d.isAdmin c = false)
    (h3 : sqeOp c.sqe = op) (h4 : stage ≤ c.stage) (h5 : c.stage ≠ 3) (h6 : d.answerDown c = false) (h7 : c.clean false = true)
    (h8 : d.nsOf c = some x) (h9 : x.kind ≤ 2) : d.readyNs 9 op stage c x := ⟨⟨h1, h2, h3, h4, h5, h6, h7⟩, h8, h9⟩

/-- Keys of a reservation command: the current one and the new one. -/
def keys (a b : Nat) : List Byte := leBytes 8 a ++ leBytes 8 b
/-- Host `host`, registered with key 5, and another one; the holder. -/
def registered (c : HCmd) (holder : Option (List Byte)) : Dev :=
  { host served c with hq.resv := [(65538, ⟨1, [(List.replicate 16 1, 5), (List.replicate 16 2, 6)], holder⟩)] }

theorem witness_ReservationCommands (h : Obligations.ReservationCommands) : True := by
  have w := fun c o => h (alone (registered c o)) 9 c (space 0 0)
  have := (h (alone (host served (io 0xD 2 [] (keys 0 5)))) 9 (io 0xD 2 [] (keys 0 5)) (space 0 0) (by decide +kernel) (by decide +kernel)).1
    (ns_ready _ _ _ _ _ (by decide +kernel) (by decide +kernel) (by decide +kernel) (by decide +kernel) (by decide +kernel) (by decide +kernel) (by decide +kernel) (by decide +kernel) (by decide +kernel)) (by decide +kernel) (by decide +kernel) (by decide +kernel) (by decide +kernel)
  let c := io 0x11 2 [0x100] (keys 5 0)
  have := ((w c none (by decide +kernel) (by decide +kernel)).2.1 (ns_ready _ _ _ _ _ (by decide +kernel) (by decide +kernel) (by decide +kernel) (by decide +kernel) (by decide +kernel) (by decide +kernel) (by decide +kernel) (by decide +kernel) (by decide +kernel)) (by decide +kernel) (by decide +kernel) (by decide +kernel) (by decide +kernel) (by decide +kernel) (by decide +kernel) (by decide +kernel)).1 (by decide +kernel)
  have := ((w c (some (List.replicate 16 1)) (by decide +kernel) (by decide +kernel)).2.1 (ns_ready _ _ _ _ _ (by decide +kernel) (by decide +kernel) (by decide +kernel) (by decide +kernel) (by decide +kernel) (by decide +kernel) (by decide +kernel) (by decide +kernel) (by decide +kernel)) (by decide +kernel) (by decide +kernel) (by decide +kernel) (by decide +kernel) (by decide +kernel) (by decide +kernel) (by decide +kernel)).2.1 (by decide +kernel)
  have := ((w c (some (List.replicate 16 2)) (by decide +kernel) (by decide +kernel)).2.1 (ns_ready _ _ _ _ _ (by decide +kernel) (by decide +kernel) (by decide +kernel) (by decide +kernel) (by decide +kernel) (by decide +kernel) (by decide +kernel) (by decide +kernel) (by decide +kernel)) (by decide +kernel) (by decide +kernel) (by decide +kernel) (by decide +kernel) (by decide +kernel) (by decide +kernel) (by decide +kernel)).2.2 (List.replicate 16 2)
    (by decide +kernel) (by decide +kernel)
  let c := io 0x15 2 [0x100] (keys 5 0)
  have := ((w c (some (List.replicate 16 1)) (by decide +kernel) (by decide +kernel)).2.2.1 (ns_ready _ _ _ _ _ (by decide +kernel) (by decide +kernel) (by decide +kernel) (by decide +kernel) (by decide +kernel) (by decide +kernel) (by decide +kernel) (by decide +kernel) (by decide +kernel)) (by decide +kernel) (by decide +kernel) (by decide +kernel) (by decide +kernel) (by decide +kernel) (by decide +kernel)).1 (by decide +kernel)
  have := ((w c none (by decide +kernel) (by decide +kernel)).2.2.1 (ns_ready _ _ _ _ _ (by decide +kernel) (by decide +kernel) (by decide +kernel) (by decide +kernel) (by decide +kernel) (by decide +kernel) (by decide +kernel) (by decide +kernel) (by decide +kernel)) (by decide +kernel) (by decide +kernel) (by decide +kernel) (by decide +kernel) (by decide +kernel) (by decide +kernel)).2 (by decide +kernel)
  have := (w (io 0xE 2 [262143, 1] []) none (by decide +kernel) (by decide +kernel)).2.2.2 (ns_ready _ _ _ _ _ (by decide +kernel) (by decide +kernel) (by decide +kernel) (by decide +kernel) (by decide +kernel) (by decide +kernel) (by decide +kernel) (by decide +kernel) (by decide +kernel)) (by decide +kernel) (by decide +kernel)
  trivial

/-- A catalog record of a stored frame of namespace 1 (R193). -/
def catalogued : List Byte :=
  leBytes 8 1000 ++ leBytes 4 40 ++ leBytes 2 4095 ++ leBytes 1 1 ++ leBytes 1 1 ++ zeros 16 ++ leBytes 8 3 ++ leBytes 4 1 ++ zeros 4 ++
    leBytes 4 32 ++ zeros 12
/-- A Key Value command with a key of 16 bytes. -/
def kv (op : Nat) (w10 : Nat) (key : List Byte) : HCmd :=
  { io op 3 [] [] with
    sqe := leBytes 4 (op + 7 * 65536) ++ leBytes 4 3 ++ key.take 8 ++ zeros 24 ++ leBytes 4 w10 ++ leBytes 4 16 ++ zeros 8 ++ key.drop 8 }
def viewed (c : HCmd) : Dev := { host served c with cap.catalog := [(1, [catalogued])] }

theorem witness_ViewCommands (h : Obligations.ViewCommands) : True := by
  have w := fun c => h (alone (viewed c)) 9 c (space 2 0) rfl
  have := ((w (kv 0x14 0 (kvKey catalogued))).1 (ns_ready _ _ _ _ _ (by decide +kernel) (by decide +kernel) (by decide +kernel) (by decide +kernel) (by decide +kernel) (by decide +kernel) (by decide +kernel) (by decide +kernel) (by decide +kernel)) (by decide +kernel)).1 (by decide +kernel)
  have := ((w (kv 0x14 0 (zeros 16))).1 (ns_ready _ _ _ _ _ (by decide +kernel) (by decide +kernel) (by decide +kernel) (by decide +kernel) (by decide +kernel) (by decide +kernel) (by decide +kernel) (by decide +kernel) (by decide +kernel)) (by decide +kernel)).2 (by decide +kernel)
  have := (w (kv 2 0 (kvKey catalogued))).2.1 catalogued (space 1 0) (ns_ready _ _ _ _ _ (by decide +kernel) (by decide +kernel) (by decide +kernel) (by decide +kernel) (by decide +kernel) (by decide +kernel) (by decide +kernel) (by decide +kernel) (by decide +kernel)) (by decide +kernel) (by decide +kernel) (by decide +kernel)
  have := (w (kv 6 24 (kvKey catalogued))).2.2.1 (ns_ready _ _ _ _ _ (by decide +kernel) (by decide +kernel) (by decide +kernel) (by decide +kernel) (by decide +kernel) (by decide +kernel) (by decide +kernel) (by decide +kernel) (by decide +kernel)) (by decide +kernel)
  have := (w (kv 1 0 (zeros 16))).2.2.2.1 (ns_ready _ _ _ _ _ (by decide +kernel) (by decide +kernel) (by decide +kernel) (by decide +kernel) (by decide +kernel) (by decide +kernel) (by decide +kernel) (by decide +kernel) (by decide +kernel))
  have := (w (kv 0x10 0 (zeros 16))).2.2.2.2 (ns_ready _ _ _ _ _ (by decide +kernel) (by decide +kernel) (by decide +kernel) (by decide +kernel) (by decide +kernel) (by decide +kernel) (by decide +kernel) (by decide +kernel) (by decide +kernel))
  trivial

/-! ## Gecko -/

/-- An entry that matches every key. -/
def entry (valid : Bool) (res : Nat) : GEntry := ⟨0, 0, BitVec.ofNat 32 res, valid, false, false, false⟩
/-- Partition 63 of instance 0 at indices 8 to 15, with these entries. -/
def gecko (es : AMap GEntry) : Dev :=
  (((({ served with gk.entries := es } : Dev).wr .GKO_PART_BASE_FIRST 8 63).wr .GKO_PART_BASE_PRESENT 1 63).wr .GKO_PART_SIZE 8
    63).wr .GKO_PART_BASE_INSTANCE 0 63
def handle : Handle := ⟨63, 0, 0, 1, 0, false⟩
def stepping (es : AMap GEntry) : Dev := { gecko es with gk.handles := [(275, handle)] }

theorem witness_GeckoUpdates_updates (h : Obligations.GeckoUpdates) : True := by
  have w := h.1 (alone (gecko [])) .manager 275 63 7#20 (by decide +kernel) (by decide +kernel) (by decide +kernel) (by decide +kernel) (by decide +kernel)
  have := w.2.2.2.1 (by decide +kernel)
  have := w.2.2.2.2.1 (by decide +kernel) (by decide +kernel)
  have := w.2.2.2.2.2 (by decide +kernel) (by decide +kernel) (by decide +kernel)
  trivial

theorem witness_GeckoUpdates_steps (h : Obligations.GeckoUpdates) : True := by
  have := h.2.1 (alone (stepping [])) .manager 275 handle (by decide +kernel) (by decide +kernel) (by decide +kernel) (by decide +kernel) (by decide +kernel)
  have := h.2.2.1 (alone (gecko [])) .steward 275 (by decide +kernel) (by decide +kernel)
  have := h.2.2.2.1 (alone (stepping [(9, entry true 1), (10, entry true 2), (11, entry true 3)])) .manager 275 handle 10 11 []
    (by decide +kernel) (by decide +kernel) (by decide +kernel) (by decide +kernel) (by decide +kernel) (by decide +kernel)
  have := h.2.2.2.2.1 (alone (timed (stepping []) 1000000000000)) 275 handle (by decide +kernel) (by decide +kernel) (by decide +kernel) (by decide +kernel)
  have := h.2.2.2.2.2.1 (alone { gecko [] with gk.moves := [⟨63, 8, 2 ^ 20 - 1⟩] }) 63 ⟨63, 8, 2 ^ 20 - 1⟩ (by decide +kernel) (by decide +kernel) (by decide +kernel)
  have := h.2.2.2.2.2.2 (alone (gecko [])) 15 63 (by decide +kernel)
  trivial

theorem witness_GeckoSearchLowest (h : Obligations.GeckoSearchLowest) : True := by
  have := (h (alone (gecko [(8, entry true 1), (15, entry true 2)])) .manager 275 63 (by decide +kernel) (by decide +kernel) (by decide +kernel) (by decide +kernel)).1 8 (by decide +kernel) (by decide +kernel) (by decide +kernel)
  have := (h (alone (gecko [])) .steward 272 63 (by decide +kernel) (by decide +kernel) (by decide +kernel) (by decide +kernel)).2 (fun i => Bool.and_false _)
  trivial

theorem witness_GeckoKeepsEntries (h : Obligations.GeckoKeepsEntries) : True := by
  have := h (alone (gecko [(8, entry true 1)])) _ .manager 275 63 7#20 .none [] (.parityScan []) (by decide +kernel) (by decide +kernel) rfl
  trivial

/-! ## Cores -/

/-- A core in supervisor mode that runs a work item of instance 0, with its last 32 bytes of data memory in G1, 32 in G2 and
another address in G3. -/
def core : PCore :=
  { coreInit with
    assigned := true, st := 3, evm := 0xFFFFFFFF, pc := 0x100, wi := some ⟨0, 0, 0, 0, none, 0⟩
    g := [(1, 0x1FFE0), (2, 32), (3, 0x1FF00)] }
/-- The last core so, with 100 ns of budget. -/
def cored (x : PCore) : Dev := { served.wr .CORE_BUDGET 100 271 with cor.cores := [(271, x)] }
def alone271 : Bundle := ⟨271, [], [], .none⟩

theorem about_core (y : Syl) (h : (core.sylLegal true y && !(cored core).privFault 271 y) = true) : (cored core).about alone271 y := by
  simp only [Bool.and_eq_true, Bool.not_eq_true'] at h
  exact ⟨rfl, rfl, rfl, (by decide +kernel), (by decide +kernel), h.1, h.2⟩

theorem witness_PypoizInteger (h : Obligations.PypoizInteger) : True := by
  let s := alone (cored core)
  have := (h.1 alone271 true 63 63 63).1 s (about_core _ (by decide +kernel))
  have := (h.1 alone271 true 63 63 63).2.2.2.2.2.2.2.2.2.2.2.2.2.2.2 s (about_core _ (by decide +kernel))
  have := (h.2.1 alone271 true 63 63 2047).1 s (about_core _ (by decide +kernel))
  have := (h.2.1 alone271 true 63 63 1024).2.2.2 s (about_core _ (by decide +kernel))
  have := (h.2.2.1 alone271 false 63 63 63).1 s (about_core _ (by decide +kernel))
  have := (h.2.2.1 alone271 false 63 63 63).2.2 s (about_core _ (by decide +kernel))
  have := (h.2.2.2.1 alone271 true 5 7 63 63 1024).1 s (about_core _ (by decide +kernel))
  have := (h.2.2.2.1 alone271 true 0 1 63 63 1023).2 s (about_core _ (by decide +kernel))
  have := h.2.2.2.2.1 alone271 true 63 63 63 7 s (about_core _ (by decide +kernel))
  have := (h.2.2.2.2.2.1 alone271 true 63 63).1 s (about_core _ (by decide +kernel))
  have := (h.2.2.2.2.2.1 alone271 true 63 63).2.2.2.2.2.2.2 s (about_core _ (by decide +kernel))
  have := (h.2.2.2.2.2.2.1 alone271 true 7 7 7).1 s (about_core _ (by decide +kernel))
  have := (h.2.2.2.2.2.2.1 alone271 true 1 7 7).2.2.2 s (about_core _ (by decide +kernel))
  have := (h.2.2.2.2.2.2.2.1 alone271 true 63 63).1 s (about_core _ (by decide +kernel))
  have := (h.2.2.2.2.2.2.2.1 alone271 true 63 63).2.2.2.2.2.2.2.2.2.1 s (about_core _ (by decide +kernel))
  have := (h.2.2.2.2.2.2.2.1 alone271 true 63 63).2.2.2.2.2.2.2.2.2.2.2 s (about_core _ (by decide +kernel))
  have := h.2.2.2.2.2.2.2.2.1 alone271 true 63 s (about_core _ (by decide +kernel))
  have := (h.2.2.2.2.2.2.2.2.2 alone271 true 63 0x10000 0xFFFF).1 s (about_core _ (by decide +kernel))
  have := (h.2.2.2.2.2.2.2.2.2 alone271 true 63 0x10000 0xFFFF).2.2.2.2.2 s (about_core _ (by decide +kernel))
  trivial

theorem witness_PypoizVector (h : Obligations.PypoizVector) : True := by
  let s := alone (cored core)
  have := (h.1 alone271 31 31 31 3).1 s (about_core _ (by decide +kernel))
  have := (h.1 alone271 31 31 31 0).2.2.2.2.2.2.2.2.2.2.2.2 s (about_core _ (by decide +kernel))
  have := (h.2.1 alone271 31 31 31 31).1 s (about_core _ (by decide +kernel))
  have := (h.2.1 alone271 31 31 31 31).2.2.2 s (about_core _ (by decide +kernel))
  have := (h.2.2.1 alone271 31 31 0 7).1 s (about_core _ (by decide +kernel))
  have := (h.2.2.1 alone271 31 31 3 63).2.2 s (about_core _ (by decide +kernel))
  have := (h.2.2.2.1 alone271 31 63 0 31).2.1 s (about_core _ (by decide +kernel))
  have := (h.2.2.2.1 alone271 31 63 3 3).2.2 s (about_core _ (by decide +kernel))
  have := h.2.2.2.2 alone271 31 31 1 2 s (about_core _ (by decide +kernel))
  trivial

/-- An ADD beside a SUB that reads the register that the ADD writes. -/
theorem witness_BundleActsAtOnce (h : Obligations.BundleActsAtOnce) : True := by
  let y : Syl := .alu false .add 5 1 2
  let z : Syl := .alu true .sub 1 5 3
  have := h (alone (cored core)) ⟨271, [], [z.encode true], .none⟩ false 5 1 2 [y, z] (by decide +kernel) (by decide +kernel) (by decide +kernel) (by decide +kernel) (by decide +kernel) (by decide +kernel)
  trivial

/-- The core before a syllable that the mode or state given allows. -/
theorem about_in (x : PCore) (y : Syl)
    (h : (x.runs && (cored x).fetchOk 271 x.pc.toNat && x.sylLegal true y && !(cored x).privFault 271 y) = true) :
    (cored x).about alone271 y := by
  simp only [Bool.and_eq_true, Bool.not_eq_true'] at h
  exact ⟨rfl, rfl, rfl, h.1.1.1, h.1.1.2, h.1.2, h.2⟩

theorem witness_PypoizControl (h : Obligations.PypoizControl) : True := by
  let s := alone (cored core)
  let x : PCore := { core with ev := 1 }
  have := h.1 s alone271 7 1 0x40000 (about_core _ (by decide +kernel))
  have := h.1 s alone271 0 0 0x3FFFF (about_core _ (by decide +kernel))
  have := (h.2.1 s alone271 0x40000 63).1 (about_core _ (by decide +kernel))
  have := (h.2.1 s alone271 0 63).2.1 (about_core _ (by decide +kernel))
  have := (h.2.1 s alone271 0 63).2.2.1 (about_core _ (by decide +kernel))
  have := (h.2.1 s alone271 0 63).2.2.2 (about_core _ (by decide +kernel))
  have := h.2.2.1 alone271 3 s (about_core _ (by decide +kernel))
  have := (h.2.2.2.1 s alone271 63 1).1 (about_core _ (by decide +kernel))
  have := (h.2.2.2.1 s alone271 63 1).2 (about_core _ (by decide +kernel))
  have := (h.2.2.2.1 (alone (cored x)) alone271 63 1).1 (about_in _ _ (by decide +kernel))
  have := h.2.2.2.2.1 (alone (cored { core with wait := some ⟨63, none⟩, ev := 1 })) 271 63 none (by decide +kernel) (.inl (by decide +kernel))
  have := h.2.2.2.2.1 (alone (cored { core with wait := some ⟨63, some 0⟩ })) 271 63 (some 0) (by decide +kernel) (.inr ⟨0, (by decide +kernel), (by decide +kernel)⟩)
  have := h.2.2.2.2.2.1 s alone271 1 ⟨0, 0, 0, 0, none, 0⟩ (about_core _ (by decide +kernel)) (by decide +kernel)
  have := h.2.2.2.2.2.2.1 s alone271 255 (about_core _ (by decide +kernel))
  have := h.2.2.2.2.2.2.2.1 s alone271 (about_core _ (by decide +kernel))
  have := h.2.2.2.2.2.2.2.1 (alone (cored { core with xfers := [⟨7, 0, 0, 32⟩] })) alone271 (about_in _ _ (by decide +kernel))
  have := h.2.2.2.2.2.2.2.2.1 s alone271 none (about_core _ (by decide +kernel)) (by decide +kernel)
  have := h.2.2.2.2.2.2.2.2.2 (alone (((cored core).wr .CORE_EXC_EREP 1 271).wr .CORE_ERC 2 271)) alone271 none
    ⟨rfl, rfl, rfl, (by decide +kernel), (by decide +kernel), (by decide +kernel), (by decide +kernel)⟩ (by decide +kernel) (by decide +kernel) (by decide +kernel)
  trivial

theorem witness_PypoizMemory_loads (h : Obligations.PypoizMemory) : True := by
  let s := alone (cored core)
  have w := fun bs => (h.1 s alone271 63 1 0 bs)
  have := (w (zeros 1)).1 ⟨(by decide +kernel), (by decide +kernel), .loc 0x1FFE0, (by decide +kernel), (by decide +kernel)⟩ |>.1 (about_core _ (by decide +kernel))
  have := (w (zeros 2)).2.1 ⟨(by decide +kernel), (by decide +kernel), .loc 0x1FFE0, (by decide +kernel), (by decide +kernel)⟩ |>.2 (about_core _ (by decide +kernel))
  have := (w (zeros 4)).2.2.1 ⟨(by decide +kernel), (by decide +kernel), .loc 0x1FFE0, (by decide +kernel), (by decide +kernel)⟩ |>.2 (about_core _ (by decide +kernel))
  have := (h.1 s alone271 63 1 3 (zeros 8)).2.2.2 ⟨(by decide +kernel), (by decide +kernel), .loc 0x1FFF8, (by decide +kernel), (by decide +kernel)⟩ (about_core _ (by decide +kernel))
  have := h.2.1 s alone271 31 1 0 (zeros 32) ⟨(by decide +kernel), (by decide +kernel), .loc 0x1FFE0, (by decide +kernel), (by decide +kernel)⟩ (about_core _ (by decide +kernel))
  have := h.2.2.1 s alone271 63 1 0 (zeros 8) ⟨(by decide +kernel), (by decide +kernel), .loc 0x1FFE0, (by decide +kernel), (by decide +kernel)⟩ (about_core _ (by decide +kernel))
  trivial

theorem witness_PypoizMemory_stores (h : Obligations.PypoizMemory) : True := by
  let s := alone (cored core)
  have := (h.2.2.2.1 s alone271 63 1 31 (.loc 0x1FFFF)).1 ⟨(by decide +kernel), (by decide +kernel)⟩ (about_core _ (by decide +kernel))
  have := (h.2.2.2.1 s alone271 63 1 15 (.loc 0x1FFFE)).2.1 ⟨(by decide +kernel), (by decide +kernel)⟩ (about_core _ (by decide +kernel))
  have := (h.2.2.2.1 s alone271 63 1 7 (.loc 0x1FFFC)).2.2.1 ⟨(by decide +kernel), (by decide +kernel)⟩ (about_core _ (by decide +kernel))
  have := (h.2.2.2.1 s alone271 63 1 3 (.loc 0x1FFF8)).2.2.2 ⟨(by decide +kernel), (by decide +kernel)⟩ (about_core _ (by decide +kernel))
  have := h.2.2.2.2.1 s alone271 31 1 0 (.loc 0x1FFE0) (by decide +kernel) (by decide +kernel) (about_core _ (by decide +kernel))
  have a := h.2.2.2.2.2.1 s alone271 63 1 2 (zeros 8) (.loc 0x1FFE0) ⟨(by decide +kernel), (by decide +kernel), .loc 0x1FFE0, (by decide +kernel), (by decide +kernel)⟩ (by decide +kernel) (by decide +kernel) (by decide +kernel)
  have := a.1 (about_core _ (by decide +kernel))
  have := a.2.1 (about_core _ (by decide +kernel))
  have := a.2.2 (about_core _ (by decide +kernel))
  have := h.2.2.2.2.2.2.1 s alone271 2 1 3 7 (.loc 0x1FF00) (.loc 0x1FFE0) (by decide +kernel) (by decide +kernel) (by decide +kernel) (by decide +kernel) (by decide +kernel) (by decide +kernel) (by decide +kernel) (.inl (by decide +kernel)) (by decide +kernel) (about_core _ (by decide +kernel))
  trivial

/-- G3 = 0x1FF00 with word offset 0 is an I/O address of block sys. -/
theorem witness_PypoizMemory_io (h : Obligations.PypoizMemory) : True := by
  let s := alone (cored core)
  have := h.2.2.2.2.2.2.2.1 s alone271 63 3 0 (about_core _ (by decide +kernel)) (by decide +kernel)
  have := h.2.2.2.2.2.2.2.2.1 s alone271 63 3 0 (by decide +kernel) (about_core _ (by decide +kernel))
  have := (h.2.2.2.2.2.2.2.2.2 s alone271 63 2 2 (by decide +kernel)).1 (about_core _ (by decide +kernel))
  have := (h.2.2.2.2.2.2.2.2.2 s alone271 63 2 2 (by decide +kernel)).2 (about_core _ (by decide +kernel))
  trivial

/-- A core with an ADD, alone in its bundle, after the one it is at. -/
def repeats : PCore :=
  { core with imem := ((leBytes 4 ((Syl.alu false .add 5 5 2).encode true).toNat).zipIdx 0x104).map (fun p => (p.2, p.1)) }

theorem witness_PypoizRepeats (h : Obligations.PypoizRepeats) : True := by
  have w := fun i n => h (alone (cored repeats)) alone271 i n
  have := w false (.const 64) 64 (.alu false .add 5 5 2) (about_in _ _ (by decide +kernel)) rfl (by decide +kernel) (by decide +kernel) (by decide +kernel) (by decide +kernel) (by decide +kernel)
  have := w true (.reg 2) 32 (.alu false .add 5 5 2) (about_in _ _ (by decide +kernel)) (by decide +kernel) (by decide +kernel) (by decide +kernel) (by decide +kernel) (by decide +kernel) (by decide +kernel)
  have := w true (.const 65535) 65535 (.alu false .add 5 5 2) (about_in _ _ (by decide +kernel)) rfl (by decide +kernel) (by decide +kernel) (by decide +kernel) (by decide +kernel) (by decide +kernel)
  trivial

theorem witness_ExceptionEntry (h : Obligations.ExceptionEntry) : True := by
  have := (h (cored core) 271 31 (2 ^ 32 - 1) (2 ^ 64 - 1) (by decide +kernel) (by decide +kernel) (by decide +kernel) (by decide +kernel) (by decide +kernel)).2.2.2.2.2.2.2.2.2.2.1 (by decide +kernel)
  have := (h (cored { core with st := 2 }) 271 31 (2 ^ 32 - 1) (2 ^ 64 - 1) (by decide +kernel) (by decide +kernel) (by decide +kernel) (by decide +kernel) (by decide +kernel)).2.2.2.2.2.2.2.2.2.2.2 ⟨0, 0, 0, 0, none, 0⟩ (by decide +kernel) (by decide +kernel)
  trivial

theorem witness_CoreHappenings_events (h : Obligations.CoreHappenings) : True := by
  have := h.1.1 (alone (cored { core with xfers := [⟨7, 0x1FFE0, 0x1FF00, 32⟩] })) 271 7 ⟨7, 0x1FFE0, 0x1FF00, 32⟩ (.loc 0x1FF00)
    (.loc 0x1FFE0) (zeros 32) (by decide +kernel) (by decide +kernel) (by decide +kernel) (by decide +kernel) (by decide +kernel)
  have := h.1.2.1 (alone (cored { core with st := 2 })) 271 ⟨0, 0, 0, 0, none, 0⟩ (by decide +kernel) (by decide +kernel) (by decide +kernel) (by decide +kernel) (by decide +kernel)
  have := h.1.2.2 (alone (cored core)) 271 ⟨0, 0, 0, 0, none, 0⟩ (by decide +kernel)
  trivial

theorem witness_CoreHappenings_faults (h : Obligations.CoreHappenings) : True := by
  have := h.2.1 (alone (cored core)) alone271 0#32 (by decide +kernel) (by decide +kernel) (by decide +kernel) (by decide +kernel) (by decide +kernel) (by decide +kernel) (by decide +kernel)
  have w := fun x n sel => h.2.2 (alone (cored x)) alone271 (.const n) true sel 63
  have := (w core 65 63 (by decide +kernel) (by decide +kernel) (by decide +kernel) (by decide +kernel) (by decide +kernel)).1 (by decide +kernel)
  have := (w core 0 63 (by decide +kernel) (by decide +kernel) (by decide +kernel) (by decide +kernel) (by decide +kernel)).2.1 (.inl (by decide +kernel))
  have := (w core 0 4 (by decide +kernel) (by decide +kernel) (by decide +kernel) (by decide +kernel) (by decide +kernel)).2.1 (.inr (by decide +kernel))
  have := (w { core with st := 5 } 0 0 (by decide +kernel) (by decide +kernel) (by decide +kernel) (by decide +kernel) (by decide +kernel)).2.2.1 (by decide +kernel)
  have := (w { core with st := 2 } 0 0 (by decide +kernel) (by decide +kernel) (by decide +kernel) (by decide +kernel) (by decide +kernel)).2.2.2 (by decide +kernel)
  trivial

/-- An odd address in G1, for every access. -/
theorem witness_MisalignedAccess (h : Obligations.MisalignedAccess) : True := by
  let x : PCore := { core with g := [(1, 0x1FFE1), (2, 32)] }
  have w := h (alone (cored x)) alone271 63 1 2 31 0
  have := w.1 (about_in _ _ (by decide +kernel)) (by decide +kernel)
  have := w.2.1 (about_in _ _ (by decide +kernel)) (by decide +kernel)
  have := w.2.2.1 (about_in _ _ (by decide +kernel)) (by decide +kernel)
  have := w.2.2.2.1 (about_in _ _ (by decide +kernel)) (by decide +kernel)
  have := w.2.2.2.2.1 (about_in _ _ (by decide +kernel)) (by decide +kernel)
  have := w.2.2.2.2.2.1 (about_in _ _ (by decide +kernel)) (by decide +kernel)
  have := w.2.2.2.2.2.2.1 (about_in _ _ (by decide +kernel)) (by decide +kernel)
  have := w.2.2.2.2.2.2.2.1 (about_in _ _ (by decide +kernel)) (by decide +kernel)
  have := w.2.2.2.2.2.2.2.2.1 (about_in _ _ (by decide +kernel)) (by decide +kernel)
  have := w.2.2.2.2.2.2.2.2.2.1 (about_in _ _ (by decide +kernel)) (by decide +kernel)
  have := w.2.2.2.2.2.2.2.2.2.2.1 (about_in _ _ (by decide +kernel)) (by decide +kernel)
  have := w.2.2.2.2.2.2.2.2.2.2.2.1 (about_in _ _ (by decide +kernel)) (by decide +kernel)
  have := w.2.2.2.2.2.2.2.2.2.2.2.2.1 (about_in _ _ (by decide +kernel)) (by decide +kernel)
  have := w.2.2.2.2.2.2.2.2.2.2.2.2.2 (about_in _ _ (by decide +kernel)) (by decide +kernel)
  trivial

/-! ## Eft and stacked memory -/

/-- The last task enabled, of instance 1, with event 31 enabled and three boundaries of delay. -/
def tasked : Dev :=
  ((((served.wr .EFT_TASK_CFG_STATE 2 65535).wr .EFT_TASK_INFO_INSTANCE 1 65535).wr .EFT_TASK_MASK 0x80000000 65535).wr
    .EFT_TASK_CFG_CONCURRENCY 1 65535).wr .EFT_TASK_DELAY 3 65535
/-- A core of the last group that waits for work. -/
def coreFree : PCore := { coreInit with assigned := true, group := some 63 }
/-- The last task ready since the beginning, and a free core of its group. -/
def tasksReady (x : Task) : Dev :=
  { tasked.wr .EFT_TASK_CFG_GROUP 63 65535 with cor.cores := [(271, coreFree)], eft.tasks := [(65535, { x with readyOrd := some 0 })] }
def postNone : Post := ⟨false, false, [], 0, 0, 0, 0, [], 0x0201, 0, false, none⟩

theorem witness_EftSignals (h : Obligations.EftSignals) : True := by
  have := h.1 (alone tasked) .manager 65535 31 (by decide +kernel) (by decide +kernel)
  have := this.2.2.1 (by decide +kernel)
  have := h.2 (alone tasked) .steward 65534 0 (by decide +kernel) (.clear .steward 65534 0 true) (by decide +kernel)
  trivial

/-- Memory of instance 1, and of the manager above it. -/
def ruled : Dev := { tasked.wr .EFT_INS_CFG_WI_QUOTA 1 1 with
  mem.regions := [⟨0, 8, 1, 1, 0, 0, 65536, 65536⟩, ⟨1, 8, 0, 1, 0, 65536, 65536, 65536⟩]
  ram := [(66048, 0xFF#8), (66049, 0xFF#8)] }

theorem witness_EftCommands (h : Obligations.EftCommands) : True := by
  have := h.1 (alone ruled) .steward 1032 0 rfl (by decide +kernel) (by decide +kernel) (by decide +kernel)
  have := h.2.1 (alone tasked) .steward 65535 0x10000000 (by decide +kernel) (by decide +kernel)
  have := h.2.2.1 (alone ((tasksReady taskInit).wr .EFT_TASK_FLAGS 0x80000000 65535)) 63 271 65535 (by decide +kernel) (by decide +kernel) (by decide +kernel)
  have := h.2.2.2.1 (alone (tasksReady { taskInit with posts := [postNone] })) 63 271 65535 postNone [] (by decide +kernel) (by decide +kernel) (by decide +kernel) (by decide +kernel)
  have := h.2.2.2.2.1 (alone (timed { tasked with eft.tasks := [(65535, { taskInit with deadline := some 10000 })] } 10000)) 10000 (by decide +kernel) (by decide +kernel) (by decide +kernel)
  have := h.2.2.2.2.2 (alone { served with eft.programs := [⟨255, 7, [], [65535], [], [], 0, 0, [], true⟩] }) 255 7
    ⟨255, 7, [], [65535], [], [], 0, 0, [], true⟩ (by decide +kernel) (by decide +kernel)
  trivial

theorem witness_DispatchPicksBest (h : Obligations.DispatchPicksBest) : True := by
  have := h (tasksReady taskInit) 63 65535 (by decide +kernel)
  trivial

/-- A bulk request of the last port for instance 1. -/
def bulk (a n : Nat) (w : Option (List Byte)) : MemReq := { port := 0, agent := 5, inst := 1, gen := 0, cls := 2, waited := 0, addr := a, write := w, len := n, corrected := false, fault := .none }

theorem witness_MemoryProtection (h : Obligations.MemoryProtection) : True := by
  have := h.1 (alone ruled) (bulk 131071 2 none) true (by decide +kernel) (by decide +kernel)
  have := h.2 (alone ruled) { bulk 0 1 none with gen := 1 } false (by decide +kernel)
  trivial

theorem witness_MemoryAccess (h : Obligations.MemoryAccess) : True := by
  have := (h (alone ruled) (bulk 65535 0 (some [7#8])) true (by decide +kernel) (by decide +kernel) (by decide +kernel) (by decide +kernel) (by decide +kernel)).1 [7#8] (by decide +kernel)
  have := (h (alone ruled) (bulk 65535 1 none) true (by decide +kernel) (by decide +kernel) (by decide +kernel) (by decide +kernel) (by decide +kernel)).2 (by decide +kernel) (by decide +kernel) (by decide +kernel)
  trivial

theorem witness_MemoryUpkeep (h : Obligations.MemoryUpkeep) : True := by
  have := h.1 (alone served) 255 63 0
  have := this.2 (by decide +kernel)
  have := h.2.2.1 (alone served) 3 85 (by decide +kernel) (by decide +kernel) (by decide +kernel)
  have := h.2.2.2.1 (alone (served.wr .MEM_STACK_HOT 1 3)) 3 83 (by decide +kernel) (by decide +kernel)
  have := h.2.2.2.2.1 (alone ruled) 1023 31 1984 true true (by decide +kernel) (by decide +kernel) (by decide +kernel)
  have := h.2.2.2.2.2.1 (alone served) 127 0 (by decide +kernel) (by decide +kernel) (by decide +kernel) (by decide +kernel) (by decide +kernel)
  trivial

theorem witness_MemoryUpkeep_2 (h : Obligations.MemoryUpkeep) : True := by
  have := h.2.2.2.2.2.2.1 (alone { served with mem.retrain := [(127, ⟨63, 1, some 5⟩)] }) 127 ⟨63, 1, some 5⟩ (by decide +kernel) (by decide +kernel) (by decide +kernel) (by decide +kernel)
  have := h.2.2.2.2.2.2.2.1 (alone { served with mem.retrain := [(127, ⟨64, 1, none⟩)] }) 127 ⟨64, 1, none⟩ 9 true (by decide +kernel)
  have := h.2.2.2.2.2.2.2.2.1 (alone { served with mem.relief := [⟨127, true, [(0, 2)], 2, 0, [], 1, 14, 0⟩] }) 127
    ⟨127, true, [(0, 2)], 2, 0, [], 1, 14, 0⟩ (by decide +kernel) (by decide +kernel) (by decide +kernel) (by decide +kernel) (by decide +kernel)
  trivial

/-! ## Check units and virtual instances -/

/-- The last check context, of instance 1. -/
def checked : Dev := ruled.wr .CHK_CTX_CFG_INSTANCE 1 1023
def feedNone : Feed := ⟨5, 0, 65536, false, 0, 0, 1, 0⟩

theorem witness_CheckCommands (h : Obligations.CheckCommands) : True := by
  have := h.1.1 (alone checked) .steward 1023 31 65535 (by decide +kernel) (by decide +kernel)
  have := h.1.2.1 (alone { checked with chk.feeds := [(1023, feedNone)] }) 1023 feedNone (by decide +kernel) (by decide +kernel) (by decide +kernel) (by decide +kernel) (by decide +kernel)
  have := h.1.2.2 (alone checked) 15 (by decide +kernel)
  have w := fun (d : Dev) (ag : Agent) => h.2 (alone d) ag 1023 true 31 65535 (.ctxFeed ag 1023 true 31 65535) (by simp)
  have := (w { checked with cor.cores := [(0, core)] } (.core 0)).1 (by decide +kernel)
  have := (w (checked.wr .CHK_CTX_CFG_STATE 1 1023) .manager).2.1 (by decide +kernel) (by decide +kernel)
  have := (w (checked.wr .CHK_CTX_CFG_STATE 3 1023) .manager).2.2 (by decide +kernel) (by decide +kernel)
  trivial

/-- The last instance enabled, with a core group of 256 cores. -/
def guest : Dev :=
  (withImage Dev.blank [⟨3, 0, [leBytes 1 0 ++ leBytes 1 255 ++ leBytes 2 0 ++ leBytes 2 256], [], []⟩]).wr .INS_STATUS_ENABLED 1 255

theorem witness_ShareCommands (h : Obligations.ShareCommands) : True := by
  have w := fun (v : W32) h1 h2 => h.1.1 (alone guest) 255 v h1 h2
  have := (w 256 (by decide +kernel) (by decide +kernel) (by decide +kernel) (by decide +kernel) (by decide +kernel) (by decide +kernel)).1 (by decide +kernel)
  have := (w 257 (by decide +kernel) (by decide +kernel) (by decide +kernel) (by decide +kernel) (by decide +kernel) (by decide +kernel)).2 (by decide +kernel)
  have := h.1.2 (alone (timed { guest with shr.waiting := [⟨255, .INS_CORES_CORES_MIN, 256⟩] } 10000)) ⟨255, .INS_CORES_CORES_MIN, 256⟩ (by decide +kernel) rfl (by decide +kernel) (by decide +kernel)
  have := h.2 (alone { guest with ev.counts := [(0xC201 * 2 ^ 24 + 255 * 16 + 15, (0, 7))], shr.second := 1, ev.alwaysOn := [] , sys.acc := 10^9 * 2^32 }) 255 15 0 7 (by decide +kernel) (by decide +kernel) (by decide +kernel) (by decide +kernel) (by decide +kernel)
  trivial

theorem witness_MailboxCommands (h : Obligations.MailboxCommands) : True := by
  have := h.1.1 (alone (guest.setIn 255 [zeros 1024])) 255 (zeros 1024) [] (by decide +kernel)
  have := h.1.2.1 (alone (guest.setOut 255 [zeros 1024])) 255 1008 0xFFFF (by decide +kernel) (by decide +kernel) (by decide +kernel) (by decide +kernel)
  have := h.1.2.2 (alone (guest.setOut 255 (List.replicate 16 (zeros 1024)))) 255 0 0 (by decide +kernel) (by decide +kernel) (by decide +kernel)
  trivial

theorem witness_MailboxCommands_host (h : Obligations.MailboxCommands) : True := by
  have w := fun (d : Dev) n => h.2.1 (alone (host d (adm 0xC0 0 [n, 65535] (zeros n)))) 9 n 65535 (adm 0xC0 0 [n, 65535] (zeros n)) ctrl64
  have := (w served 1 ⟨⟨(by decide +kernel), (by decide +kernel), (by decide +kernel), (by decide +kernel), (by decide +kernel), (by decide +kernel), (by decide +kernel)⟩, (by decide +kernel)⟩ (by decide +kernel) (by decide +kernel) (by decide +kernel) (by decide +kernel) (by decide +kernel) (by decide +kernel) (by decide +kernel)).1 (by decide +kernel)
  have := (w (served.setIn 1 (List.replicate 16 [])) 8 ⟨⟨(by decide +kernel), (by decide +kernel), (by decide +kernel), (by decide +kernel), (by decide +kernel), (by decide +kernel), (by decide +kernel)⟩, (by decide +kernel)⟩ (by decide +kernel) (by decide +kernel) (by decide +kernel) (by decide +kernel) (by decide +kernel) (by decide +kernel) (by decide +kernel)).2 (by decide +kernel)
  let c := adm 0xC1 0 [] []
  have := (h.2.2.1 (alone (host (served.setOut 1 [[1#8]]) c)) 9 c ctrl64 ⟨⟨(by decide +kernel), (by decide +kernel), (by decide +kernel), (by decide +kernel), (by decide +kernel), (by decide +kernel), (by decide +kernel)⟩, (by decide +kernel)⟩ (by decide +kernel)).1 [1#8] [] (by decide +kernel)
  have := (h.2.2.1 (alone (host served c)) 9 c ctrl64 ⟨⟨(by decide +kernel), (by decide +kernel), (by decide +kernel), (by decide +kernel), (by decide +kernel), (by decide +kernel), (by decide +kernel)⟩, (by decide +kernel)⟩ (by decide +kernel)).2 (by decide +kernel)
  let c := adm 0xC4 0 [] []
  have := h.2.2.2 (alone (host served c)) 9 c ctrl64 ⟨⟨(by decide +kernel), (by decide +kernel), (by decide +kernel), (by decide +kernel), (by decide +kernel), (by decide +kernel), (by decide +kernel)⟩, (by decide +kernel)⟩
  trivial

theorem guest_qHeld (q : Nat) : guest.qHeld q = 0 := by
  have r : ∀ f : Fld, f ≠ .INS_STATUS_ENABLED → guest.rd f q = f.reset q := fun f hf => by rw [guest, Dev.rd_wr_fld _ hf]; rfl
  rw [Dev.qHeld, Dev.qDepth, r _ (by decide +kernel), r _ (by decide +kernel), r _ (by decide +kernel)]
  simp only [Fld.reset]

theorem witness_InstanceResetCommand (h : Obligations.InstanceResetCommand) : True := by
  have := h.1 (alone guest) 255 (by decide +kernel) (by decide +kernel) (by decide +kernel) (by decide +kernel) (by decide +kernel) (by decide +kernel) (by decide +kernel) (by decide +kernel) (by decide +kernel) (by decide +kernel) (by decide +kernel) (by decide +kernel) (by decide +kernel) (by decide +kernel) guest_qHeld
  have := h.2 (alone guest) 254 (by decide +kernel)
  trivial

/-! ## Management -/

/-- A session of version 2.1 in Service, with instance 255. -/
def managed : Dev := { (guest.wr .MGT_STATUS_VERSION 0x201).wr .AVL_STATUS_MODE 2 with mgt.up := true }
/-- The way of the network port, and a request on it. -/
def net : Via := .udp cam 19277
def req (type : Nat) (b : List Byte) : List Byte := encodeRequest 0x201 type 7 b

/-- A build that finds nothing at fault and nothing present. -/
def foundAll : Found := ⟨[], true, true, true, true, [], [], [], false, []⟩

def opDone : LongOp := ⟨3, 0x60, 1, 0, 0, 0, leBytes 4 9⟩
def rec0 (n : Nat) : EvRec := ⟨n, n, 0x1001, 0, 0, []⟩

theorem witness_MgmtRequests (h : Obligations.MgmtRequests) : True := by
  have := h.1 (alone managed) net (req 1 (leBytes 2 0x100 ++ leBytes 2 0x200)) (leBytes 2 0x100 ++ leBytes 2 0x200) 0x200 (by unfold Dev.asks; decide +kernel) (by decide +kernel) (by decide +kernel) (by decide +kernel) (by decide +kernel) (by decide +kernel)
  have w := h.2.1 (alone { managed with mgt.ops := [opDone] }) net
  have := (w (req 2 (leBytes 8 3)) (leBytes 8 3) (by unfold Dev.asks; decide +kernel) (by decide +kernel)).1 opDone (by decide +kernel)
  have := (w (req 2 (leBytes 8 4)) (leBytes 8 4) (by unfold Dev.asks; decide +kernel) (by decide +kernel)).2 (by decide +kernel)
  have := h.2.2.1 (alone managed) net (req 0x10 (leBytes 4 0 ++ leBytes 2 1)) (leBytes 4 0 ++ leBytes 2 1) 1 (by unfold Dev.asks; decide +kernel) (by decide +kernel) (by decide +kernel) (by decide +kernel) (by decide +kernel) (by decide +kernel) (by decide +kernel)
  have := h.2.2.2.1 (alone managed) net (req 0x11 (leBytes 4 0 ++ leBytes 2 2 ++ zeros 8)) (leBytes 4 0 ++ leBytes 2 2 ++ zeros 8) 2 (by unfold Dev.asks; decide +kernel) (by decide +kernel) (by decide +kernel) (by decide +kernel) (by decide +kernel) (by decide +kernel) (by decide +kernel)
  have w := fun (d : Dev) t => h.2.2.2.2.1 (alone d) net (req t (leBytes 4 5 ++ leBytes 2 1)) (leBytes 4 5 ++ leBytes 2 1)
  have := (w { managed with ev.queue := [rec0 4, rec0 5], ev.next := 6 } 0x20 0 [rec0 4] [rec0 5] (by decide +kernel) (by decide +kernel) (by decide +kernel) (by decide +kernel)).1 (by unfold Dev.asks; decide +kernel) (by decide +kernel) (by decide +kernel) (by decide +kernel) (by decide +kernel)
  have := (w { managed with ev.queue := [rec0 7, rec0 8], ev.next := 9 } 0x20 2 [] [rec0 7, rec0 8] (by decide +kernel) (by decide +kernel) (by decide +kernel) (by decide +kernel)).1 (by unfold Dev.asks; decide +kernel) (by decide +kernel) (by decide +kernel) (by decide +kernel) (by decide +kernel)
  have := (w { managed with ev.plog := [rec0 7, rec0 8], ev.plogPos := 9 } 0x22 2 [] [rec0 7, rec0 8] (by decide +kernel) (by decide +kernel) (by decide +kernel) (by decide +kernel)).2 (by unfold Dev.asks; decide +kernel) (by decide +kernel) (by decide +kernel) (by decide +kernel) (by decide +kernel)
  trivial

theorem witness_MgmtRequests_more (h : Obligations.MgmtRequests) : True := by
  let b := leBytes 2 4 ++ zeros 18
  have := h.2.2.2.2.2.1 (alone managed) net (req 0x21 b) b (by unfold Dev.asks; decide +kernel) (by decide +kernel) (by decide +kernel) (by decide +kernel)
  let b := leBytes 2 256 ++ leBytes 2 3072
  have := h.2.2.2.2.2.2.1 (alone managed) net (req 0x30 b) b 255 3072 (by unfold Dev.asks; decide +kernel) (by decide +kernel) (by decide +kernel) (by decide +kernel) (by decide +kernel) (by decide +kernel) (by decide +kernel) (by decide +kernel)
  have := h.2.2.2.2.2.2.2.1 (alone managed) net (req 0xFFFF []) (by decide +kernel) (by decide +kernel) (by decide +kernel) (by decide +kernel) (by decide +kernel) (by decide +kernel)
  have := h.2.2.2.2.2.2.2.1 (alone (managed.wr .MGT_STATUS_VERSION 0x100)) net (req 0x60 []) (by decide +kernel) (by decide +kernel) (by decide +kernel) (by decide +kernel) (by decide +kernel) (by decide +kernel)
  let b := leBytes 1 255 ++ leBytes 1 2 ++ [0x61#8, 0x62#8]
  have := h.2.2.2.2.2.2.2.2 (alone managed) net (req 0x63 b) b 255 (by unfold Dev.asks; decide +kernel) (by decide +kernel) (by decide +kernel) (by decide +kernel) (by decide +kernel) (by decide +kernel) (by decide +kernel)
  trivial

theorem witness_MgmtReplay (h : Obligations.MgmtReplay) : True := by
  have := (h (alone managed) net [] (by decide +kernel)).1 (by decide +kernel) (.lock net []) (by simp)
  let s := alone { managed with mgt.replay := [(7, [])] }
  have := ((h s net (req 0xA0 []) (by decide +kernel)).2.1 (7, []) (by decide +kernel) (by decide +kernel)).1 (0xA0, .svnCommit net (req 0xA0 [])) (by simp) (by decide +kernel)
  have := ((h s net (req 0x95 [1]) (by decide +kernel)).2.1 (7, []) (by decide +kernel) (by decide +kernel)).2.1 foundAll ⟨[], none, 0⟩ (.done 49999) [] none 5
    (0x95, 1, .sanitizeDevice net (req 0x95 [1]) 5) (by simp) (by decide +kernel) (by decide +kernel)
  have := ((h s net (req 0xFFFF []) (by decide +kernel)).2.1 (7, []) (by decide +kernel) (by decide +kernel)).2.2 (by decide +kernel) (by decide +kernel)
  trivial

theorem witness_ModeRequests (h : Obligations.ModeRequests) : True := by
  have w := fun (d : Dev) t => h.1 (alone d) net (req 0x40 [t])
  have := (w ((managed.wr .AVL_STATUS_MODE 1).wr .STI_STATUS_STATE 3) 0).1 (by unfold Dev.asksLong Dev.asks; decide +kernel) (by decide +kernel) (by decide +kernel)
  have := (w (managed.wr .AVL_STATUS_MODE 3) 1).2.1 (by unfold Dev.asksLong Dev.asks; decide +kernel) (by decide +kernel) (by decide +kernel) (by decide +kernel)
  have := (w (managed.wr .AVL_STATUS_MODE 7) 2).2.2.1 (by unfold Dev.asksLong Dev.asks; decide +kernel) (by decide +kernel)
  have := (w managed 3).2.2.2.1 (by unfold Dev.asksLong Dev.asks; decide +kernel) (by decide +kernel) (by decide +kernel) (by decide +kernel)
  have := (w (managed.wr .AVL_STATUS_POWER_STATE 1) 4).2.2.2.2 foundAll (by unfold Dev.asksLong Dev.asks; decide +kernel) (by decide +kernel)
  have := (h.2 (alone managed) net (req 0x41 [0]) foundAll ⟨[], none, 0⟩).1 (by unfold Dev.asks; decide +kernel) (by decide +kernel) (by decide +kernel)
  have := (h.2 (alone managed) net (req 0x41 [1]) foundAll ⟨[], none, 0⟩).2 (by unfold Dev.asks; decide +kernel)
  trivial

theorem witness_ImageRequests (h : Obligations.ImageRequests) : True := by
  have w := fun (b : List Byte) => h.1 (alone managed) net (req 0x50 b) b
  have := (w (leBytes 4 0 ++ leBytes 4 (32 * 2 ^ 20 - 1) ++ [5]) (by unfold Dev.asks; decide +kernel) (by decide +kernel) (by decide +kernel) (by decide +kernel) (by decide +kernel)).1 (by decide +kernel) (by decide +kernel) (by decide +kernel)
  have := (w (leBytes 1 1 ++ leBytes 3 1 ++ leBytes 4 0 ++ [5, 6]) (by unfold Dev.asks; decide +kernel) (by decide +kernel) (by decide +kernel) (by decide +kernel) (by decide +kernel)).2.1 (by decide +kernel) (by decide +kernel) (by decide +kernel) (by decide +kernel)
  have := (w (leBytes 4 2 ++ leBytes 4 (64 * 2 ^ 20)) (by unfold Dev.asks; decide +kernel) (by decide +kernel) (by decide +kernel) (by decide +kernel) (by decide +kernel)).2.2 (by decide +kernel) (by decide +kernel)
  have w := fun (d : Dev) k => h.2.1 (alone d) net (req 0x51 (k :: leBytes 4 (32 * 2 ^ 20) ++ leBytes 4 (16 * 2 ^ 20))) (k :: leBytes 4 (32 * 2 ^ 20) ++ leBytes 4 (16 * 2 ^ 20)) (.done 49999) [0] none
  have := (w (managed.wr .AVL_STEWARD_STANDBY_OK 1) 0 (by unfold Dev.asksLong Dev.asks; decide +kernel) (by decide +kernel) (by decide +kernel) (by decide +kernel)).1 (by decide +kernel) (by decide +kernel) (by decide +kernel)
  have := (w (managed.wr .AVL_STATUS_MODE 3) 1 (by unfold Dev.asksLong Dev.asks; decide +kernel) (by decide +kernel) (by decide +kernel) (by decide +kernel)).2.1 (by decide +kernel) (by decide +kernel)
  have := (w (managed.wr .AVL_STEWARD_STANDBY_OK 1) 2 (by unfold Dev.asksLong Dev.asks; decide +kernel) (by decide +kernel) (by decide +kernel) (by decide +kernel)).2.2 (by decide +kernel) (by decide +kernel) (by decide +kernel) (by decide +kernel)
  have := h.2.2 (alone managed) net (req 0x52 (zeros 5)) (zeros 5) (by unfold Dev.asksLong Dev.asks; decide +kernel) (by decide +kernel) (by decide +kernel) (by decide +kernel) (by decide +kernel)
  trivial

theorem witness_StoreRequests (h : Obligations.StoreRequests) : True := by
  let b := leBytes 1 255 ++ leBytes 1 1 ++ zeros 6 ++ leBytes 8 64 ++ zeros 4
  have := h.1 (alone managed) net (req 0x60 b) b 255 (by unfold Dev.asksLong Dev.asks; decide +kernel) (by decide +kernel) (by decide +kernel) (by decide +kernel)
  let n := nsKey 255 32767
  let x : Namespace := ⟨255, 0, 0, 64, false, 0, 1, 0, 5⟩
  let d : Dev := { managed with hq.ns := [(n, x)] }
  let b := leBytes 1 255 ++ leBytes 4 32767
  have := h.2.1 (alone d) net (req 0x61 b) b 255 32767 (by unfold Dev.asksLong Dev.asks; decide +kernel) (by decide +kernel) (by decide +kernel) (by decide +kernel) (by decide +kernel)
  let b := leBytes 1 255 ++ leBytes 4 32767 ++ leBytes 1 4 ++ leBytes 1 1
  have := h.2.2.1 (alone d) net (req 0x62 b) b 255 32767 x (by unfold Dev.asksLong Dev.asks; decide +kernel) (by decide +kernel) (by decide +kernel) (by decide +kernel) (by decide +kernel) (by decide +kernel) (by decide +kernel) (by decide +kernel) (by decide +kernel) (by decide +kernel)
  let b := leBytes 1 255 ++ leBytes 4 (64 * 2 ^ 20)
  have := h.2.2.2.1 (alone managed) net (req 0x70 b) b 255 (by unfold Dev.asksLong Dev.asks; decide +kernel) (by decide +kernel) (by decide +kernel) (by decide +kernel) (by decide +kernel)
  let p : Program := ⟨255, 7, [], [65535], [], [], 0, 0, [], false⟩
  let b := leBytes 1 255 ++ leBytes 8 7
  have := h.2.2.2.2.1 (alone { managed with eft.programs := [p] }) net (req 0x71 b) b p (by unfold Dev.asksLong Dev.asks; decide +kernel) (by decide +kernel) (by decide +kernel) (by decide +kernel) (by decide +kernel) (by decide +kernel)
  have := (h.2.2.2.2.2 (alone managed) net (req 0x95 [0, 255]) [0, 255] 255 0 (by unfold Dev.asksLong Dev.asks; decide +kernel) (by decide +kernel)).1 (by decide +kernel) (by decide +kernel) (by decide +kernel)
  have := (h.2.2.2.2.2 (alone (managed.wr .AVL_STATUS_MODE 7)) net (req 0x95 [1, 0]) [1, 0] 255 9 (by unfold Dev.asksLong Dev.asks; decide +kernel) (by decide +kernel)).2 (by decide +kernel) (by decide +kernel) (by decide +kernel) (by decide +kernel) (by decide +kernel)
  trivial

/-- A firmware image of format 2.0 with SVN 63, by its envelope. -/
def firmware : List Byte :=
  leBytes 4 0x5746574C ++ [0, 2] ++ leBytes 2 256 ++ leBytes 4 356 ++ leBytes 4 0x4B440512 ++ [0, 63] ++ zeros 62 ++ leBytes 4 256 ++
    leBytes 4 100 ++ zeros 168 ++ leBytes 2 1 ++ leBytes 2 96 ++ zeros 96

theorem witness_LockAndKeys (h : Obligations.LockAndKeys) : True := by
  let b := leBytes 4 9 ++ leBytes 2 3600
  have := (h.1 (alone managed) net (req 0x80 b) b).1 (by unfold Dev.asks; decide +kernel) (by decide +kernel) (by decide +kernel) (by decide +kernel) (by decide +kernel)
  let d : Dev := { managed with mgt.lock := some (9, 0) }
  have := (h.1 (alone d) net (req 0x81 (leBytes 4 9)) (leBytes 4 9)).2.1 0 (by unfold Dev.asks; decide +kernel) (by decide +kernel) (by decide +kernel)
  have := (h.1 (alone d) net (req 0x81 (leBytes 4 8)) (leBytes 4 8)).2.2 0 9 (by unfold Dev.asks; decide +kernel) (by decide +kernel) (by decide +kernel) (by decide +kernel)
  have := h.2.1 (alone d) 9 0 (by decide +kernel) (by decide +kernel)
  have w := fun (d : Dev) t n => h.2.2.1 (alone d) net (req t (zeros n)) (zeros n)
  have := (w managed 0x90 36).1 (by unfold Dev.asks; decide +kernel) (by decide +kernel) (by decide +kernel) (by decide +kernel) (by decide +kernel)
  have := (w { managed.wr .SEC_STATUS_MK_STATE 1 with mgt.mgrKey := some [] } 0x90 44).2.1 [] (by unfold Dev.asks; decide +kernel) (by decide +kernel) (by decide +kernel) (by decide +kernel) (by decide +kernel) (by decide +kernel)
  have := (w (managed.wr .SEC_STATUS_MK_STATE 2) 0x91 32).2.2 (by unfold Dev.asks; decide +kernel) (by decide +kernel) (by decide +kernel) (by decide +kernel)
  trivial

theorem witness_LockAndKeys_slots (h : Obligations.LockAndKeys) : True := by
  let d : Dev := { managed with mgt.mgrKey := some [] }
  have w := fun b => h.2.2.2.1 (alone d) net (req 0x92 b) b 255 []
  have := (w (255 :: zeros 73) (by decide +kernel) (by decide +kernel) (by decide +kernel) (by decide +kernel) (by decide +kernel) (by decide +kernel)).1 (by unfold Dev.asks; decide +kernel) (by decide +kernel) (by decide +kernel)
  have := (h.2.2.2.1 (alone d) net (req 0x93 [255]) [255] 255 [] (by decide +kernel) (by decide +kernel) (by decide +kernel) (by decide +kernel) (by decide +kernel) (by decide +kernel)).2 (by unfold Dev.asks; decide +kernel) (by decide +kernel)
  have := h.2.2.2.2 (alone { managed with mgt.boot.fwA := firmware, mgt.boot.fwB := firmware }) net (req 0xA0 [63]) [63] 63
    (by unfold Dev.asks; decide +kernel) (by decide +kernel) (by decide +kernel) (by decide +kernel) (by decide +kernel) (by decide +kernel) ⟨(by decide +kernel), (by decide +kernel)⟩ ⟨(by decide +kernel), (by decide +kernel)⟩
  trivial

/-! ## Clocks, power and resets -/

theorem witness_TimeAndClocks (h : Obligations.TimeAndClocks) : True := by
  let d := (managed.setRef 0 1).setRef 1 1
  have := h.1.1 (alone (d.wr .THM_CLK_ACTIVE 1)) 1 (by decide +kernel) (by decide +kernel) (by decide +kernel)
  have := h.1.2.1 (alone (managed.setRef 1 1 |>.setRef 0 0)) 1 (by decide +kernel) (by decide +kernel)
  have := h.1.2.2.1 (alone (managed.wr .THM_CLK_HOLDOVER 1)) 0 (by decide +kernel)
  have := h.1.2.2.2 (alone (((d.wr .THM_CLK_REVERT 1).wr .THM_CLK_PREFER 1).wr .THM_CLK_ACTIVE 0)) (by decide +kernel) (by decide +kernel) (by decide +kernel) (by decide +kernel) (by decide +kernel)
  trivial

theorem witness_TimeAndClocks_ptp (h : Obligations.TimeAndClocks) : True := by
  let d := (withImage Dev.blank [⟨1, 0, [lane 127 0 0x104 0 1518 0], [], []⟩]).wr .NET_PORT_STATUS_UP 1 127
  have := h.2.1 (alone d) 127 (2 ^ 64 - 1) 7 (by decide +kernel) (by decide +kernel) (by decide +kernel) (by decide +kernel)
  have := h.2.2.2 (alone (d.wr .SYS_TIME_STATUS_STEPPED 1)) 127 7 (by decide +kernel) (by decide +kernel) (by decide +kernel)
  trivial

theorem witness_ElectricalCommands (h : Obligations.ElectricalCommands) : True := by
  have := h.1.1 (alone managed) (List.replicate 24 97) foundAll ⟨[], none, 0⟩ (by decide +kernel) (by decide +kernel) (by decide +kernel) (by decide +kernel)
  have := h.1.2.1 managed (List.replicate 24 255) 23 255 (by decide +kernel) (by decide +kernel)
  have := h.1.2.2.1 (alone (managed.wr .THM_CTRL_CAP_W 519)) 65535 (by decide +kernel) (by decide +kernel) (by decide +kernel) (by decide +kernel)
  have := h.2.1 (alone managed) ⟨[], some 0, 0⟩ (by decide +kernel) (by decide +kernel)
  have := h.2.2.1 (alone (managed.wr .AVL_STATUS_MODE 6)) foundAll (by decide +kernel) (by decide +kernel)
  have := h.2.2.2.1 (alone managed) 255 ⟨[], none, 0⟩ (by decide +kernel) (by decide +kernel)
  have := h.2.2.2.2 (alone (managed.wr .AVL_STATUS_MODE 6)) 0 ⟨[], none, 0⟩ (by decide +kernel)
  trivial

theorem witness_ResetCommands (h : Obligations.ResetCommands) : True := by
  let d : Dev := { managed with avl.powerFail := true, ram := [(0, 1#8)] }
  have := h.1 (alone d) true foundAll (by decide +kernel)
  have := h.2 (alone d) foundAll ⟨[], none, 0⟩ (by decide +kernel) (by decide +kernel) (by decide +kernel)
  trivial

theorem witness_AvailabilityCommands (h : Obligations.AvailabilityCommands) : True := by
  let d : Dev := { managed with avl.pair0 := true, avl.pair1 := true }
  have := h.1 (alone d) foundAll (by decide +kernel) (by decide +kernel) (by decide +kernel) (by decide +kernel) (by decide +kernel)
  have := h.2.1 (alone d) foundAll (by decide +kernel) (by decide +kernel) (by decide +kernel) (by decide +kernel) (by decide +kernel)
  let p := (withImage Dev.blank [⟨1, 0, [lane 127 0 1 0 1518 0], [], []⟩]).wr .NET_PORT_STATUS_UP 1 127 |>.wr .AVL_STATUS_MODE 2
  have := h.2.2.1 (alone p) 127 0 101 (by decide +kernel) (by decide +kernel)
  have := h.2.2.2.2.1 (alone { managed with avl.lifeSaved := 3600 }) (by decide +kernel)
  have := h.2.2.2.2.2.1 (alone managed) (by decide +kernel) (by decide +kernel)
  have := h.2.2.2.2.2.2 (alone (managed.wr .AVL_STATUS_MODE 5)) (some 1) [] (by decide +kernel)
  trivial

/-! ## The model's own checks -/

/-- R364, table CRC algorithms: the check values over "123456789". -/
theorem test_crc32c : crc32c ((List.range 9).map (fun k => BitVec.ofNat 8 (0x31 + k))) = 0xE3069283 := by decide +kernel
theorem test_crc64 : Crc.crc64.value ((List.range 9).map (fun k => BitVec.ofNat 8 (0x31 + k))) = 0xAE8B14860A799888 := by decide +kernel
theorem test_crc16 : Crc.crc16.value ((List.range 9).map (fun k => BitVec.ofNat 8 (0x31 + k))) = 0xD0DB := by decide +kernel

/-- Worked example of the chapter Scope: 0x01640000 begins the copy of port 100. -/
theorem test_port_address : ∃ r i, Machine.resolve 0 0x01640000 = .reg .net 100 r i := ⟨_, _, rfl⟩

/-! Words written out from the tables of R281 and R292: stop bit, slot, OP, operands. -/
theorem test_decode_add : decodeSyl 0b0_00_000001_000010_000011_000100_00000#32 = some (.alu false .add 2 3 4) := by decide
theorem test_decode_cmpi : decodeSyl 0b1_01_100111_101_111_000001_11111111111#32 = some (.cmpi true 5 7 1 0x7FF) := by decide
theorem test_decode_movk : decodeSyl 0b0_00_101100_000111_0_1000000000000001#32 = some (.movk false 3 7 0x8001) := by decide
theorem test_decode_br : decodeSyl 0b1_01_110000_011_1_1111111111111111111#32 = some (.br 3 1 0x7FFFF) := by decide
theorem test_decode_trap : decodeSyl 0b1_01_111100_000000_000000000_10000001#32 = some (.trap 0x81) := by decide
theorem test_decode_std : decodeSyl 0b0_10_001011_000101_000001_10000000000#32 = some (.st .d 5 1 0x400) := by decide
theorem test_decode_ldv : decodeSyl 0b0_10_001100_00011_0_000001_00000000010#32 = some (.ldv 3 1 2) := by decide
theorem test_decode_cas : decodeSyl 0b1_10_010010_000001_000010_000011_00000#32 = some (.cas 1 2 3) := by decide
theorem test_decode_vmul : decodeSyl 0b1_11_000101_00001_00010_00011_10_000000#32 = some (.vv .mul 1 2 3 2) := by decide
theorem test_decode_vsel : decodeSyl 0b1_11_010100_00001_00010_00011_00100_000#32 = some (.vsel 1 2 3 4) := by decide
theorem test_decode_vget : decodeSyl 0b1_11_010110_000001_00010_01_01111_00000#32 = some (.vget 1 2 1 15) := by decide
/-- R283: OP 0x00 is defined in no slot, and a reserved field must be 0. -/
theorem test_decode_zero : decodeSyl 0 = none := by decide
theorem test_decode_reserved : decodeSyl 0b0_00_000001_000010_000011_000100_00001#32 = none := by decide

/-- Each check of WellFormed refuses a term. -/
theorem test_wf_bundle : Instr.wf (.add ⟨0, [0, 0, 0], [0, 0], .none⟩ false 1 2 3) = false := by decide
theorem test_wf_addr : Instr.wf (.tcpSyn 0 ⟨false, 2 ^ 32, 0, 0⟩ 0) = false := by decide
theorem test_wf_arrival : Instr.wf (.hello ⟨128, 64, .good 0, true, 0⟩ ⟨false, 0, 0, 0⟩ []) = false := by decide
theorem test_wf_via : Instr.wf (.mgtHello (.udp ⟨false, 0, 0, 0⟩ 65536) []) = false := by decide
theorem test_wf_resource : Instr.wf (.suspectClear (.core 272) 0) = false := by decide
theorem test_wf_found : Instr.wf (.powerOnReset true ⟨[], true, true, true, true, [], [16], [], false, []⟩) = false := by decide
theorem test_wf_memReq : Instr.wf (.memRequest [] [⟨0, 0, 0, 0, 3, 0, 0, none, 1, false, .none⟩] true) = false := by decide
theorem test_wf_flow : Instr.wf (.parcelPoison 0 0 (.forward 128)) = false := by decide
theorem test_wf_ladder : Instr.wf (.flashReadDone 0 0 0 false ⟨none, 0, [(65537, 0)]⟩ ⟨none, 0, []⟩ false) = false := by decide
theorem test_wf_flume : Instr.wf (.flumeRouteSwitch 16384) = false := by decide
theorem test_wf_pin : Instr.wf (.triggerInputEdge 8 true) = false := by decide
theorem test_wf_sqe : Instr.wf (.sqeFetchDone 0 []) = false := by decide
theorem test_wf_rail : Instr.wf (.railUndervolt 9 ⟨[], none, 0⟩) = false := by decide

/-- One control-clock cycle at 750 MHz is 4/3 ns; the counter's fraction has 32 bits (R33). -/
theorem test_idle_cycle : (onDev State.reset Dev.idle).dev.sys.acc = 2 ^ 32 * 4 / 3 := by decide +kernel
/-- A command that comes first is carried out first (DESIGN CHOICE, notes/assumptions/1). -/
theorem test_front_first : step ⟨[.ptpLockLoss, .lifeTick], Dev.blank⟩ = exec .ptpLockLoss ⟨[.lifeTick], Dev.blank⟩ := rfl

end Sys2Proof.Tests
end

/-! SUPPORT. Register accesses that the register answers, pairs of registers (R10), and what reset leaves: the facts and the
statements RegisterPairs and ResetState. -/
namespace Sys2Proof.Machine

/-! ## Accesses that meet their register -/

/-- The copy of the core-local window that an agent's access meets: a core's own, core 0's for the others. -/
def agWindow : Agent → Nat
  | .core c => c.val
  | _ => 0

/-- The meeting register is what the address resolves to in the agent's window, behind an open gate. -/
theorem Dev.meets.resolve_gate {d : Dev} {ag : Agent} {write : Bool} {a : Nat} {b : Block} {copy : Nat} {r : RegDef} {i : Nat}
    (h : d.meets ag write a b copy r i) :
    Sys2Proof.Machine.resolve (agWindow ag) a = .reg b copy r i ∧ d.gate ag b copy a = .open_ := by
  obtain ⟨hreach, hgate⟩ := h
  cases ag with
  | core c => exact ⟨hreach.2, hgate⟩
  | steward => exact ⟨hreach, hgate⟩
  | manager => exact ⟨hreach, hgate⟩

/-- A write by REGISTER_WRITE reaches the register it meets. -/
theorem Dev.regWriteCmd_of_meets {d : Dev} {ag : Agent} {a : Nat} {b : Block} {copy : Nat} {r : RegDef} {i : Nat}
    (h : d.meets ag true a b copy r i) (w : Nat) :
    d.regWriteCmd ag a w = d.writeReg ag (agWindow ag) a w b copy r i := by
  obtain ⟨hres, hgate⟩ := h.resolve_gate
  have hio : ioWrite d ag (agWindow ag) a w = d.writeReg ag (agWindow ag) a w b copy r i := by
    simp only [ioWrite, hres, hgate]
  cases ag with
  | core c => exact (if_neg (Bool.eq_false_iff.mp h.1.1)).trans hio
  | steward => exact hio
  | manager => exact hio

/-- A read of a half of a pair reaches the register it meets, and its word goes to the agent. -/
theorem Dev.pairReadCmd_of_meets {d : Dev} {ag : Agent} {a : Nat} {b : Block} {copy : Nat} {r : RegDef} {i : Nat}
    (h : d.meets ag false a b copy r i) {lo : Bool}
    (hpair : r.flds.any (fun f => if lo then (pairHi f).isSome else (pairLo f).isSome) = true) :
    d.pairReadCmd lo ag a =
      (d.readReg ag (agentIdx ag r i) r).2.send (.word (agNum ag) a (d.readReg ag (agentIdx ag r i) r).1) := by
  obtain ⟨hres, hgate⟩ := h.resolve_gate
  have hio : ioRead d ag (agWindow ag) a = d.readReg ag (agentIdx ag r i) r := by simp only [ioRead, hres, hgate]
  cases ag with
  | core c =>
    have hfault : d.ioFault c.val a false = false := h.1.1
    simp only [agWindow] at hres hio
    simp only [Dev.pairReadCmd, hres, hfault, hpair, hio, Bool.not_false, Bool.and_self, if_true]
  | steward | manager =>
    simp only [agWindow] at hres hio
    simp only [Dev.pairReadCmd, hres, hpair, hio, Bool.not_false, Bool.and_self, if_true]

/-- A write with no reserved bit set and no value refused reports nothing. -/
@[simp] theorem Dev.noteWrite_nothing (d : Dev) (b : Block) (copy a : Nat) : d.noteWrite b copy a false ⟨false, false⟩ = d := rfl

/-! ## The two halves of a pair -/

/-- The halves of pairs that an agent can write: those with access code RW. -/
def writableHalves : List Fld :=
  [.CAP_SW_TRIG_TIME_LO, .CAP_SW_TRIG_TIME_HI, .CORE_EADDR_LO, .CORE_EADDR_HI, .CORE_WIN_BASE_LO, .CORE_WIN_BASE_HI,
   .CHK_CTX_SRC_LO, .CHK_CTX_SRC_HI, .CHK_CTX_VAL_LO, .CHK_CTX_VAL_HI]

/-- A write of such a half starts nothing of its own: it follows the rule of pairs. -/
theorem Dev.writeReg_writableHalf (d : Dev) (ag : Agent) (core a w : Nat) (b : Block) (copy i : Nat) {r : RegDef} {f : Fld}
    (hr : r.flds = [f]) (hf : f ∈ writableHalves) :
    d.writeReg ag core a w b copy r i = d.writePair ag b copy a r i w f := by
  simp only [writableHalves, List.mem_cons, List.not_mem_nil, or_false] at hf
  rcases hf with rfl | rfl | rfl | rfl | rfl | rfl | rfl | rfl | rfl | rfl <;> simp only [Dev.writeReg, hr] <;> rfl

section Pair
variable {lo hi : Fld} (h : pairHi lo = some hi)
include h

theorem pairLo_of_pairHi : pairLo hi = some lo := by
  unfold pairHi at h
  split at h <;> cases h <;> rfl

theorem pairHi_eq_none_of_pairHi : pairHi hi = none := by
  unfold pairHi at h
  split at h <;> cases h <;> rfl

/-- No half of a pair has a copy per agent. -/
theorem agentIdx_of_pairHi (ag : Agent) {r : RegDef} (i : Nat) (hr : r.flds = [lo] ∨ r.flds = [hi]) : agentIdx ag r i = i := by
  unfold pairHi at h
  split at h <;> cases h <;> rcases hr with hr | hr <;> simp only [agentIdx, hr] <;> rfl

/-! ### Reads -/

/-- A read of the low half latches the high word for the agent, in place of a word latched before. -/
theorem Dev.readReg_lo (d : Dev) (ag : Agent) (i : Nat) {r : RegDef} (hr : r.flds = [lo]) :
    d.readReg ag i r =
      (d.word i [lo], { d with sys.pairs := dropPair d.sys.pairs ag lo i ++ [⟨agNum ag, lo, i, d.word i [hi]⟩] }) := by
  simp only [Dev.readReg, hr, h]

/-- A read of the high half gives the word that the agent latched, and releases it. -/
theorem Dev.readReg_hi_latched (d : Dev) (ag : Agent) (i : Nat) {r : RegDef} (hr : r.flds = [hi]) {v : Nat}
    (hv : pairWord d.sys.pairs ag lo i = some v) :
    d.readReg ag i r = (v, { d with sys.pairs := dropPair d.sys.pairs ag lo i }) := by
  simp only [Dev.readReg, hr, pairHi_eq_none_of_pairHi h, pairLo_of_pairHi h, hv]

/-- A read of the high half by an agent without a latch gives the current word. -/
theorem Dev.readReg_hi_current (d : Dev) (ag : Agent) (i : Nat) {r : RegDef} (hr : r.flds = [hi])
    (hv : pairWord d.sys.pairs ag lo i = none) : d.readReg ag i r = (d.word i [hi], d) := by
  simp only [Dev.readReg, hr, pairHi_eq_none_of_pairHi h, pairLo_of_pairHi h, hv]

/-! ### Writes -/

/-- A half that an agent can write is one of these. -/
theorem mem_writableHalves {f : Fld} (hf : f = lo ∨ f = hi) (hrw : f.info.acc = .rw) : f ∈ writableHalves := by
  unfold pairHi at h
  split at h <;> cases h <;> rcases hf with rfl | rfl <;> revert hrw <;> decide

/-- A write of the low half is held for the agent, in place of a word held before. -/
theorem Dev.writePair_lo (d : Dev) (ag : Agent) (b : Block) (copy a : Nat) {r : RegDef} (i w : Nat)
    (hw : reservedBits r.flds w = false) :
    d.writePair ag b copy a r i w lo = { d with sys.held := dropPair d.sys.held ag lo i ++ [⟨agNum ag, lo, i, fv lo w⟩] } := by
  simp only [Dev.writePair, hw, Dev.noteWrite_nothing, h]

/-- A write of the high half writes the low word that the agent holds with it, and releases that word. -/
theorem Dev.writePair_hi_held (d : Dev) (ag : Agent) (b : Block) (copy a : Nat) {r : RegDef} (i w : Nat)
    (hw : reservedBits r.flds w = false) (hval : hi ≠ .CHK_CTX_VAL_HI) {low : Nat} (hlow : pairWord d.sys.held ag lo i = some low) :
    d.writePair ag b copy a r i w hi =
      (({ d with sys.held := dropPair d.sys.held ag lo i } : Dev).wr lo low i).wr hi (fv hi w) i := by
  simp only [Dev.writePair, hw, Dev.noteWrite_nothing, pairHi_eq_none_of_pairHi h, pairLo_of_pairHi h, if_neg hval, hlow]

/-- A write of the high half by an agent that holds no low word leaves the low half alone. -/
theorem Dev.writePair_hi_alone (d : Dev) (ag : Agent) (b : Block) (copy a : Nat) {r : RegDef} (i w : Nat)
    (hw : reservedBits r.flds w = false) (hval : hi ≠ .CHK_CTX_VAL_HI) (hlow : pairWord d.sys.held ag lo i = none) :
    d.writePair ag b copy a r i w hi =
      ({ d with sys.held := dropPair d.sys.held ag lo i } : Dev).wr hi (fv hi w) i := by
  simp only [Dev.writePair, hw, Dev.noteWrite_nothing, pairHi_eq_none_of_pairHi h, pairLo_of_pairHi h, if_neg hval, hlow]

end Pair

/-! ## The commands on a pair -/

section Commands
variable {s : State} {ag : Agent} {addr : W32} {b : Block} {copy : Nat} {r : RegDef} {i : Nat} {lo hi : Fld}
  (h : pairHi lo = some hi)
include h

/-- PAIR_LO_READ. -/
theorem Does.pairLoRead (hm : s.dev.meets ag false addr.toNat b copy r i) (hr : r.flds = [lo]) :
    Does (.pairLoRead ag addr) s
      (({ s.dev with sys.pairs := dropPair s.dev.sys.pairs ag lo i ++ [⟨agNum ag, lo, i, s.dev.word i [hi]⟩] } : Dev).send
        (.word (agNum ag) addr.toNat (s.dev.word i [lo]))) := by
  have hpair : r.flds.any (fun f => if true then (pairHi f).isSome else (pairLo f).isSome) = true := by simp [hr, h]
  refine Does.of rfl ((Dev.pairReadCmd_of_meets hm hpair).trans ?_)
  rw [agentIdx_of_pairHi h ag i (.inl hr), Dev.readReg_lo h _ _ _ hr]

/-- PAIR_HI_READ reads the register and sends its word. -/
theorem Does.pairHiRead (hm : s.dev.meets ag false addr.toNat b copy r i) (hr : r.flds = [hi]) {v : Nat} {e : Dev}
    (he : s.dev.readReg ag i r = (v, e)) :
    Does (.pairHiRead ag addr) s (e.send (.word (agNum ag) addr.toNat v)) := by
  have hpair : r.flds.any (fun f => if false then (pairHi f).isSome else (pairLo f).isSome) = true := by
    simp [hr, pairLo_of_pairHi h]
  refine Does.of rfl ((Dev.pairReadCmd_of_meets hm hpair).trans ?_)
  rw [agentIdx_of_pairHi h ag i (.inr hr), he]

/-- REGISTER_WRITE of a writable half is a write of the pair. -/
theorem Does.registerWrite_pair {w : W32} {f : Fld} (hm : s.dev.meets ag true addr.toNat b copy r i)
    (hf : f = lo ∨ f = hi) (hr : r.flds = [f]) (hrw : f.info.acc = .rw) {e : Dev}
    (he : s.dev.writePair ag b copy addr.toNat r i w.toNat f = e) : Does (.registerWrite ag addr w) s e :=
  Does.of rfl ((Dev.regWriteCmd_of_meets hm w.toNat).trans
    ((Dev.writeReg_writableHalf _ _ _ _ _ _ _ _ hr (mem_writableHalves h hf hrw)).trans he))

end Commands

/-- Settles O2: an access that meets its register comes to Dev.readReg or Dev.writePair, whose cases are those of R10. -/
theorem registerPairs : Obligations.RegisterPairs := by
  intro s ag addr b copy r i lo hi h
  refine ⟨fun hm hr => Does.pairLoRead h hm hr, fun hm hr => ⟨fun v hv => ?latched, fun hv => ?current⟩,
    fun w hm hr hrw hw => ?low, fun w hm hr hrw hval hw => ⟨fun low hheld => ?both, fun hheld => ?high⟩⟩
  case latched => exact Does.pairHiRead h hm hr (Dev.readReg_hi_latched h _ _ _ hr hv)
  case current => exact Does.pairHiRead h hm hr (Dev.readReg_hi_current h _ _ _ hr hv)
  case low => exact Does.registerWrite_pair h hm (.inl rfl) hr hrw (Dev.writePair_lo h _ _ _ _ _ _ _ (hr ▸ hw))
  case both =>
    exact Does.registerWrite_pair h hm (.inr rfl) hr hrw (Dev.writePair_hi_held h _ _ _ _ _ _ _ (hr ▸ hw) hval hheld)
  case high =>
    exact Does.registerWrite_pair h hm (.inr rfl) hr hrw (Dev.writePair_hi_alone h _ _ _ _ _ _ _ (hr ▸ hw) hval hheld)

/-! ## What reset leaves -/

/-- At reset the register file lists nothing, so that every field reads its Reset value (R14). -/
@[simp] theorem State.reset_rd (f : Fld) (i : Nat) : State.reset.dev.rd f i = f.reset i := amGet_nil _ _

/-- At reset device memory lists nothing. -/
@[simp] theorem State.reset_readByte (a : Nat) : State.reset.dev.readByte a = 0 := amGet_nil _ _

/-- Settles O4: the register file and memory of the reset state are empty tables. -/
theorem resetState : Obligations.ResetState :=
  ⟨rfl, State.reset_rd, State.reset_readByte, Memory.wf_reset, State.reset_rd .AVL_STATUS_MODE 0, rfl⟩

end Sys2Proof.Machine

/-! SUPPORT. The flumes of the fabric and the lanes of the ports (R24 to R26, R37): what each of their operations does where it
acts, and the statement FabricAndLanes. -/
namespace Sys2Proof.Machine

/-! ## Flumes (R24 to R26) -/

/-- A beat of a flume that is up, on a link of its route, is counted and waits for its repetition. -/
theorem Dev.parcelPoison_onRoute {d : Dev} {n k : Nat} {f : Flume} (hf : amFind n d.sys.flumes = some f)
    (hup : f.down = false) (hk : k ∈ f.route) (op : FlowOp) :
    d.parcelPoison n k op =
      { d.countPoison n k with sys.poisoned := (d.countPoison n k).sys.poisoned ++ [⟨n, k, op⟩] } := by
  simp [Dev.parcelPoison, hf, hup, hk]

section Resend
variable {d : Dev} {n : Nat} {x : PoisonedParcel} {rest : List PoisonedParcel}
  (htake : takePoisoned n d.sys.poisoned = some (x, rest))
include htake

/-- The clean repetition takes its parcel off the list as a transient fault of the link. -/
theorem Dev.parcelResend_clean (retry : Bool) :
    d.parcelResend n true retry = ({ d with sys.poisoned := rest } : Dev).transient (0x20000 + x.link) 0 := by
  simp only [Dev.parcelResend, htake, if_true]

/-- The repetition that is poisoned too is lost, and a lasting fault of the link. What the loss means to its flow is loseOp
(notes/assumptions/46). -/
theorem Dev.parcelResend_poisoned (retry : Bool) :
    d.parcelResend n false retry =
      (((({ d with sys.poisoned := rest } : Dev).countPoison n x.link).cnt .SYS_FLUME_LOSS_LOST).loseOp retry
        x.op).linkLasting x.link := by
  simp only [Dev.parcelResend, htake, Bool.false_eq_true, if_false]

end Resend

/-- A flume as it takes its alternate route. -/
def Flume.switched (f : Flume) : Flume := { f with stopped := false, switchTo := false, onAlt := f.onAlt || f.switchTo }

theorem Flume.switched_of_switchTo {f : Flume} (h : f.switchTo = true) :
    f.switched = { f with stopped := false, switchTo := false, onAlt := true } := by
  simp only [Flume.switched, h, Bool.or_true]

/-- A stopped flume that waits for its alternate route and has no poisoned parcel left takes it, with 0x0032. -/
theorem Dev.flumeRouteSwitch_emptied {d : Dev} {n : Nat} {f : Flume} (hf : amFind n d.sys.flumes = some f)
    (hstop : f.stopped = true) (hswitch : f.switchTo = true) (hempty : ∀ x ∈ d.sys.poisoned, x.flume ≠ n) :
    d.flumeRouteSwitch n = (d.setFlume n Flume.switched).raise 0x0032 [(2, n)] := by
  have hnone : d.sys.poisoned.any (fun x => x.flume == n) = false := by simpa using hempty
  simp only [Dev.flumeRouteSwitch, hf, hstop, hnone, hswitch, Bool.not_true, Bool.false_eq_true, or_self, if_false, if_true]
  rfl

/-- A lookup after a flume is changed. -/
theorem Dev.amFind_setFlume (d : Dev) (m n : Nat) (g : Flume → Flume) :
    amFind m (d.setFlume n g).sys.flumes =
      if m = n then (amFind m d.sys.flumes).map g else amFind m d.sys.flumes :=
  amFind_amAdj m n g d.sys.flumes

/-- FLUME_ROUTE_SWITCH of a stopped flume that has emptied (R26). -/
theorem Ends.flumeRouteSwitch {s : State} {n : Nat} {f : Flume} (hf : amFind n s.dev.sys.flumes = some f)
    (hstop : f.stopped = true) (hswitch : f.switchTo = true) (hempty : ∀ x ∈ s.dev.sys.poisoned, x.flume ≠ n) :
    Ends (.flumeRouteSwitch n) s (fun e =>
      amFind n e.sys.flumes = some { f with stopped := false, switchTo := false, onAlt := true } ∧
      (∀ m, m ≠ n → amFind m e.sys.flumes = amFind m s.dev.sys.flumes) ∧
      e.logged 0x0032 0 (packData [(2, n)]) ∧ e.regs = s.dev.regs ∧ SameMem s.dev e) := by
  refine Ends.of (f := s.dev.flumeRouteSwitch n) rfl ?_
  rw [Dev.flumeRouteSwitch_emptied hf hstop hswitch hempty]
  refine ⟨?itself, fun m hm => ?others, Dev.logged_raise _ _ _, rfl, fun _ => rfl⟩
  case itself =>
    rw [Dev.raise_sys, Dev.amFind_setFlume, if_pos rfl, hf, Option.map_some, Flume.switched_of_switchTo hswitch]
  case others => rw [Dev.raise_sys, Dev.amFind_setFlume, if_neg hm]

/-! ## Lanes of a port (R37) -/

/-- The lanes of a port are those of the active image. -/
theorem Dev.portLanes_congr {d e : Dev} (h : e.img = d.img) (p : Nat) : e.portLanes p = d.portLanes p := by
  unfold Dev.portLanes Dev.portKind Dev.portWidth Dev.lanes Dev.secRecs
  rw [h]

/-- A lane is adapted as NET_LANE_STATUS says. -/
theorem Dev.laneOk_congr {d e : Dev} {p j : Nat}
    (h : e.rd .NET_LANE_STATUS_ADAPTED (p * 8 + j) = d.rd .NET_LANE_STATUS_ADAPTED (p * 8 + j)) :
    e.laneOk p j = d.laneOk p j := by
  simp only [Dev.laneOk, h]

theorem Dev.portWhole_iff {d : Dev} {p : Nat} : d.portWhole p = true ↔ ∀ i ∈ d.portLanes p, d.laneOk p i = true :=
  List.all_eq_true

@[simp] theorem Dev.portLanes_setLane (d : Dev) (p j : Nat) (ok : Bool) (q : Nat) :
    (d.setLane p j ok).portLanes q = d.portLanes q := Dev.portLanes_congr rfl q

@[simp] theorem Dev.portLanes_cnt (d : Dev) (f : Fld) (i n q : Nat) : (d.cnt f i n).portLanes q = d.portLanes q :=
  Dev.portLanes_congr rfl q

/-- A lane that is shown as adapted or failed is so; the others of its port are as they were. -/
theorem Dev.laneOk_setLane (d : Dev) (p j i : Nat) (ok : Bool) :
    (d.setLane p j ok).laneOk p i = if i = j then ok else d.laneOk p i := by
  have hwidth : Fld.width .NET_LANE_STATUS_ADAPTED = 1 := rfl
  have hread : (d.setLane p j ok).rd .NET_LANE_STATUS_ADAPTED (p * 8 + i) =
      if i = j then b2n ok else d.rd .NET_LANE_STATUS_ADAPTED (p * 8 + i) := by
    by_cases h : i = j
    · subst h
      cases ok <;> simp [Dev.setLane, Dev.rd_wr, hwidth, b2n]
    · simp [Dev.setLane, Dev.rd_wr, h]
  rw [Dev.laneOk, hread]
  by_cases h : i = j
  · rw [if_pos h, if_pos h]
    cases ok <;> rfl
  · rw [if_neg h, if_neg h, Dev.laneOk]

/-- A count of failures adapts no lane and fails none. -/
@[simp] theorem Dev.laneOk_cntFails (d : Dev) (k n p i : Nat) :
    (d.cnt .NET_LANE_STATUS_FAILS k n).laneOk p i = d.laneOk p i :=
  Dev.laneOk_congr (by simp [Dev.rd_cnt])

section Retry
/-! What holds of a port whose only lane that is not adapted is `j`. -/
variable {d : Dev} {p j : Nat} (hbad : (d.portLanes p).filter (fun i => !d.laneOk p i) = [j])
include hbad

/-- The one lane that is not adapted is a lane of the port, and fails. -/
theorem Dev.failed_of_onlyFailed : j ∈ d.portLanes p ∧ d.laneOk p j = false := by
  have hmem : j ∈ (d.portLanes p).filter (fun i => !d.laneOk p i) := by rw [hbad]; exact List.mem_singleton_self j
  simpa using hmem

/-- Every other lane of the port is adapted. -/
theorem Dev.laneOk_of_ne_onlyFailed {i : Nat} (hi : i ∈ d.portLanes p) (hne : i ≠ j) : d.laneOk p i = true := by
  by_contra hfail
  have hmem : i ∈ (d.portLanes p).filter (fun i => !d.laneOk p i) := List.mem_filter.mpr ⟨hi, by simpa using hfail⟩
  rw [hbad] at hmem
  exact hne (List.mem_singleton.mp hmem)

/-- Once the last failed lane is adapted, the port is whole. -/
theorem Dev.portWhole_setLane_onlyFailed : (d.setLane p j true).portWhole p = true := by
  refine Dev.portWhole_iff.mpr fun i hi => ?_
  rw [Dev.portLanes_setLane] at hi
  rw [Dev.laneOk_setLane]
  split
  · rfl
  · next hne => exact Dev.laneOk_of_ne_onlyFailed hbad hi hne

/-- A failure counted once more leaves the port without its lane. -/
theorem Dev.portWhole_cntFails_onlyFailed (k : Nat) : (d.cnt .NET_LANE_STATUS_FAILS k).portWhole p = false := by
  obtain ⟨hj, hfail⟩ := Dev.failed_of_onlyFailed hbad
  refine Bool.eq_false_iff.mpr fun hwhole => ?_
  have hok := Dev.portWhole_iff.mp hwhole j (by rwa [Dev.portLanes_cnt])
  rw [Dev.laneOk_cntFails, hfail] at hok
  exact Bool.false_ne_true hok

/-- The only failed lane of a port that is up fails again: FAILS counts once more. -/
theorem Dev.tryLanes_failsAgain (hup : d.rd .NET_PORT_STATUS_UP p ≠ 0) {ok : Nat → Bool} (hok : ok j = false) :
    d.tryLanes p ok = d.cnt .NET_LANE_STATUS_FAILS (p * 8 + j) := by
  simp [Dev.tryLanes, hbad, hok, hup, Dev.portWhole_cntFails_onlyFailed hbad]

/-- The only failed lane of a port that is up at its configured width adapts: 0x2192. -/
theorem Dev.tryLanes_adapts (hup : d.rd .NET_PORT_STATUS_UP p ≠ 0) (hwide : d.portNarrow p = false) {ok : Nat → Bool}
    (hok : ok j = true) : d.tryLanes p ok = ((d.setLane p j true).raise 0x2192 [(2, p)]).lanesBack := by
  simp [Dev.tryLanes, hbad, hok, hup, hwide, Dev.portWhole_setLane_onlyFailed hbad]

end Retry

/-- LANE_RETRY of a port of the image tries its lanes. -/
theorem Dev.laneRetry_of_lanes {d : Dev} {p : Nat} (h : (d.lanes p).isSome) (ok : Nat → Bool) :
    d.laneRetry p ok = d.tryLanes p ok := by
  have hnone : (d.lanes p).isNone = false := Option.isNone_eq_false_iff.mpr h
  simp [Dev.laneRetry, hnone]

/-- LANE_RETRY and RETRAIN both do to a port of the image what trying its lanes does. -/
theorem Does.laneRetry_retrain {s : State} {p : Fin 128} {ok : BitVec 8} {e : Dev} (h : (s.dev.lanes p).isSome)
    (he : s.dev.tryLanes p ok.getLsbD = e) : Does (.laneRetry p ok) s e ∧ Does (.retrain p ok) s e :=
  ⟨Does.of rfl ((Dev.laneRetry_of_lanes h _).trans he), Does.of rfl he⟩

/-- An adapted lane of a port that is up fails its readaptation: the port runs on what is left, or is only
degraded where it did not run on that lane (notes/assumptions/47). -/
theorem Dev.laneLockLoss_fails {d : Dev} {p j : Nat} (hrec : (d.lanes p).isSome) (hj : j ∈ d.portLanes p)
    (hup : d.rd .NET_PORT_STATUS_UP p ≠ 0) (hok : d.laneOk p j = true) :
    d.laneLockLoss p j false =
      let e := (d.cnt .NET_LANE_STATUS_FAILS (p * 8 + j)).setLane p j false
      if d.laneRuns p j then e.bringPort p (p + j) else e.degrade 1 (p + j) := by
  have hnone : (d.lanes p).isNone = false := Option.isNone_eq_false_iff.mpr hrec
  simp [Dev.laneLockLoss, hnone, hj, hup, hok]

/-- WIDEN of a whole port that is narrow. -/
theorem Dev.portWiden_narrow {d : Dev} {p : Nat} (hrec : (d.lanes p).isSome) (hwhole : d.portWhole p = true)
    (hnarrow : d.portNarrow p = true) : d.portWiden p = ((d.bringPort p p).raise 0x2193 [(2, p)]).lanesBack := by
  have hnone : (d.lanes p).isNone = false := Option.isNone_eq_false_iff.mpr hrec
  simp [Dev.portWiden, Dev.widenPort, hnone, hwhole, hnarrow]

/-- Settles O6: each clause is the case of its operation in which it acts. -/
theorem fabricAndLanes : Obligations.FabricAndLanes := by
  refine ⟨⟨fun s n k op f hf hup hk => ?poison, fun s n retry x rest htake => ?clean,
    fun s n retry x rest htake => ?lost, fun s n f hf hstop hswitch hempty => ?route⟩,
    fun s p j hrec hj hup hok => ?lockLoss, fun s p j hrec hup hbad => ?failsAgain,
    fun s p j ok hrec hup hwide hbad _ hok => ?adapts, fun s p hrec hwhole hnarrow => ?widen⟩
  case poison => exact Does.of rfl (Dev.parcelPoison_onRoute hf hup hk op)
  case clean => exact Does.of rfl (Dev.parcelResend_clean htake retry)
  case lost => exact Does.of rfl (Dev.parcelResend_poisoned htake retry)
  case route => exact Ends.flumeRouteSwitch hf hstop hswitch hempty
  case lockLoss => exact Does.of rfl (Dev.laneLockLoss_fails hrec hj hup hok)
  case failsAgain => exact Does.laneRetry_retrain hrec (Dev.tryLanes_failsAgain hbad hup BitVec.getLsbD_zero)
  case adapts => exact Does.laneRetry_retrain hrec (Dev.tryLanes_adapts hbad hup hwide hok)
  case widen => exact Does.of rfl (Dev.portWiden_narrow hrec hwhole hnarrow)

end Sys2Proof.Machine

/-! SUPPORT. The requests about images (R66, R256, R420 to R425): when each of them is taken and what it then does, and the
statement ImageRequests. -/
namespace Sys2Proof.Machine

/-! ## A submission changes the ready flag of the mailbox alone -/

@[simp] theorem Dev.submit_rd (d : Dev) (via : Via) (f : Fld) (i : Nat) : (d.submit via).rd f i = d.rd f i := by
  cases via <;> rfl

@[simp] theorem Dev.submit_hold (d : Dev) (via : Via) : (d.submit via).mgt.hold = d.mgt.hold := by
  cases via <;> rfl

/-! ## Staging (R66, R420) -/

/-- A staging buffer after the chunk of an IMAGE_STAGE body: FRESH empties it first. -/
def stageChunk (b : List Byte) (m : AMap Byte) : AMap Byte :=
  stageInto (if leAt 1 1 b = 1 then [] else m) (leAt 4 4 b) (b.drop 8)

section Chunk
/-! A chunk whose body is well formed and fits the buffer of its KIND. -/
variable {d : Dev} {via : Via} {msg b : List Byte} (hasks : d.asks via msg 0x50 b) (hmin : 8 ≤ b.length)
  (hmax : b.length ≤ 1032) (hfresh : leAt 1 1 b ≤ 1) (hrsvd : leAt 2 2 b = 0)
include hmin hmax hfresh hrsvd

/-- None of the checks of IMAGE_STAGE answers with status 4. -/
theorem stageChunk_fits (hkind : leAt 0 1 b ≤ 2) (hfits : leAt 4 4 b + (b.length - 8) ≤ stageSize (leAt 0 1 b)) :
    ¬(b.length < 8 ∨ 1024 < (b.drop 8).length ∨ 2 < leAt 0 1 b ∨ 1 < leAt 1 1 b ∨ leAt 2 2 b ≠ 0 ∨
      stageSize (leAt 0 1 b) < leAt 4 4 b + (b.drop 8).length) := by
  rw [List.length_drop]
  omega

include hasks

/-- Firmware is staged while no activation of firmware holds the buffer. -/
theorem Dev.imageStage_firmware (hkind : leAt 0 1 b = 0) (hfits : leAt 4 4 b + (b.length - 8) ≤ stageSize 0)
    (hhold : d.mgt.hold = none) :
    d.imageStage via msg =
      ({ d.submit via with mgt.stageFw := stageChunk b (d.submit via).mgt.stageFw } : Dev).says via msg [] := by
  have hok := stageChunk_fits hmin hmax hfresh hrsvd (by omega) (by rwa [hkind])
  have hfree : (d.submit via).mgt.hold.isSome = false := by simp [hhold]
  rw [Dev.imageStage, Dev.short_asks hasks]
  simp only [if_neg hok]
  simp only [hkind, hfree]
  rfl

/-- A structure image is staged while none is being replaced and no activation of both holds the buffer. -/
theorem Dev.imageStage_structure (hkind : leAt 0 1 b = 1) (hfits : leAt 4 4 b + (b.length - 8) ≤ stageSize 1)
    (hlive : d.rd .STI_STATUS_STATE ≠ 4) (hhold : d.mgt.hold = none) :
    d.imageStage via msg =
      ({ d.submit via with mgt.stageStruct := stageChunk b (d.submit via).mgt.stageStruct } : Dev).says via msg [] := by
  have hok := stageChunk_fits hmin hmax hfresh hrsvd (by omega) (by rwa [hkind])
  have hfree : ((d.submit via).mgt.hold.bind (·.also)).isSome = false := by simp [hhold]
  rw [Dev.imageStage, Dev.short_asks hasks]
  simp only [if_neg hok]
  simp only [hkind, Dev.submit_rd, if_neg hlive, hfree]
  rfl

/-- A program is staged at any time. -/
theorem Dev.imageStage_program (hkind : leAt 0 1 b = 2) (hfits : leAt 4 4 b + (b.length - 8) ≤ stageSize 2) :
    d.imageStage via msg =
      ({ d.submit via with mgt.stageProg := stageChunk b (d.submit via).mgt.stageProg } : Dev).says via msg [] := by
  have hok := stageChunk_fits hmin hmax hfresh hrsvd (by omega) (by rwa [hkind])
  rw [Dev.imageStage, Dev.short_asks hasks]
  simp only [if_neg hok]
  simp only [hkind]
  rfl

end Chunk

/-! ## Activation (R256, R422 to R424) -/

section Activation
/-! An ACTIVATE of 9 bytes in Service or Degraded Service at full power. -/
variable {d : Dev} {via : Via} {msg b : List Byte} (hasks : d.asksLong via msg 0x51 b) (hlen : b.length = 9)
  (hmode : d.rd .AVL_STATUS_MODE = 2 ∨ d.rd .AVL_STATUS_MODE = 3) (hpower : d.rd .AVL_STATUS_POWER_STATE = 0)
include hlen hmode hpower

/-- ACTIVATE is not refused where the images that its KIND takes fit their buffers, and firmware has a standby pair. -/
theorem Dev.activateCheck_submit (hkind : leAt 0 1 b ≤ 2)
    (hfw : leAt 0 1 b ≠ 1 → leAt 1 4 b ≤ stageSize 0 ∧ d.rd .AVL_STEWARD_STANDBY_OK = 1)
    (hst : leAt 0 1 b ≠ 0 → leAt 5 4 b ≤ stageSize 1) : (d.submit via).activateCheck b = 0 := by
  have hbody : ¬(b.length ≠ 9 ∨ 2 < leAt 0 1 b ∨ (leAt 0 1 b ≠ 1 ∧ stageSize 0 < leAt 1 4 b) ∨
      (leAt 0 1 b ≠ 0 ∧ stageSize 1 < leAt 5 4 b)) := by omega
  have hstandby : ¬(leAt 0 1 b ≠ 1 ∧ d.rd .AVL_STEWARD_STANDBY_OK = 0) := by omega
  have hservice : d.rd .AVL_STATUS_MODE ∈ [2, 3] := by simpa using hmode
  simp [Dev.activateCheck, hbody, hservice, hpower, hstandby]

include hasks

/-- KIND 0. -/
theorem Dev.activateFirmware_begins (hkind : leAt 0 1 b = 0) (hfw : leAt 1 4 b ≤ stageSize 0)
    (hstandby : d.rd .AVL_STEWARD_STANDBY_OK = 1) (sw : Switch) :
    d.activateFirmware via msg sw =
      (d.begins via msg 0x51).fwActivate (d.opOf via 0x51) (leAt 1 4 b) none sw [] none :=
  Dev.long_asks hasks _ _ _ (by simp [hkind])
    (Dev.activateCheck_submit hlen hmode hpower (by omega) (fun _ => ⟨hfw, hstandby⟩) (fun h => absurd hkind h))

/-- KIND 1. -/
theorem Dev.activateStructure_begins (hkind : leAt 0 1 b = 1) (hst : leAt 5 4 b ≤ stageSize 1) (bad : List Nat)
    (mid : Option (Nat × Resource)) :
    d.activateStructure via msg bad mid =
      ((d.begins via msg 0x51).wr .MGT_ACT_STATE 2).actStructure (d.opOf via 0x51) (leAt 5 4 b) bad mid :=
  Dev.long_asks hasks _ _ _ (by simp [hkind])
    (Dev.activateCheck_submit hlen hmode hpower (by omega) (fun h => absurd hkind h) (fun _ => hst))

/-- KIND 2. -/
theorem Dev.activateBoth_begins (hkind : leAt 0 1 b = 2) (hfw : leAt 1 4 b ≤ stageSize 0) (hst : leAt 5 4 b ≤ stageSize 1)
    (hstandby : d.rd .AVL_STEWARD_STANDBY_OK = 1) (sw : Switch) (bad : List Nat) (mid : Option (Nat × Resource)) :
    d.activateBoth via msg sw bad mid =
      (d.begins via msg 0x51).fwActivate (d.opOf via 0x51) (leAt 1 4 b) (some (leAt 5 4 b)) sw bad mid :=
  Dev.long_asks hasks _ _ _ (by simp [hkind])
    (Dev.activateCheck_submit hlen hmode hpower (by omega) (fun _ => ⟨hfw, hstandby⟩) (fun _ => hst))

end Activation

/-! ## Boot selection (R425) -/

/-- BOOT_SELECT of firmware: an image without a fault goes to the other slot, which becomes the boot slot; a faulty one is
rejected. -/
theorem Dev.bootSelect_firmware {d : Dev} {via : Via} {msg b : List Byte} (hasks : d.asksLong via msg 0x52 b)
    (hlen : b.length = 5) (hkind : leAt 0 1 b = 0) (hfits : leAt 1 4 b ≤ stageSize 0) (hhold : d.mgt.hold = none) :
    d.bootSelect via msg =
      let begun := d.begins via msg 0x52
      let op := d.opOf via 0x52
      let image := staged begun.mgt.stageFw (leAt 1 4 b)
      let slot := 1 - begun.mgt.boot.ptrFw
      match begun.fwFault image with
      | none => ((({ begun.writeFw slot image with mgt.boot.ptrFw := slot } : Dev).wr .MGT_ACT_FW_PENDING 1).endOp op 0 0 0)
      | some (cause, off) => ((begun.raise 0xD010 [(1, cause), (4, off)]).endOp op 0x0C 1 cause) := by
  have hbody : ¬(b.length ≠ 5 ∨ 1 < leAt 0 1 b ∨ stageSize (leAt 0 1 b) < leAt 1 4 b) := by
    rw [hkind]
    omega
  rw [Dev.bootSelect, Dev.long_asks hasks _ _ _ rfl (by simp [hbody, hhold])]
  simp only [hkind, if_true]
  cases (d.begins via msg 0x52).fwFault (staged (d.begins via msg 0x52).mgt.stageFw (leAt 1 4 b)) <;> rfl

/-- Settles O54: each clause is its request where it is taken, KIND by KIND. -/
theorem imageRequests : Obligations.ImageRequests := by
  refine ⟨fun s via msg b hasks hmin hmax hfresh hrsvd => ⟨fun hkind hfits hhold => ?stageFw,
      fun hkind hfits hlive hhold => ?stageStruct, fun hkind hfits => ?stageProg⟩,
    fun s via msg b sw bad mid hasks hlen hmode hpower => ⟨fun hkind hfw hstandby => ?firmware,
      fun hkind hst => ?struct, fun hkind hfw hst hstandby => ?both⟩,
    fun s via msg b hasks hlen hkind hfits hhold => ?boot⟩
  case stageFw => exact Does.of rfl (Dev.imageStage_firmware hasks hmin hmax hfresh hrsvd hkind hfits hhold)
  case stageStruct => exact Does.of rfl (Dev.imageStage_structure hasks hmin hmax hfresh hrsvd hkind hfits hlive hhold)
  case stageProg => exact Does.of rfl (Dev.imageStage_program hasks hmin hmax hfresh hrsvd hkind hfits)
  case firmware => exact Does.of rfl (Dev.activateFirmware_begins hasks hlen hmode hpower hkind hfw hstandby sw)
  case struct => exact Does.of rfl (Dev.activateStructure_begins hasks hlen hmode hpower hkind hst bad mid)
  case both => exact Does.of rfl (Dev.activateBoth_begins hasks hlen hmode hpower hkind hfw hst hstandby sw bad mid)
  case boot => exact Does.of rfl (Dev.bootSelect_firmware hasks hlen hkind hfits hhold)

end Sys2Proof.Machine

/-! SUPPORT. Triggers, windows and trigger pins (R95 to R99, R101, R472): what opening a window and freezing frames into it
change, and the statements SoftwareTrigger and TriggerPins. -/
namespace Sys2Proof.Machine

/-! ## A store changes no register and nothing of capture -/

theorem Dev.writeLive_regs (bs : List Byte) : ∀ (d : Dev) (a : Nat), (d.writeLive a bs).regs = d.regs := by
  induction bs with
  | nil => exact fun _ _ => rfl
  | cons b bs ih => intro d a; rw [Dev.writeLive, ih]; split <;> rfl

theorem Dev.writeLive_cap (bs : List Byte) : ∀ (d : Dev) (a : Nat), (d.writeLive a bs).cap = d.cap := by
  induction bs with
  | nil => exact fun _ _ => rfl
  | cons b bs ih => intro d a; rw [Dev.writeLive, ih]; split <;> rfl

@[simp] theorem Dev.store_regs (d : Dev) (a : Nat) (bs : List Byte) : (d.store a bs).regs = d.regs := by
  have hheal : ∀ (e : Dev) (n : Nat), (e.healLines a n).regs = e.regs := by
    intro e n; unfold Dev.healLines; dsimp only; split <;> rfl
  rw [Dev.store, hheal]
  split
  · rfl
  · exact Dev.writeLive_regs bs d a

@[simp] theorem Dev.store_cap (d : Dev) (a : Nat) (bs : List Byte) : (d.store a bs).cap = d.cap := by
  have hheal : ∀ (e : Dev) (n : Nat), (e.healLines a n).cap = e.cap := by
    intro e n; unfold Dev.healLines; dsimp only; split <;> rfl
  rw [Dev.store, hheal]
  split
  · rfl
  · exact Dev.writeLive_cap bs d a

/-! ## Operations on the frames of a stream change no window -/

@[simp] theorem Dev.setFrame_regs (d : Dev) (n id : Nat) (g : Frame → Frame) : (d.setFrame n id g).regs = d.regs := by
  unfold Dev.setFrame
  dsimp only
  split
  · rfl
  · split
    · rfl
    · rw [Dev.store_regs]; rfl

@[simp] theorem Dev.setFrame_windows (d : Dev) (n id : Nat) (g : Frame → Frame) :
    (d.setFrame n id g).cap.windows = d.cap.windows := by
  unfold Dev.setFrame
  dsimp only
  split
  · rfl
  · split
    · rfl
    · rw [Dev.store_cap]; rfl

@[simp] theorem Dev.enqueueDrain_windows (d : Dev) (n id : Nat) : (d.enqueueDrain n id).cap.windows = d.cap.windows := by
  unfold Dev.enqueueDrain
  split
  · rfl
  · split
    · rfl
    · split <;> rfl

/-- A frame that enters the drain queue changes CAP_DRAIN_DEPTH alone. -/
theorem Dev.rd_enqueueDrain (d : Dev) (n id i : Nat) {f : Fld} (hf : f ≠ .CAP_DRAIN_DEPTH) :
    (d.enqueueDrain n id).rd f i = d.rd f i := by
  unfold Dev.enqueueDrain
  split
  · rfl
  · split
    · rfl
    · split
      · exact Dev.rd_wr_fld _ hf _ _ _
      · rfl

/-! ## Freezing into a window -/

/-- A window but for its counts of frames. -/
def TrigWindow.uncounted (x : TrigWindow) : TrigWindow := { x with frozen := 0, left := 0, excluded := 0 }

/-- What freezing frames into window `w` may do: its counts of frames change, CAP_DRAIN_DEPTH and WINDOW_SHORT change, and
otherwise every window and every field is as it was. -/
def Dev.FreezesInto (w : Nat) (d e : Dev) : Prop :=
  (∀ f i, f ≠ .CAP_DRAIN_DEPTH → f ≠ .CAP_STREAM_CNT_WINDOW_SHORT → e.rd f i = d.rd f i) ∧
  ∀ x ∈ d.cap.windows, ∃ y ∈ e.cap.windows, y.uncounted = x.uncounted ∧ (x.id ≠ w → y = x)

section FreezesInto
variable {w : Nat} {c d e : Dev}

/-- A step that changes no window and none of the other fields. -/
theorem Dev.FreezesInto.of_windows_eq (hwin : e.cap.windows = d.cap.windows)
    (hrd : ∀ f i, f ≠ .CAP_DRAIN_DEPTH → f ≠ .CAP_STREAM_CNT_WINDOW_SHORT → e.rd f i = d.rd f i) : d.FreezesInto w e :=
  ⟨hrd, fun x hx => ⟨x, hwin ▸ hx, rfl, fun _ => rfl⟩⟩

theorem Dev.FreezesInto.refl (d : Dev) : d.FreezesInto w d := .of_windows_eq rfl (fun _ _ _ _ => rfl)

theorem Dev.FreezesInto.trans (hcd : c.FreezesInto w d) (hde : d.FreezesInto w e) : c.FreezesInto w e := by
  obtain ⟨hrd, hwin⟩ := hcd
  obtain ⟨hrd', hwin'⟩ := hde
  refine ⟨fun f i hdepth hshort => (hrd' f i hdepth hshort).trans (hrd f i hdepth hshort), fun x hx => ?_⟩
  obtain ⟨y, hy, hyx, hyOther⟩ := hwin x hx
  obtain ⟨z, hz, hzy, hzOther⟩ := hwin' y hy
  refine ⟨z, hz, hzy.trans hyx, fun hne => ?_⟩
  obtain rfl := hyOther hne
  exact hzOther hne

/-- A change of the counts of window `w`. -/
theorem Dev.FreezesInto.setWin (d : Dev) {g : TrigWindow → TrigWindow} (hg : ∀ x, (g x).uncounted = x.uncounted) :
    d.FreezesInto w (d.setWin w g) := by
  refine ⟨fun _ _ _ _ => rfl, fun x hx => ⟨_, List.mem_map_of_mem hx, ?_, fun hne => if_neg hne⟩⟩
  split
  · exact hg x
  · rfl

end FreezesInto

theorem Dev.freezesInto_freeze (d : Dev) (w n : Nat) (f : Frame) : d.FreezesInto w (d.freeze w n f) := by
  unfold Dev.freeze
  split
  · exact .refl d
  · split
    · exact .setWin d fun _ => rfl
    · refine .trans (.setWin d (g := fun x => { x with frozen := x.frozen + 1, left := x.left + 1 }) fun _ => rfl) ?_
      refine .of_windows_eq ?_ fun f i hdepth _ => ?_
      · rw [Dev.enqueueDrain_windows, Dev.setFrame_windows]
      · rw [Dev.rd_enqueueDrain _ _ _ _ hdepth, Dev.rd_congr (Dev.setFrame_regs _ _ _ _)]

theorem Dev.freezesInto_freezeAll (w n a b : Nat) (fs : List Frame) : ∀ d : Dev, d.FreezesInto w (d.freezeAll w n a b fs) := by
  induction fs with
  | nil => exact .refl
  | cons f fs ih =>
    intro d
    refine .trans ?_ (ih _)
    split
    · exact d.freezesInto_freeze w n f
    · exact .refl d

theorem Dev.freezesInto_freezeMembers (w a b : Nat) (ns : List Nat) :
    ∀ d : Dev, d.FreezesInto w (d.freezeMembers w a b ns) := by
  induction ns with
  | nil => exact .refl
  | cons n ns ih =>
    intro d
    refine .trans ?_ (ih _)
    split
    · exact Dev.freezesInto_freezeAll w n a b _ d
    · exact .refl d

/-- Counting the `k` frames that one member lacks changes WINDOW_SHORT alone. -/
theorem Dev.freezesInto_short (d : Dev) (w n k inst : Nat) (fs : List (Nat × Nat)) :
    d.FreezesInto w (if k = 0 then d else (d.cnt .CAP_STREAM_CNT_WINDOW_SHORT n k).raiseI inst 0x2132 fs) := by
  split
  · exact .refl d
  · exact .of_windows_eq rfl fun f i _ hshort => (Dev.raiseI_rd ..).trans (Dev.rd_wr_fld _ hshort _ _ _)

theorem Dev.freezesInto_countShort (w a t : Nat) (ns : List Nat) : ∀ d : Dev, d.FreezesInto w (d.countShort w a t ns) := by
  induction ns with
  | nil => exact .refl
  | cons n ns ih =>
    intro d
    exact .trans (d.freezesInto_short w n _ _ _) (ih _)

/-! ## Outputs -/

@[simp] theorem Dev.pulseOutputs_regs (p : List Byte → Bool) (rs : List (List Byte)) :
    ∀ d : Dev, (d.pulseOutputs p rs).regs = d.regs := by
  induction rs with
  | nil => exact fun _ => rfl
  | cons r rs ih => intro d; rw [Dev.pulseOutputs, ih]; split <;> rfl

@[simp] theorem Dev.pulseOutputs_windows (p : List Byte → Bool) (rs : List (List Byte)) :
    ∀ d : Dev, (d.pulseOutputs p rs).cap.windows = d.cap.windows := by
  induction rs with
  | nil => exact fun _ => rfl
  | cons r rs ih => intro d; rw [Dev.pulseOutputs, ih]; split <;> rfl

@[simp] theorem Dev.pulseOutputs_rd (p : List Byte → Bool) (rs : List (List Byte)) (d : Dev) (f : Fld) (i : Nat) :
    (d.pulseOutputs p rs).rd f i = d.rd f i := Dev.rd_congr (Dev.pulseOutputs_regs p rs d) f i

/-! ## A trigger is submitted (R95 to R99) -/

/-- A group that is disabled, or has no armed member, refuses its trigger. -/
theorem Dev.submitTrigger_refused {d : Dev} {g : Nat} (h : d.rd .CAP_TG_CFG_ENABLE g = 0 ∨ d.membersOf g = [])
    (source t : Nat) : (d.submitTrigger g source t).1 = d.refuseTrigger g source t := by
  unfold Dev.submitTrigger
  by_cases hen : d.rd .CAP_TG_CFG_ENABLE g = 0
  · rw [if_pos hen]
  · have hmem : (d.membersOf g).isEmpty = true := by rw [h.resolve_left hen]; rfl
    rw [if_neg hen, if_pos hmem]

/-- The window that a trigger of group `g` at `t` opens (R96). -/
def Dev.windowFor (d : Dev) (g t : Nat) : TrigWindow :=
  ⟨d.rd .CAP_WINDOW_NEXT, some g, t, t - d.rd .CAP_TG_PRE g * 1000, t + d.rd .CAP_TG_POST g * 1000, d.membersOf g,
    d.membersOf g, false, 0, 0, 0, false, []⟩

/-- The device as a trigger of group `g` at `t` is accepted: the trigger's time is noted and the group's outputs pulse. -/
def Dev.acceptTrigger (d : Dev) (g t : Nat) : Dev :=
  ({ d with cap.lastT := amSet 0 g (t + 1) d.cap.lastT } : Dev).pulseOutputs
    (fun r => leAt 1 1 r == 1 && leAt 2 1 r == g) (d.secRecs 8)

/-- The device with the new window of an accepted trigger, before its frames are looked at: the identifier is taken, the
window entered and counted, OPEN set and 0x2130 raised. -/
def Dev.openWindow (d : Dev) (g t : Nat) : Dev :=
  let a := d.acceptTrigger g t
  let e := a.takeWindowId.2
  let e := { e with cap.windows := e.cap.windows ++ [d.windowFor g t] }
  ((e.cnt .CAP_TG_STATUS_WINDOWS g).wr .CAP_TG_STATUS_OPEN 1 g).raiseI (a.rd .CAP_TG_CFG_INSTANCE g) 0x2130
    [(1, g), (4, d.rd .CAP_WINDOW_NEXT), (8, t), (1, 0)]

@[simp] theorem Dev.acceptTrigger_rd (d : Dev) (g t : Nat) (f : Fld) (i : Nat) : (d.acceptTrigger g t).rd f i = d.rd f i := by
  rw [Dev.acceptTrigger, Dev.pulseOutputs_rd]; rfl

@[simp] theorem Dev.acceptTrigger_windows (d : Dev) (g t : Nat) : (d.acceptTrigger g t).cap.windows = d.cap.windows := by
  rw [Dev.acceptTrigger, Dev.pulseOutputs_windows]

theorem Dev.openWindow_windows (d : Dev) (g t : Nat) :
    (d.openWindow g t).cap.windows = d.cap.windows ++ [d.windowFor g t] :=
  congrArg (· ++ [d.windowFor g t]) (d.acceptTrigger_windows g t)

theorem Dev.openWindow_open (d : Dev) (g t : Nat) : (d.openWindow g t).rd .CAP_TG_STATUS_OPEN g = 1 := by
  rw [Dev.openWindow, Dev.raiseI_rd, Dev.rd_wr_same]; rfl

/-- The identifier after the new window's. -/
theorem Dev.openWindow_next {d : Dev} (g t : Nat) (h : d.rd .CAP_WINDOW_NEXT < 0xFFFFFFFE) :
    (d.openWindow g t).rd .CAP_WINDOW_NEXT = d.rd .CAP_WINDOW_NEXT + 1 := by
  have htaken : (d.openWindow g t).rd .CAP_WINDOW_NEXT = (d.acceptTrigger g t).takeWindowId.2.rd .CAP_WINDOW_NEXT := by
    rw [Dev.openWindow, Dev.raiseI_rd, Dev.rd_wr_fld _ (by decide), Dev.cnt, Dev.rd_wr_fld _ (by decide)]
    rfl
  have hwidth : Fld.width .CAP_WINDOW_NEXT = 32 := rfl
  rw [htaken, Dev.takeWindowId, Dev.rd_wr_same, hwidth, Dev.acceptTrigger_rd, if_neg (by omega)]
  omega

theorem satAdd_le (top a n : Nat) : satAdd top a n ≤ top := by
  unfold satAdd
  split <;> omega

/-- WINDOWS counts the new window. -/
theorem Dev.openWindow_count (d : Dev) (g t : Nat) :
    (d.openWindow g t).rd .CAP_TG_STATUS_WINDOWS g =
      satAdd (2 ^ Fld.CAP_TG_STATUS_WINDOWS.width - 1) (d.rd .CAP_TG_STATUS_WINDOWS g) 1 := by
  have hbefore : ∀ ws : List TrigWindow, ({ (d.acceptTrigger g t).takeWindowId.2 with cap.windows := ws } : Dev).rd
      .CAP_TG_STATUS_WINDOWS g = d.rd .CAP_TG_STATUS_WINDOWS g := by
    intro ws
    rw [← d.acceptTrigger_rd g t .CAP_TG_STATUS_WINDOWS g]
    exact Dev.rd_wr_fld _ (by decide) _ _ _
  rw [Dev.openWindow, Dev.raiseI_rd, Dev.rd_wr_fld _ (by decide), Dev.rd_cnt, if_pos ⟨rfl, rfl⟩, hbefore]
  have hle := satAdd_le (2 ^ Fld.CAP_TG_STATUS_WINDOWS.width - 1) (d.rd .CAP_TG_STATUS_WINDOWS g) 1
  have hpos : 0 < 2 ^ Fld.CAP_TG_STATUS_WINDOWS.width := Nat.two_pow_pos _
  exact Nat.mod_eq_of_lt (by omega)

section Opens
/-! A trigger that an enabled group with armed members takes: not far ahead of device time, the group's first, and without an
open window of the group. -/
variable {d : Dev} {g t : Nat} (hen : d.rd .CAP_TG_CFG_ENABLE g = 1) (hmem : d.membersOf g ≠ [])
  (htime : t ≤ d.now + 10000000000) (hfirst : amGet 0 g d.cap.lastT = 0)
  (hnone : ∀ x ∈ d.cap.windows, x.group ≠ some g ∨ x.closed = true)
include hen hmem htime hfirst hnone

/-- It opens a window, counts what its members lack and freezes what they have. -/
theorem Dev.submitTrigger_opens (source : Nat) :
    (d.submitTrigger g source t).1 =
      ((d.openWindow g t).countShort (d.rd .CAP_WINDOW_NEXT) (t - d.rd .CAP_TG_PRE g * 1000) t (d.membersOf g)).freezeMembers
        (d.rd .CAP_WINDOW_NEXT) (t - d.rd .CAP_TG_PRE g * 1000) (t + d.rd .CAP_TG_POST g * 1000) (d.membersOf g) := by
  have hnoOpen : ∀ p : TrigWindow → Bool,
      (d.acceptTrigger g t).cap.windows.find? (fun x => x.group == some g && !x.closed && p x) = none := by
    intro p
    rw [Dev.acceptTrigger_windows, List.find?_eq_none]
    intro x hx
    rcases hnone x hx with h | h <;> simp [h]
  have harmed : ¬(d.membersOf g).isEmpty = true := by simpa using hmem
  rw [Dev.submitTrigger, if_neg (by omega), if_neg harmed, if_neg (by omega)]
  dsimp only
  split
  next x hx => exact absurd (hx.symm.trans (hnoOpen _)) (by simp)
  next =>
    have hnext : (d.acceptTrigger g t).rd .CAP_WINDOW_NEXT = d.rd .CAP_WINDOW_NEXT := d.acceptTrigger_rd g t _ _
    rw [Dev.openWindow, Dev.windowFor, ← hnext]
    rfl

/-- The frames are frozen into the window that opens. -/
theorem Dev.freezesInto_submitTrigger (source : Nat) :
    (d.openWindow g t).FreezesInto (d.rd .CAP_WINDOW_NEXT) (d.submitTrigger g source t).1 := by
  rw [Dev.submitTrigger_opens hen hmem htime hfirst hnone]
  exact .trans (Dev.freezesInto_countShort _ _ _ _ _) (Dev.freezesInto_freezeMembers _ _ _ _ _)

end Opens

/-- SW_TRIG submits a trigger at CAP_SW_TRIG_TIME, or now where that is 0 (R95). -/
theorem Dev.swTrig_of_time {d : Dev} {t : Nat}
    (h : (if d.rd64 .CAP_SW_TRIG_TIME_LO .CAP_SW_TRIG_TIME_HI 0 = 0 then d.now
      else d.rd64 .CAP_SW_TRIG_TIME_LO .CAP_SW_TRIG_TIME_HI 0) = t) (g : Nat) :
    d.swTrig g = (d.submitTrigger g 4 t).1 := by
  subst h
  rfl

/-- Settles O11: a refused trigger is counted; what an accepted one does after its window is opened is freezing into that
window, which keeps what the statement says of the window, of the others and of the fields. -/
theorem softwareTrigger : Obligations.SoftwareTrigger := by
  intro s g t _ htime
  refine ⟨fun hrefused => ?refused, fun hen hmem hlimit hfirst hnone hfresh hnext => ?opens⟩
  case refused =>
    exact Does.of rfl ((Dev.swTrig_of_time htime g).trans (Dev.submitTrigger_refused hrefused 4 t))
  case opens =>
    obtain ⟨hrd, hwin⟩ := Dev.freezesInto_submitTrigger hen hmem hlimit hfirst hnone 4
    rw [← Dev.swTrig_of_time htime g, Dev.openWindow_windows] at hwin
    rw [← Dev.swTrig_of_time htime g] at hrd
    refine Ends.of (f := s.dev.swTrig g) rfl ⟨?isOpen, ?next, ?count, ?new, fun y hy => ?old⟩
    case isOpen => rw [hrd _ _ (by decide) (by decide), Dev.openWindow_open]
    case next => rw [hrd _ _ (by decide) (by decide), Dev.openWindow_next _ _ hnext]
    case count => rw [hrd _ _ (by decide) (by decide), Dev.openWindow_count]
    case new =>
      obtain ⟨y, hy, heq, _⟩ := hwin (s.dev.windowFor g t) (by simp)
      simp only [TrigWindow.uncounted, TrigWindow.mk.injEq] at heq
      obtain ⟨hid, hgroup, htrig, hstart, hstop, hmembers, -, hclosed, -⟩ := heq
      exact ⟨y, hy, hid, hgroup, htrig, hstart, hstop, hmembers, hclosed⟩
    case old =>
      obtain ⟨z, hz, _, hsame⟩ := hwin y (by simp [hy])
      exact hsame (hfresh y hy) ▸ hz

/-! ## Trigger pins and the end of windows (R96, R98, R472) -/

/-- An edge that the MODE of its pin names is stamped with the pin's groups, and its debounce begins. -/
theorem Dev.inputEdge_fires {d : Dev} {pin : Nat} {rising : Bool} {r : List Byte} (hrec : d.trigRec pin = some r)
    (hmode : leAt 1 1 r = 1 ∧ rising = true ∨ leAt 1 1 r = 2 ∧ rising = false ∨ leAt 1 1 r = 3)
    (hquiet : d.cap.edges.any (fun e => e.pin == pin && decide (d.now < e.until_)) = false) :
    d.inputEdge pin rising =
      { d with cap.edges := d.cap.edges ++ [⟨pin, d.now, d.now + leAt 4 4 r, leAt 8 8 r⟩] } := by
  have hfires : (leAt 1 1 r = 1 ∧ rising = true) ∨ (leAt 1 1 r = 2 ∧ (!rising) = true) ∨ leAt 1 1 r = 3 := by
    simpa using hmode
  have hnamed : leAt 1 1 r ≠ 0 := by omega
  simp only [Dev.inputEdge, hrec, if_neg hnamed, hquiet, Bool.false_eq_true, if_false, if_pos hfires]

/-- The oldest edge of a pin whose debounce has passed fires its groups. -/
theorem Dev.debounceExpiry_passed {d : Dev} {pin : Nat} {e : Edge}
    (h : d.cap.edges.find? (fun e => e.pin == pin && decide (e.until_ ≤ d.now)) = some e) :
    d.debounceExpiry pin =
      ({ d with cap.edges := d.cap.edges.erase e } : Dev).submitMask e.groups 0 e.t (List.range 64) := by
  simp only [Dev.debounceExpiry, h]

/-- A second that has begun starts the pulses of the outputs in MODE 2. -/
theorem Dev.secondPulse_newSecond {d : Dev} (h : d.cap.lastSecond < d.second) :
    d.secondPulse =
      ({ d with cap.lastSecond := d.second } : Dev).pulseOutputs (fun r => leAt 1 1 r == 2) (d.secRecs 8) :=
  if_neg (by omega)

/-- A pulse whose width has passed ends. -/
theorem Dev.pulseEnd_passed {d : Dev} {k t : Nat} (hpulse : amFind k d.cap.pulses = some t) (hpast : t ≤ d.now) :
    d.pulseEnd k = ({ d with cap.pulses := amDel k d.cap.pulses } : Dev).send (.pin 0 k false) := by
  simp only [Dev.pulseEnd, hpulse, if_neg (show ¬d.now < t by omega)]

/-- A window past its guard has no open part left. -/
theorem Dev.closeGuard_passed {d : Dev} {w : Nat} {x : TrigWindow} (hwin : d.window w = some x) (hgroup : x.group.isSome)
    (hpast : x.stop + d.rd .CAP_TIMING_CLOSE_GUARD_MS * 1000000 < d.now) :
    d.closeGuard w = (d.setWin w (fun x => { x with open_ := [] })).checkClosed w := by
  simp only [Dev.closeGuard, hwin, hgroup, hpast, decide_true, Bool.and_self, if_true]

/-- Settles O10: each clause is its operation where it acts. -/
theorem triggerPins : Obligations.TriggerPins := by
  refine ⟨fun s pin rising r hrec hmode hquiet => ?edge, fun s pin e hdue => ?debounced, fun s hsecond => ?pulses,
    fun s k t hpulse hpast => ?pulseEnds, fun s w x hwin hgroup hpast => ?guard⟩
  case edge => exact Does.of rfl (Dev.inputEdge_fires hrec hmode hquiet)
  case debounced => exact Does.of rfl (Dev.debounceExpiry_passed hdue)
  case pulses => exact Does.of rfl (Dev.secondPulse_newSecond hsecond)
  case pulseEnds => exact Does.of rfl (Dev.pulseEnd_passed hpulse hpast)
  case guard => exact Does.of rfl (Dev.closeGuard_passed hwin hgroup hpast)

end Sys2Proof.Machine

/-! SUPPORT. Cameras (R67, R73 to R80, R86): control messages and data packets on a port with KFSP service, and the statements
CameraControl and CameraData. -/
namespace Sys2Proof.Machine

/-! ## A header search without a partition -/

@[simp] theorem Dev.countSearch_none (d : Dev) (n : Nat) : d.countSearch none n = d := rfl

@[simp] theorem Dev.hgSearch_none (d : Dev) (key : Nat) : d.hgSearch none key = none := rfl

/-- Without a classifier partition a frame goes to its port's owner, and nothing is counted. -/
theorem Dev.classify_noPart {d : Dev} {p : Nat} (h : d.flowPart (d.portOwner p) = none) (key : Nat) (bs : List Byte) :
    d.classify p key bs = (d, .toInstance (d.portOwner p)) := by
  simp only [Dev.classify, h, Dev.countSearch_none, Dev.hgSearch_none]

/-! ## Control messages (R74 to R77, R86) -/

/-- A control message that is received is acted on. -/
theorem Dev.control_received {d e : Dev} {y : Arrival} {bs : List Byte} (h : d.receive y bs = (e, true)) (f : Dev → Dev) :
    d.control y bs f = f e := by
  simp only [Dev.control, h, if_true]

/-- A well-formed OPEN is not dropped. -/
theorem Dev.openCmd_wellFormed {d : Dev} {p : Nat} {bs : List Byte} (hok : d.ctrlOk p bs = true) (htype : beAt 1 1 bs = 0x22)
    (hlen : beAt 6 2 bs = 32) (hstream : beAt 4 2 bs = 0xFFFF) (hrsvd : beAt 35 1 bs = 0) (hraw : beAt 34 1 bs ≤ 1)
    (hzero : allZero (sliceB 42 6 bs) = true) (hpix : pixOk (beAt 20 4 bs) = true) :
    ¬(!d.ctrlOk p bs || beAt 1 1 bs != 0x22 || beAt 6 2 bs != 32 || beAt 4 2 bs != 0xFFFF || beAt 35 1 bs != 0 ||
      decide (1 < beAt 34 1 bs) || !allZero (sliceB 42 6 bs) || !pixOk (beAt 20 4 bs)) = true := by
  simp [hok, htype, hlen, hstream, hrsvd, hraw, hzero, hpix]

section Control
/-! Port `p` has KFSP service and is up. -/
variable {d : Dev} {p : Nat} {a : NetAddr} {bs : List Byte} (hservice : d.laneFlag p 3 = true) (hup : d.portUp p = true)
include hservice hup

/-- A well-formed HELLO of an address that has no session on the port opens one and is answered with the version selected. -/
theorem Dev.hello_opens {v : Nat} (hok : d.ctrlOk p bs = true) (htype : beAt 1 1 bs = 0x20) (hlen : beAt 6 2 bs = 16)
    (hstream : beAt 4 2 bs = 0xFFFF) (hsession : beAt 8 4 bs = 0) (hopts : beAt 18 2 bs ≤ 7)
    (hver : beAt 0 1 bs = beAt 17 1 bs) (hcommon : commonVersion (beAt 16 1 bs) (beAt 17 1 bs) = some v)
    (hnew : ∀ x ∈ d.cap.sessions, ¬(x.port = p ∧ x.src.v6 = a.v6 ∧ x.src.ip = a.ip)) :
    d.hello p a bs =
      (let id := d.cap.nextSession + 1
       let opts := grantedOpts v (beAt 18 2 bs)
       let e : Dev := { d with cap.sessions := d.cap.sessions ++ [⟨id, p, a, v, opts, beAt 20 4 bs, beAt 2 2 bs, []⟩],
                               cap.nextSession := id }
       e.sendCtrl p a
         (e.ctrlMsg p v 0x21 (beAt 2 2 bs) 0xFFFF id (beBytes 1 v ++ beBytes 1 0 ++ beBytes 2 opts ++ zeros 4))) := by
  have hnoSession : d.sessionOf p a = none := by
    rw [Dev.sessionOf, List.find?_eq_none]
    intro x hx
    have := hnew x hx
    simp only [Bool.and_eq_true, beq_iff_eq]
    tauto
  have hnoOld : d.cap.sessions.filter (fun t => t.port == p && t.src.v6 == a.v6 && t.src.ip == a.ip) = [] := by
    rw [List.filter_eq_nil_iff]
    intro x hx
    have := hnew x hx
    simp only [Bool.and_eq_true, beq_iff_eq]
    tauto
  simp [Dev.hello, hservice, hup, hok, htype, hlen, hstream, hsession, hopts, hver, hcommon, hnoSession, hnoOld]

section Open
/-! A well-formed OPEN. -/
variable (hok : d.ctrlOk p bs = true) (htype : beAt 1 1 bs = 0x22) (hlen : beAt 6 2 bs = 32)
  (hstream : beAt 4 2 bs = 0xFFFF) (hrsvd : beAt 35 1 bs = 0) (hraw : beAt 34 1 bs ≤ 1)
  (hzero : allZero (sliceB 42 6 bs) = true) (hpix : pixOk (beAt 20 4 bs) = true)
include hok htype hlen hstream hrsvd hraw hzero hpix

/-- From an address without a session it is answered with code 1. -/
theorem Dev.openCmd_noSession (hsession : d.sessionOf p a = none) :
    d.openCmd p a bs =
      (let e := d.sendCtrl p a (d.ctrlMsg p (beAt 0 1 bs) 0x23 (beAt 2 2 bs) 0xFFFF (beAt 8 4 bs)
         (beBytes 1 1 ++ zeros 1 ++ beBytes 2 0xFFFF ++ beBytes 4 0 ++ beBytes 4 0 ++ zeros 4))
       e.raiseI (e.portOwner p) 0x2103 [(2, p), (2, 1)]) := by
  simp only [Dev.openCmd, hservice, hup, Bool.not_true, Bool.or_self, Bool.false_eq_true, if_false, if_neg (Dev.openCmd_wellFormed hok htype hlen hstream hrsvd hraw hzero hpix), hsession,
    Option.bind_none]

/-- In a session, with a new SEQ and without a classifier partition, an OPEN that nothing refuses binds the stream that it is
given and is answered with code 0; the answer is kept with its session. -/
theorem Dev.openCmd_binds {x : Session} {n : Nat} (hsession : d.sessionOf p a = some x) (hid : x.id = beAt 8 4 bs)
    (hver : x.ver = beAt 0 1 bs) (hnew : x.opens.find? (fun o => o.1 == beAt 2 2 bs) = none)
    (hpart : d.flowPart (d.portOwner p) = none)
    (hgrant : d.openRefusal p a (d.portOwner p) x (d.openStream p a x bs) = none) (hpick : d.pickStream p = some n) :
    d.openCmd p a bs =
      (let e := d.bind n (d.portOwner p) x.ver (d.openStream p a x bs)
       let slots := e.ringSlots n
       let e := e.raiseI (d.portOwner p) 0x2101 [(2, n), (1, d.portOwner p), (2, p)]
       let m := e.ctrlMsg p x.ver 0x23 (beAt 2 2 bs) n (beAt 8 4 bs) (beBytes 1 0 ++ zeros 1 ++ beBytes 2 n ++
         beBytes 4 (d.openStream p a x bs).repairUs ++ beBytes 4 slots ++ zeros 4)
       (e.noteOpen x.id (beAt 2 2 bs) m).sendCtrl p a m) := by
  simp only [Dev.openCmd, hservice, hup, Bool.not_true, Bool.or_self, Bool.false_eq_true, if_false, if_neg (Dev.openCmd_wellFormed hok htype hlen hstream hrsvd hraw hzero hpix), hsession,
    Option.bind_some, if_pos hid, hnew, if_neg (not_not.mpr hver.symm), hpart, Dev.countSearch_none, Dev.hgSearch_none,
    hgrant, hpick]

end Open

/-- A CLOSE of a bound stream of its session, with a reason of the table, unbinds the stream and is answered. -/
theorem Dev.closeCmd_unbinds {n : Nat} {x : Stream} (hstream : d.ctrlStream p a 0x25 4 bs = some (n, x))
    (hreason : beAt 16 1 bs ≤ 5) (hzero : allZero (sliceB 17 3 bs) = true) :
    d.closeCmd p a bs =
      (let e := d.unbind n (beAt 16 1 bs)
       e.sendCtrl p a (e.ctrlMsg p (beAt 0 1 bs) 0x26 (beAt 2 2 bs) n x.session (zeros 4))) := by
  simp [Dev.closeCmd, hservice, hup, hstream, hreason, hzero]

/-- A HEARTBEAT of a stream of version 1.3 refreshes its idle time. -/
theorem Dev.heartbeat_refreshes {n : Nat} {x : Stream} (hstream : d.ctrlStream p a 0x27 0 bs = some (n, x))
    (hver : 0x13 ≤ d.rd .CAP_STREAM_CFG_VERSION n) :
    d.heartbeat p a bs = d.modStream n (fun x => { x with lastTraffic := d.now, idle := false }) := by
  simp [Dev.heartbeat, hservice, hup, hstream, hver]

/-- A well-formed CLOSE_ACK of a session changes nothing. -/
theorem Dev.closeAck_wellFormed (hok : d.ctrlOk p bs = true) (htype : beAt 1 1 bs = 0x26) (hlen : beAt 6 2 bs = 4)
    (hzero : allZero (sliceB 16 4 bs) = true) (hsession : (d.sessionOf p a).isSome) : d.closeAck p a bs = d := by
  simp [Dev.closeAck, hservice, hup, hok, htype, hlen, hzero, Option.isNone_eq_false_iff.mpr hsession]

end Control

/-- Settles O7: each clause is its message, received, in the case that the statement names. -/
theorem cameraControl : Obligations.CameraControl := by
  intro s y a bs d hreceive hservice hup
  have acts : ∀ {c : Instr} {f : Dev → Dev} {e : Dev},
      exec c s = .next { s with dev := s.dev.control y bs f } → f d = e → Does c s e :=
    fun hexec he => Does.of hexec ((Dev.control_received hreceive _).trans he)
  refine ⟨fun v hok htype hlen hstream hsession hopts hver hcommon hnew => ?hello,
    fun hok htype hlen hstream hrsvd hraw hzero hpix =>
      ⟨fun hsession => ?noSession, fun x n hsession hid hver hnew hpart hgrant hpick => ?binds⟩,
    fun n x hstream hreason hzero => ?close, fun n x hstream hver => ?heartbeat,
    fun hok htype hlen hzero hsession => ?closeAck⟩
  case hello => exact acts rfl (Dev.hello_opens hservice hup hok htype hlen hstream hsession hopts hver hcommon hnew)
  case noSession =>
    exact acts rfl (Dev.openCmd_noSession hservice hup hok htype hlen hstream hrsvd hraw hzero hpix hsession)
  case binds =>
    exact acts rfl (Dev.openCmd_binds hservice hup hok htype hlen hstream hrsvd hraw hzero hpix hsession hid hver hnew hpart
      hgrant hpick)
  case close => exact acts rfl (Dev.closeCmd_unbinds hservice hup hstream hreason hzero)
  case heartbeat => exact acts rfl (Dev.heartbeat_refreshes hservice hup hstream hver)
  case closeAck => exact acts rfl (Dev.closeAck_wellFormed hservice hup hok htype hlen hzero hsession)

/-! ## Data packets (R73, R78 to R80) -/

/-- The fields of a data packet (R73). -/
def packetOf (bs : List Byte) : Packet :=
  ⟨beAt 2 2 bs, beAt 8 4 bs, beAt 0xC 4 bs, beAt 0x10 8 bs, sliceB 32 (beAt 0x1C 2 bs) bs⟩

/-- Stream `n` has traffic: its idle time begins again. -/
def Dev.refreshed (d : Dev) (n : Nat) : Dev := d.modStream n (fun x => { x with lastTraffic := d.now, idle := false })

section Packet
/-! A data packet received on a port with KFSP service and without the receive check. -/
variable {c d : Dev} {y : Arrival} {a : NetAddr} {raw : Bool} {bs : List Byte} (hreceive : c.receive y bs = (d, true))
  (hservice : d.laneFlag y.port 3 = true) (hcheck : d.laneFlag y.port 0 = false)
include hreceive hservice hcheck

/-- A packet of no stream counts as unbound. -/
theorem Dev.dataPacket_unbound (hflow : d.flowOf y.port a raw (beAt 4 2 bs % 4096) = none)
    (hpart : d.flowPart (d.portOwner y.port) = none) :
    c.dataPacket y a raw bs = d.cnt .CAP_PORT_DROP_UNBOUND y.port := by
  simp only [Dev.dataPacket, hreceive, hservice, hcheck, hflow, Dev.classify_noPart hpart, Bool.not_true, Bool.or_self,
    Bool.false_and, Bool.false_eq_true, if_false]

section Bound
/-! It is of stream `n`. -/
variable {n : Nat} {x : Stream} (hflow : d.flowOf y.port a raw (beAt 4 2 bs % 4096) = some (n, x))
include hflow

/-- A packet with a wrong format counts in PKT_FORMAT. -/
theorem Dev.dataPacket_badFormat (hformat : d.formatOk n x bs = false) :
    c.dataPacket y a raw bs = (d.refreshed n).cnt .CAP_STREAM_CNT_PKT_FORMAT n := by
  have hformat' : (d.refreshed n).formatOk n x bs = false := hformat
  simp only [Dev.refreshed] at hformat'
  simp only [Dev.dataPacket, hreceive, hservice, hcheck, hflow, hformat', Bool.not_true, Bool.not_false, Bool.or_self,
    Bool.false_and, Bool.false_eq_true, if_false, if_true]
  rfl

section Format
variable (hformat : d.formatOk n x bs = true)
include hformat

/-- A packet with the right format comes to the sluices of its stream and of the stream's owner. -/
theorem Dev.dataPacket_atSluices :
    c.dataPacket y a raw bs =
      (let s := (d.refreshed n).letPass n y.wire
       let i := if s.2 then s.1.letPass (4096 + (d.refreshed n).streamOwner n) y.wire else s
       if !i.2 then i.1.cnt .CAP_STREAM_CNT_SLUICE_DROP n
       else if i.1.ingestDown y.port n then (i.1.refuseParcel).cnt .CAP_PORT_DROP_RXBUF y.port
       else i.1.assemble n (packetOf bs)) := by
  have hformat' : (d.refreshed n).formatOk n x bs = true := hformat
  have hcheck' : (d.refreshed n).laneFlag y.port 0 = false := hcheck
  simp only [Dev.refreshed] at hformat' hcheck'
  simp only [Dev.dataPacket, hreceive, hservice, hcheck, hflow, hformat', hcheck', Bool.not_true, Bool.or_self,
    Bool.false_and, Bool.false_eq_true, if_false]
  rfl

/-- A packet that its stream's sluice refuses counts in SLUICE_DROP. -/
theorem Dev.dataPacket_sluiced (hsluice : ((d.refreshed n).letPass n y.wire).2 = false) :
    c.dataPacket y a raw bs = ((d.refreshed n).letPass n y.wire).1.cnt .CAP_STREAM_CNT_SLUICE_DROP n := by
  rw [Dev.dataPacket_atSluices hreceive hservice hcheck hflow hformat]
  simp [hsluice]

/-- A packet that both sluices admit, and whose way to the ring is up, comes to its frame. -/
theorem Dev.dataPacket_admitted {e1 e2 : Dev} (hstream : (d.refreshed n).letPass n y.wire = (e1, true))
    (hinst : e1.letPass (4096 + (d.refreshed n).streamOwner n) y.wire = (e2, true)) (hup : e2.ingestDown y.port n = false) :
    c.dataPacket y a raw bs = e2.assemble n (packetOf bs) := by
  rw [Dev.dataPacket_atSluices hreceive hservice hcheck hflow hformat]
  simp [hstream, hinst, hup]

end Format
end Bound
end Packet

/-- A packet that its frame has already only counts in PKT_DUP. -/
theorem Dev.assemble_duplicate {d : Dev} {n : Nat} {z : Stream} {f : Frame} {k : Packet} (hstream : d.stream n = some z)
    (hfilling : z.filling.find? (fun f => f.num == k.num) = some f) (hframe : z.frame f.id = some f)
    (hplaced : k.idx ∈ f.placed) : d.assemble n k = d.cnt .CAP_STREAM_CNT_PKT_DUP n := by
  simp [Dev.assemble, Dev.placePacket, hstream, hfilling, hframe, hplaced]

/-- Settles O8: each clause is the case of KFSP_DATA_PACKET in which the packet ends. -/
theorem cameraData : Obligations.CameraData := by
  intro s y a raw bs d hreceive hservice hcheck
  refine ⟨fun hflow hpart => ?unbound, fun n x hflow => ⟨fun hformat => ?badFormat, fun hformat =>
    ⟨fun hsluice => ?sluiced, fun e1 e2 hstream hinst hup =>
      ⟨?admitted, fun z f hz hfilling hframe hplaced => ?duplicate⟩⟩⟩⟩
  case unbound => exact Does.of rfl (Dev.dataPacket_unbound hreceive hservice hcheck hflow hpart)
  case badFormat => exact Does.of rfl (Dev.dataPacket_badFormat hreceive hservice hcheck hflow hformat)
  case sluiced => exact Does.of rfl (Dev.dataPacket_sluiced hreceive hservice hcheck hflow hformat hsluice)
  case admitted => exact Does.of rfl (Dev.dataPacket_admitted hreceive hservice hcheck hflow hformat hstream hinst hup)
  case duplicate =>
    exact Does.of rfl ((Dev.dataPacket_admitted hreceive hservice hcheck hflow hformat hstream hinst hup).trans
      (Dev.assemble_duplicate hz hfilling hframe hplaced))

end Sys2Proof.Machine

/-! SUPPORT. The drain (R102, R104): when a frame is dispatched, when a drain pauses and resumes, and the statement
DrainCommands. -/
namespace Sys2Proof.Machine

/-- A job that is posted leaves every register but the tail of its queue. -/
theorem Dev.rd_postJob {d e : Dev} {j : Job} {ok : Bool} (h : d.postJob j = (e, ok)) {f : Fld} (hf : f ≠ .CDC_Q_SQ_TAIL)
    (i : Nat) : e.rd f i = d.rd f i := by
  unfold Dev.postJob at h
  dsimp only at h
  split at h <;> cases h
  · rfl
  · rw [Dev.rd_wr_fld _ hf]
    exact Dev.rd_congr (Dev.store_regs _ _ _) f i

section Dispatch
/-! Frame `f` of stream `x` goes next. -/
variable {d : Dev} {n id : Nat} {x : Stream} {f : Frame} (hmode : d.rd .AVL_STATUS_MODE ≠ 6)
  (hpick : d.drainPick = some (n, id)) (hqueued : d.queued (n, id) = some (x, f))
include hmode hpick hqueued

/-- A cause that is neither the route nor the key pauses the stream's drain. -/
theorem Dev.drainDispatch_pauses {c : Nat} (hcause : d.drainCause n x = some c) (hroute : c ≠ 4) (hkey : c ≠ 6) :
    d.drainDispatch = d.pauseDrain n c := by
  simp only [Dev.drainDispatch, if_neg hmode, hpick, hqueued, hcause, if_neg hroute, if_neg hkey]

/-- A frame whose compress job is posted takes the next CSEQ and leaves the queue. -/
theorem Dev.drainDispatch_posts {e : Dev} (hcause : d.drainCause n x = none)
    (hpost : d.postJob ⟨0, jobDesc 0 2 1 0 x.pixfmt x.width x.height 0 (x.slotAddr f.slot) x.bytes 0 (d.stagingBase 5)
      (2 * x.bytes + 65536) (d.dur.cseqNext % 2 ^ 32) (d.streamOwner n), d.streamOwner n, d.gen (d.streamOwner n),
      .drain n id, none⟩ = (e, true)) :
    d.drainDispatch =
      (let t : Txn := ⟨d.dur.cseqNext, d.streamOwner n, d.gen (d.streamOwner n), .frame n id x.nsid 0 0, [], [], 1, 0⟩
       let e := e.takeCseq.2
       let e := { e with dur.txns := e.dur.txns ++ [t], cap.queue := e.cap.queue.filter (fun p => p != (n, id)) }
       let e := e.wr .CAP_DRAIN_DEPTH e.cap.queue.length
       ((e.noteFrame n id (fun f => { f with cseq := some d.dur.cseqNext })).charge 2 (d.streamOwner n)
         (e.dieTime x.bytes)).refillDrain) := by
  have hgen : e.takeCseq.2.gen (d.streamOwner n) = d.gen (d.streamOwner n) := Dev.rd_postJob hpost (by decide) _
  simp only [Dev.drainDispatch, if_neg hmode, hpick, hqueued, hcause, hpost, hgen, Bool.not_true, Bool.false_eq_true, if_false]

end Dispatch

/-- A pause whose cause has cleared ends, and the stream's frozen frames enter the queue again. -/
theorem Dev.drainResume_cleared {d : Dev} {n c : Nat} {x : Stream} (hstream : d.stream n = some x)
    (hpaused : x.paused = some c) (hcleared : d.causeCleared n c x = true) :
    d.drainResume n =
      (x.frames.filter (fun f => f.state == 3 && !f.queued)).foldl (fun d f => d.enqueueDrain n f.id)
        (d.modStream n (fun x => { x with paused := none })) := by
  simp only [Dev.drainResume, hstream, hpaused, hcleared, Bool.not_true, Bool.false_eq_true, if_false]

/-- Settles O12: each clause is DRAIN_DISPATCH or DRAIN_RESUME in its case. -/
theorem drainCommands : Obligations.DrainCommands := by
  refine ⟨fun s n id c x f hmode hpick hqueued => ⟨fun hcause hroute hkey => ?pauses, fun e hcause hpost => ?posts⟩,
    fun s n x c hstream hpaused hcleared => ?resumes⟩
  case pauses => exact Does.of rfl (Dev.drainDispatch_pauses hmode hpick hqueued hcause hroute hkey)
  case posts => exact Does.of rfl (Dev.drainDispatch_posts hmode hpick hqueued hcause hpost)
  case resumes => exact Does.of rfl (Dev.drainResume_cleared hstream hpaused hcleared)

end Sys2Proof.Machine

/-! SUPPORT. The vendor capture commands (R96, R101, R105 to R109): what each does where nothing refuses it, and the statements
CaptureArming and FrameQueries. -/
namespace Sys2Proof.Machine

/-! ## Arm and disarm (R96, R101, R106) -/

/-- A bound stream may be acted on by its owner. -/
theorem Dev.streamBad_own {d : Dev} {inst n : Nat} (hbound : d.streamState n ≠ 0) (hown : d.streamOwner n = inst) :
    d.streamBad inst n = none := by
  rw [Dev.streamBad, if_neg hbound, if_neg (not_not.mpr hown)]

/-- A bit that is clear is a field of one bit that holds 0. -/
theorem bitsOf_eq_zero_of_bitOf {k v : Nat} (h : bitOf k v = false) : bitsOf k k v = 0 := by
  have hbit : (v / 2 ^ k) % 2 ≠ 1 := by simpa [bitOf] using h
  have hone : k + 1 - k = 1 := by omega
  rw [bitsOf, hone]
  omega

/-- CAPTURE_ARM in MODE 1 of a bound stream that is not armed. -/
theorem Dev.captureArm_standing {d : Dev} {h : Nat} {c : HCmd} {x : Namespace} (hready : d.ready h false 0x81 2 c)
    (hmode : bitsOf 31 30 (cdw 10 c.sqe) = 1) (hrsvd0 : bitsOf 23 12 (cdw 10 c.sqe) = 0)
    (hrsvd1 : bitsOf 27 16 (cdw 11 c.sqe) = 0) (hmin : 10 ≤ cdw 12 c.sqe) (hmax : cdw 12 c.sqe ≤ 10000)
    (hpre : cdw 13 c.sqe = 0) (hpost : cdw 14 c.sqe = 0) (hbound : d.streamState (bitsOf 11 0 (cdw 10 c.sqe)) = 1)
    (hown : d.streamOwner (bitsOf 11 0 (cdw 10 c.sqe)) = c.inst) (hns : d.nsOf c = some x) (hkind : x.kind = 1)
    (hfilter : bitOf 31 (cdw 11 c.sqe) = false) :
    d.captureArm h =
      (let w0 := cdw 10 c.sqe
       let w1 := cdw 11 c.sqe
       let n := bitsOf 11 0 w0
       (((d.modStream n (fun x => { x with standing := none })).applyArm n 1 (bitsOf 29 24 w0) 0 (bitsOf 30 29 w1)
          (bitsOf 28 28 w1) (bitsOf 15 0 w1) (cdw 12 c.sqe) c.key).standWindow n).succeed h 0 0) := by
  have hfree : d.streamBad c.inst (bitsOf 11 0 (cdw 10 c.sqe)) = none := Dev.streamBad_own (by omega) hown
  have hbudget : ¬(10000 < cdw 12 c.sqe) := by omega
  have hbudget' : ¬(cdw 12 c.sqe < 10) := by omega
  rw [Dev.captureArm, Dev.onCmd_ready hready]
  simp [hmode, hrsvd0, hrsvd1, hbudget, hbudget', hpre, hpost, hfree, hns, hkind, hfilter, hbound,
    bitsOf_eq_zero_of_bitOf hfilter]

/-- CAPTURE_DISARM of an armed stream. -/
theorem Dev.captureDisarm_armed {d : Dev} {h : Nat} {c : HCmd} (hready : d.ready h false 0x82 2 c)
    (hrsvd : cdw 10 c.sqe < 4096) (harmed : 2 ≤ d.streamState (bitsOf 11 0 (cdw 10 c.sqe)))
    (hown : d.streamOwner (bitsOf 11 0 (cdw 10 c.sqe)) = c.inst) :
    d.captureDisarm h =
      (let n := bitsOf 11 0 (cdw 10 c.sqe)
       (((d.leaveWindows n).wr .CAP_STREAM_CFG_STATE 1 n).modStream n (fun x => { x with standing := none })).succeed h 0 0) := by
  have hfree : d.streamBad c.inst (bitsOf 11 0 (cdw 10 c.sqe)) = none := Dev.streamBad_own (by omega) hown
  have hzero : ¬(cdw 10 c.sqe / 4096 ≠ 0) := by omega
  rw [Dev.captureDisarm, Dev.onCmd_ready hready]
  simp only [if_neg hzero, hfree, if_neg (show ¬d.streamState (bitsOf 11 0 (cdw 10 c.sqe)) < 2 by omega)]

/-! ## Freeze Window (R95, R107) -/

/-- What Freeze Window of group `g` without WAIT_DURABLE answers for what became of its trigger. -/
def Dev.answerTrigger (d : Dev) (h : Nat) : TrigResult → Dev
  | .refused 0 => d.capStatus h 0x82
  | .refused 1 => d.capStatus h 0x80
  | .refused _ => d.capStatus h 0x86
  | .accepted w ms => d.succeed h w (ms % 2 ^ 16)

/-- FREEZE_WINDOW at a time given, of a group that the command's owner has. -/
theorem Dev.freezeWindow_submits {d e : Dev} {h : Nat} {c : HCmd} {r : TrigResult} (hready : d.ready h false 0x85 2 c)
    (hrsvd : bitsOf 30 6 (cdw 10 c.sqe) = 0) (hinst : d.rd .CAP_TG_CFG_INSTANCE (bitsOf 5 0 (cdw 10 c.sqe)) = c.inst)
    (htime : cdw 11 c.sqe + 2 ^ 32 * cdw 12 c.sqe ≠ 0)
    (hsubmit : d.submitTrigger (bitsOf 5 0 (cdw 10 c.sqe)) 3 (cdw 11 c.sqe + 2 ^ 32 * cdw 12 c.sqe) = (e, r))
    (hnow : ∀ w ms, r = .accepted w ms → bitOf 31 (cdw 10 c.sqe) = false) : d.freezeWindow h = e.answerTrigger h r := by
  rw [Dev.freezeWindow, Dev.onCmd_ready hready]
  simp only [if_neg htime, if_neg (not_not.mpr hrsvd), if_neg (not_not.mpr hinst), hsubmit]
  match r with
  | .refused 0 => rfl
  | .refused 1 => rfl
  | .refused (_ + 2) => rfl
  | .accepted w ms =>
    rw [hnow w ms rfl]
    rfl

/-- Settles O13: arming and disarming where nothing refuses them, and Freeze Window by what became of its trigger. -/
theorem captureArming : Obligations.CaptureArming := by
  intro s h c
  refine ⟨fun x hready hmode hrsvd0 hrsvd1 hmin hmax hpre hpost hbound hown hns hkind hfilter => ?arm,
    fun hready hrsvd harmed hown => ?disarm, fun t e r hready hrsvd hinst ht htime hsubmit => ?freeze⟩
  case arm =>
    exact Does.of rfl
      (Dev.captureArm_standing hready hmode hrsvd0 hrsvd1 hmin hmax hpre hpost hbound hown hns hkind hfilter)
  case disarm => exact Does.of rfl (Dev.captureDisarm_armed hready hrsvd harmed hown)
  case freeze =>
    subst ht
    have hanswer := Dev.freezeWindow_submits (r := r) hready hrsvd hinst htime hsubmit
    refine ⟨?_, ?_, ?_, ?_⟩
    · rintro rfl
      exact Does.of rfl (hanswer nofun)
    · rintro rfl
      exact Does.of rfl (hanswer nofun)
    · rintro rfl
      exact Does.of rfl (hanswer nofun)
    · rintro w ms rfl hnow
      exact Does.of rfl (hanswer fun _ _ _ => hnow)

/-! ## Frame Query and its handles (R105, R108) -/

/-- FRAME_QUERY over every stream, with a well-formed query and a handle to spare, opens a handle over what matches. -/
theorem Dev.frameQuery_opens {d e : Dev} {h : Nat} {c : HCmd} {hits : List Nat} {multi : Bool}
    (hready : d.ready h false 0x86 1 c) (hdata : 64 ≤ c.data.length) (hstage : c.stage = 2)
    (hall : leAt 0 2 (c.data.take 64) = 0xFFFF) (hflags : leAt 2 2 (c.data.take 64) < 8)
    (hrsvd0 : leAt 0x0C 4 (c.data.take 64) = 0) (hrsvd1 : leAt 0x26 2 (c.data.take 64) = 0)
    (hrsvd2 : allZero (sliceB 0x2E 18 (c.data.take 64)) = true)
    (hspan : leAt 0x10 8 (c.data.take 64) ≤ leAt 0x18 8 (c.data.take 64))
    (hroom : (d.cap.handles.filter (fun p => p.2.inst == c.inst)).length < 64)
    (hhits : d.queryHits c.inst (c.data.take 64) = (e, hits, multi)) :
    d.frameQuery h =
      ({ e with cap.handles := amPut e.cap.nextHandle (⟨c.inst, hits, e.now⟩ : QueryHandle) e.cap.handles,
                cap.nextHandle := (e.cap.nextHandle + 1) % 2 ^ 32 } : Dev).succeed h e.cap.nextHandle (b2n multi) := by
  rw [Dev.frameQuery, Dev.onCmd_ready hready, Dev.withData, if_pos hdata]
  simp [hstage, hall, hrsvd0, hrsvd1, hrsvd2, hhits, show ¬8 ≤ leAt 2 2 (c.data.take 64) by omega,
    show ¬leAt 0x18 8 (c.data.take 64) < leAt 0x10 8 (c.data.take 64) by omega,
    show ¬64 ≤ (d.cap.handles.filter (fun p => p.2.inst == c.inst)).length by omega]

/-- The catalog records of an owner at the next `n` positions of a handle. -/
def Dev.nextRecords (d : Dev) (inst n : Nat) (q : QueryHandle) : List (List Byte) :=
  (q.left.take n).map (fun p => (amGet [] inst d.cap.catalog).getD p [])

section QueryNext
/-! QUERY_NEXT_MATCH for 1 to 256 records under a live handle of the command's owner. -/
variable {d : Dev} {h : Nat} {c : HCmd} {q : QueryHandle} (hready : d.ready h false 0x87 2 c) (hmin : 1 ≤ cdw 11 c.sqe)
  (hmax : cdw 11 c.sqe ≤ 256) (hfind : amFind (cdw 10 c.sqe) d.cap.handles = some q) (hinst : q.inst = c.inst)
  (hlive : d.now < q.at_ + 10000000000)
include hready hmin hmax hfind hinst hlive

/-- It returns the next records, and the handle goes on with the positions that are left, or ends where none is. -/
theorem Dev.queryNext_live :
    d.queryNext h =
      (let rest := q.left.drop (cdw 11 c.sqe)
       let recs := d.nextRecords c.inst (cdw 11 c.sqe) q
       let e : Dev := if rest.isEmpty then { d with cap.handles := amDel (cdw 10 c.sqe) d.cap.handles }
         else { d with cap.handles := amPut (cdw 10 c.sqe) { q with left := rest, at_ := d.now } d.cap.handles }
       e.answer c recs.flatten recs.length (b2n rest.isEmpty)) := by
  have hcount : ¬(cdw 11 c.sqe = 0 ∨ 256 < cdw 11 c.sqe) := by omega
  have hold : d.queryOld q = false := decide_eq_false (by omega)
  rw [Dev.queryNext, Dev.onCmd_ready hready]
  simp only [if_neg hcount, hfind, if_neg (not_not.mpr hinst), hold, Bool.false_eq_true, if_false]
  rfl

theorem Dev.queryNext_last (hlast : q.left.length ≤ cdw 11 c.sqe) :
    d.queryNext h =
      (let recs := d.nextRecords c.inst (cdw 11 c.sqe) q
       ({ d with cap.handles := amDel (cdw 10 c.sqe) d.cap.handles } : Dev).answer c recs.flatten recs.length 1) := by
  have hrest : (q.left.drop (cdw 11 c.sqe)).isEmpty = true := by simpa using hlast
  rw [Dev.queryNext_live hready hmin hmax hfind hinst hlive]
  simp only [hrest, if_true]
  rfl

theorem Dev.queryNext_more (hmore : cdw 11 c.sqe < q.left.length) :
    d.queryNext h =
      (let recs := d.nextRecords c.inst (cdw 11 c.sqe) q
       let q1 : QueryHandle := { q with left := q.left.drop (cdw 11 c.sqe), at_ := d.now }
       ({ d with cap.handles := amPut (cdw 10 c.sqe) q1 d.cap.handles } : Dev).answer c recs.flatten recs.length 0) := by
  have hrest : (q.left.drop (cdw 11 c.sqe)).isEmpty = false := by simpa using hmore
  rw [Dev.queryNext_live hready hmin hmax hfind hinst hlive]
  simp only [hrest, Bool.false_eq_true, if_false]
  rfl

end QueryNext

/-- A handle that has been idle for 10 s goes. -/
theorem Dev.queryExpiry_idle {d : Dev} {k : Nat} {q : QueryHandle} (hfind : amFind k d.cap.handles = some q)
    (hidle : q.at_ + 10000000000 ≤ d.now) : d.queryExpiry k = { d with cap.handles := amDel k d.cap.handles } := by
  have hold : d.queryOld q = true := decide_eq_true hidle
  simp only [Dev.queryExpiry, hfind, hold, if_true]

/-! ## Frame Read (R109) -/

/-- FRAME_READ of the one frame of its number that the ring holds and no catalog record names. -/
theorem Dev.frameRead_ring {d : Dev} {h : Nat} {c : HCmd} {x : Stream} {f : Frame} (hready : d.ready h false 0x8A 2 c)
    (hrsvd0 : bitsOf 31 19 (cdw 10 c.sqe) = 0) (hrsvd1 : bitsOf 15 12 (cdw 10 c.sqe) = 0)
    (halign : cdw 12 c.sqe % 4096 = 0) (hsize : 64 + cdw 13 c.sqe ≤ 8388608)
    (hstream : d.stream (bitsOf 11 0 (cdw 10 c.sqe)) = some x) (hown : d.streamOwner (bitsOf 11 0 (cdw 10 c.sqe)) = c.inst)
    (hring : x.frames.filter (fun f => f.num == cdw 11 c.sqe && decide (2 ≤ f.state ∧ f.state ≤ 4)) = [f])
    (hcatalog : (amGet [] c.inst d.cap.catalog).filter
      (fun r => leAt 0x0C 2 r == bitsOf 11 0 (cdw 10 c.sqe) && leAt 8 4 r == cdw 11 c.sqe) = [])
    (hheld : bitOf 6 f.flags = false) (hfrozen : bitOf 16 (cdw 10 c.sqe) = true → f.state ≠ 2)
    (hwhole : f.missing = 0 ∨ bitOf 17 (cdw 10 c.sqe) = true) :
    d.frameRead h =
      d.answer c (frameDesc (bitsOf 11 0 (cdw 10 c.sqe)) c.inst x f ++
        (if bitOf 18 (cdw 10 c.sqe) then []
          else sliceB (cdw 12 c.sqe) (cdw 13 c.sqe) (d.readMem (x.slotAddr f.slot) x.bytes))) 0 0 := by
  have hfields : ¬(bitsOf 31 19 (cdw 10 c.sqe) ≠ 0 ∨ bitsOf 15 12 (cdw 10 c.sqe) ≠ 0 ∨ cdw 12 c.sqe % 4096 ≠ 0 ∨
      8388608 < 64 + cdw 13 c.sqe) := by omega
  have hforeign : ¬(d.streamState (bitsOf 11 0 (cdw 10 c.sqe)) ≠ 0 ∧
      d.streamOwner (bitsOf 11 0 (cdw 10 c.sqe)) ≠ c.inst) := fun hne => hne.2 hown
  have hstate : ¬(bitOf 16 (cdw 10 c.sqe) = true ∧ f.state = 2) := fun hnot => hfrozen hnot.1 hnot.2
  have hcomplete : ¬(f.missing ≠ 0 ∧ (!bitOf 17 (cdw 10 c.sqe)) = true) := by
    rintro ⟨hmissing, hpart⟩
    rcases hwhole with hzero | hany
    · exact hmissing hzero
    · simp [hany] at hpart
  rw [Dev.frameRead, Dev.onCmd_ready hready]
  simp only [if_neg hfields, if_neg hforeign, hstream, if_pos hown, hring, hcatalog, bestBy, Option.map_some, hheld,
    Bool.false_eq_true, if_false, if_neg hstate, if_neg hcomplete]

/-- Settles O14: each clause is its command where nothing refuses it. -/
theorem frameQueries : Obligations.FrameQueries := by
  intro s h c
  refine ⟨fun e hits multi hready hdata hall hflags hrsvd0 hrsvd1 hrsvd2 hspan hroom hstage hhits => ?query,
    fun q hready hmin hmax hfind hinst hlive => ⟨fun hlast => ?last, fun hmore => ?more⟩, fun q hfind hidle => ?expiry,
    fun x f hready hrsvd0 hrsvd1 halign hsize hstream hown hring hcatalog hheld hfrozen hwhole => ?read⟩
  case query =>
    exact Does.of rfl (Dev.frameQuery_opens hready hdata hstage hall hflags hrsvd0 hrsvd1 hrsvd2 hspan hroom hhits)
  case last => exact Does.of rfl (Dev.queryNext_last hready hmin hmax hfind hinst hlive hlast)
  case more => exact Does.of rfl (Dev.queryNext_more hready hmin hmax hfind hinst hlive hmore)
  case expiry => exact Does.of rfl (Dev.queryExpiry_idle hfind hidle)
  case read =>
    exact Does.of rfl
      (Dev.frameRead_ring hready hrsvd0 hrsvd1 halign hsize hstream hown hring hcatalog hheld hfrozen hwhole)

end Sys2Proof.Machine

/-! SUPPORT. The codec pool (R110, R131 to R134, R137, R143, R145) and the end of suspicion (R222): what the commands of the
queues and engines do where nothing refuses them, how a job's attempts end, and the statements CodecQueues and CodecCompletion. -/
namespace Sys2Proof.Machine

/-! ## Queues (R131, R133) -/

section TailWrite
/-! A tail write within the ring of an enabled queue whose owner is not being reset. -/
variable {d : Dev} {q t : Nat} (hon : d.rd .CDC_Q_CFG_ENABLE q = 1) (hring : t < d.qDepth q)
  (hreset : d.rd .INS_STATUS_RESET_BUSY (d.rd .CDC_Q_CFG_INSTANCE q) = 0)
include hon hring hreset

/-- The queue has room for the descriptors. -/
theorem Dev.tailWrite_room
    (hroom : d.qHeld q + (t + d.qDepth q - d.rd .CDC_Q_SQ_TAIL q) % d.qDepth q ≤ d.qDepth q - 1) :
    d.tailWrite q t =
      ({ d with cdc.fullEpisode := d.cdc.fullEpisode.filter (· != q) } : Dev).wr .CDC_Q_SQ_TAIL t q := by
  simp only [Dev.tailWrite, hon, hreset, if_neg (Nat.not_le.mpr hring), if_neg (Nat.not_lt.mpr hroom), Nat.one_ne_zero,
    Nat.zero_ne_one, if_false]

/-- The queue has no room, and has refused a tail write since it last took one: the refusal is counted and not raised. -/
theorem Dev.tailWrite_stillFull
    (hfull : d.qDepth q - 1 < d.qHeld q + (t + d.qDepth q - d.rd .CDC_Q_SQ_TAIL q) % d.qDepth q)
    (hepisode : q ∈ d.cdc.fullEpisode) : d.tailWrite q t = d.cnt .CDC_Q_SQ_HEAD_FULL_CNT q := by
  have hagain : (d.cnt .CDC_Q_SQ_HEAD_FULL_CNT q).cdc.fullEpisode.contains q = true := List.contains_iff_mem.mpr hepisode
  simp only [Dev.tailWrite, hon, hreset, if_neg (Nat.not_le.mpr hring), if_pos hfull, hagain, Nat.one_ne_zero,
    Nat.zero_ne_one, if_false, if_true]

end TailWrite

/-- A head write within the ring. -/
theorem Dev.cqHeadWrite_inRing {d : Dev} {q h : Nat} (hring : h < d.qDepth q) :
    d.cqHeadWrite q h = d.wr .CDC_Q_CQ_CQ_HEAD h q :=
  if_neg (Nat.not_le.mpr hring)

/-! ## The start of a job (R110, R129, R132) -/

section JobDispatch
/-! Engine `e` is the lowest that is idle; queue `q` gives the next job, the job `j` of a program, and once its
descriptor is taken the device is `d1`. -/
variable {d d1 : Dev} {e q : Nat} {j : Job} (hidle : d.idleEngine none = some e) (hpick : d.pickQueue = some q)
  (hprogram : amFind (q * 1024 + d.rd .CDC_Q_SQ_HEAD_HEAD q) d.cdc.jobs = none)
  (hjob : j = ⟨q, d.readMem (d.sqAddr q (d.rd .CDC_Q_SQ_HEAD_HEAD q)) 64, d.qInstance q, d.gen (d.qInstance q), .program,
    none⟩)
  (hpop : d1 = ({ d with cdc.jobs := amDel (q * 1024 + d.rd .CDC_Q_SQ_HEAD_HEAD q) d.cdc.jobs } : Dev).wr .CDC_Q_SQ_HEAD_HEAD
    ((d.rd .CDC_Q_SQ_HEAD_HEAD q + 1) % d.qDepth q) q)
include hidle hpick hprogram hjob hpop

/-- The job's descriptor keeps the rules: it starts. -/
theorem Dev.jobDispatch_starts (hgood : descFault q j.desc = none) :
    d.jobDispatch =
      (let d2 := (d1.showJob e j).charge 0 (d.qInstance q) (jobTime j.desc)
       ({ d2 with cdc.engines := amPut e ⟨j, d2.resumableNow j, false⟩ d2.cdc.engines } : Dev).pumpReads) := by
  subst hjob hpop
  simp only [Dev.jobDispatch, Dev.dispatchJob, hidle, hpick, hprogram, hgood, Dev.jobReturned]

/-- A field of the job's descriptor, at offset `o`, breaks a rule: the job ends with CDC_DESC_BAD. -/
theorem Dev.jobDispatch_rejects {o : Nat} (hbad : descFault q j.desc = some o) :
    d.jobDispatch =
      (((d1.raiseI (d.qInstance q) 0x3007 [(2, q), (4, dTag j.desc), (2, o)]).recordJob j e 0
        (jobEnds stDescBad none) none).pumpReads) := by
  subst hjob hpop
  simp only [Dev.jobDispatch, Dev.dispatchJob, hidle, hpick, hprogram, hbad, Dev.jobReturned]

end JobDispatch

/-! ## Engine resets (R145) -/

/-- Engine `k` takes a job that has been on another engine. -/
def Dev.rerunOn (d : Dev) (k : Nat) (run : Running) : Dev :=
  ({ d with cdc.engines := amPut k { run with rerun := true } d.cdc.engines } : Dev).showJob k run.job

/-- The job of an engine that is reset runs once more on the lowest other engine that is idle. -/
theorem Dev.engReset_running {d : Dev} {e k : Nat} {run : Running} (hrun : amFind e d.cdc.engines = some run)
    (hidle : ((d.freeEngine e).wr .CDC_ENG_STATUS_RSVD_WRITE 0 e).idleEngine (some e) = some k) :
    d.engReset e = ((d.freeEngine e).wr .CDC_ENG_STATUS_RSVD_WRITE 0 e).rerunOn k run := by
  simp only [Dev.engReset, hrun, hidle, Dev.rerunOn]

/-- Settles O15: each clause is its command where nothing refuses it. -/
theorem codecQueues : Obligations.CodecQueues := by
  intro s
  refine ⟨fun q w hon hring hreset => ⟨fun hroom => ?taken, fun hfull hepisode => ?counted⟩, fun q w hring => ?head,
    fun e q hidle hpick hprogram => ⟨fun hgood => ?starts, fun o hbad => ?rejects⟩, fun e run k hrun hidle => ?reset,
    fun k => ?free⟩
  case taken => exact Does.of rfl (Dev.tailWrite_room hon hring hreset hroom)
  case counted => exact Does.of rfl (Dev.tailWrite_stillFull hon hring hreset hfull hepisode)
  case head => exact Does.of rfl (Dev.cqHeadWrite_inRing hring)
  case starts => exact Does.of rfl (Dev.jobDispatch_starts hidle hpick hprogram rfl rfl hgood)
  case rejects => exact Does.of rfl (Dev.jobDispatch_rejects hidle hpick hprogram rfl rfl hbad)
  case reset => exact Does.of rfl (Dev.engReset_running hrun hidle)
  case free => exact Does.of rfl rfl

/-! ## The attempts of a job (R137) -/

/-- How the attempts of the job on engine `e` end, where `base` is the job's result and `first` and `second` are the failures of
the engine: the device after the reports, the result, the engine that gave it and whether it was a retry. -/
def Dev.attempts (d : Dev) (e : Nat) (rerun : Bool) (base : JobResult) (first second : Option JobFault) :
    Dev × JobResult × Nat × Nat :=
  let r1 := attempt base first
  if retried r1.status then
    let e2 := (d.idleEngine (some e)).getD e
    let r2 := attempt base second
    if r2.status = stDone then ((d.cnt .CDC_ENG_FAULTS_TRANSIENT e).raise 0x3004 [(2, e), (1, r1.status)], r2, e2, 1)
    else if r2.status = r1.status ∧ r2.failed = r1.failed then (d, r2, e2, 1)
    else
      let d1 := d.engineLasting e
      (d1.raise 0x3005 [(2, e), (1, r1.status), (4, (amGet [] e d1.cdc.lastingAt).length)],
        { r2 with status := stEngineFault }, e2, 1)
  else (d, r1, e, b2n rerun)

section Attempts
variable {d : Dev} {e : Nat} {rerun : Bool} {base : JobResult}

/-- The engine does not fail, and the job's own status is not retried. -/
theorem Dev.attempts_once (hstatus : retried base.status = false) :
    d.attempts e rerun base none none = (d, base, e, b2n rerun) := by
  simp only [Dev.attempts, attempt, hstatus, Bool.false_eq_true, if_false]

section Retry
/-! The engine fails with a retried status, and engine `k` runs the job again. -/
variable {f : JobFault} {k : Nat} (hretried : retried f.status = true) (hidle : d.idleEngine (some e) = some k)
include hretried hidle

/-- The retry succeeds: the fault was transient. -/
theorem Dev.attempts_transient (hdone : base.status = stDone) :
    d.attempts e rerun base (some f) none =
      ((d.cnt .CDC_ENG_FAULTS_TRANSIENT e).raise 0x3004 [(2, e), (1, f.status)], base, k, 1) := by
  simp only [Dev.attempts, attempt, hretried, if_true, hidle, Option.getD_some, hdone]

/-- The retry fails in another way: the fault is lasting. -/
theorem Dev.attempts_lasting {g : JobFault} (hfails : g.status ≠ stDone) (hother : g.status ≠ f.status) :
    d.attempts e rerun base (some f) (some g) =
      (let d1 := d.engineLasting e
       (d1.raise 0x3005 [(2, e), (1, f.status), (4, (amGet [] e d1.cdc.lastingAt).length)],
        { base with status := stEngineFault, failed := some g.block, ctx := none }, k, 1)) := by
  simp only [Dev.attempts, attempt, hretried, if_true, hidle, Option.getD_some, if_neg hfails,
    if_neg (not_and_of_not_left _ hother)]

end Retry
end Attempts

/-! ## The end of a job (R134) -/

/-- Engine `e` is free again; the result `r` of the job, which engine `k` gave, is counted, written and recorded. -/
def Dev.endJob (d : Dev) (e k : Nat) (j : Job) (r : JobResult) (flag : Nat) : Dev :=
  (((d.freeEngine e).countJob k j.desc r).writeOutput j r).recordJob j k (flag + 2 * b2n (r.encoded.any (·.fallback))) r none

/-- JOB_COMPLETE of a program's job that resumes no context, whose self-checks find nothing and whose result asks for none. -/
theorem Dev.jobComplete_ends {d d1 : Dev} {e k flag : Nat} {run : Running} {first second : Option JobFault} {r : JobResult}
    (hrun : amFind e d.cdc.engines = some run) (hprogram : run.job.purpose = .program) (hresume : dResume run.job.desc = false)
    (hattempts : d.attempts e run.rerun (d.runJob run []) first second = (d1, r, k, flag)) (hctx : r.ctx = none)
    (hstatus : r.status ≠ stContextBad) : d.jobComplete e first second [] = d1.endJob e k run.job r flag := by
  rw [Dev.attempts] at hattempts
  cases hidle : d.idleEngine (some e)
  all_goals
    simp only [hidle, Option.getD_some, Option.getD_none] at hattempts
    simp only [Dev.jobComplete, Dev.completeJob, hrun, Dev.selfChecks, List.filter_nil, List.map_nil, hidle, hattempts, hctx,
      hresume, Bool.false_eq_true, false_and, if_false, if_neg hstatus, Dev.jobReturned, hprogram]
    rfl

/-! ## The end of suspicion (R222) -/

/-- Memory reads the same where none was written. -/
theorem SameMem.of_ram {d e : Dev} (h : e.ram = d.ram) : SameMem d e := fun a => by rw [Dev.readByte, h, Dev.readByte]

/-- A write of one field, after what touches no register, leaves every other field. -/
theorem SameRegs.wr {d e : Dev} (h : e.regs = d.regs) {f : Fld} {v i : Nat} : SameRegs (fun g _ => g == f) d (e.wr f v i) :=
  fun g j hg => (Dev.rd_wr_fld e (by simpa using hg) v j i).trans (Dev.rd_congr h g j)

/-- SUSPECT_CLEAR ends with what Dev.suspectClear gives. -/
theorem Ends.suspectClear {s : State} {what : Resource} {k : Fin 32} {e : Dev} {P : Dev → Prop}
    (he : s.dev.suspectClear what k = e) (hp : P e) : Ends (.suspectClear what k) s P :=
  ⟨e, Does.of rfl he, hp⟩

section SuspectClear
variable {d : Dev} {c : Nat} (k : Nat)

theorem Dev.suspectClear_core (hquiet : d.recent (d.rd .AVL_RETIRE_CFG_FAULT_WINDOW_H) (d.core c).lastingAt = []) :
    d.suspectClear (.core c) k = (d.setCore c { d.core c with lastingAt := [] }).wr .CORE_STATUS_SUSPECT 0 c := by
  simp only [Dev.suspectClear, hquiet, List.isEmpty_nil, if_true]

theorem Dev.suspectClear_codec
    (hquiet : d.recent (d.rd .CDC_POOL_CFG_FAULT_WINDOW_H) (amGet [] c d.cdc.lastingAt) = []) :
    d.suspectClear (.codec c) k =
      ({ d with cdc.lastingAt := amDel c d.cdc.lastingAt } : Dev).wr .CDC_ENG_STATUS_SUSPECT 0 c := by
  simp only [Dev.suspectClear, Dev.engineSuspectClear, hquiet, List.isEmpty_nil, Bool.not_true, Bool.false_eq_true, if_false]

theorem Dev.suspectClear_memory
    (hquiet : d.recent (d.rd .MEM_RETIRE_CFG_FAULT_WINDOW_H) (amGet [] c d.mem.lastingAt) = []) :
    d.suspectClear (.memory c) k =
      ({ d with mem.lastingAt := amDel c d.mem.lastingAt } : Dev).wr .MEM_CH_STATUS_SUSPECT 0 c := by
  simp only [Dev.suspectClear, hquiet, List.isEmpty_nil, if_true]

theorem Dev.suspectClear_check (hquiet : d.recent 24 (amGet [] c d.chk.lastingAt) = []) :
    d.suspectClear (.check c) k = { d with chk.lastingAt := amDel c d.chk.lastingAt } := by
  simp only [Dev.suspectClear, hquiet, List.isEmpty_nil, if_true]

/-- A die that is no longer suspect clears its channel's bit where it was the last suspect one. -/
theorem Dev.suspectClear_flash (hquiet : d.recent (d.rd .FLS_RETIRE_CFG_FAULT_WINDOW_H) (d.die c k).lastingAt = []) :
    d.suspectClear (.flash c) k =
      (let d1 := d.setDie c k { d.die c k with suspect := false, lastingAt := [] }
       if (List.range 32).all (fun j => !(d1.die c j).suspect) then d1.wr .FLS_CH_STATUS_SUSPECT 0 c else d1) := by
  simp only [Dev.suspectClear, Dev.dieSuspectClear, hquiet, List.isEmpty_nil, Bool.not_true, Bool.false_eq_true, if_false]

end SuspectClear

@[simp] theorem Dev.die_setDie_same (d : Dev) (c k : Nat) (x : Die) : (d.setDie c k x).die c k = x := amGet_amSet_same ..

@[simp] theorem Dev.wr_die (d : Dev) (f : Fld) (v i c k : Nat) : (d.wr f v i).die c k = d.die c k := rfl

/-- Settles O16: a completion ends as its attempts do, and a suspect whose window is quiet is cleared. -/
theorem codecCompletion : Obligations.CodecCompletion := by
  refine ⟨fun s e run hrun hprogram hresume hctx => ⟨fun hstatus hvalid => ?once, fun f k hretried hidle hdone => ?transient,
      fun f g k hretried hidle hfails hother => ?lasting⟩,
    fun s k => ⟨fun l => ?link, fun c hquiet => ?core, fun c hquiet => ?codec, fun c hquiet => ?flash, fun c hquiet => ?memory,
      fun c hquiet => ?check⟩⟩
  case once =>
    exact Does.of rfl (Dev.jobComplete_ends hrun hprogram hresume (Dev.attempts_once hstatus) hctx hvalid)
  case transient =>
    have hvalid : (s.dev.runJob run []).status ≠ stContextBad := by rw [hdone]; decide
    exact Does.of rfl (Dev.jobComplete_ends hrun hprogram hresume (Dev.attempts_transient hretried hidle hdone) hctx hvalid)
  case lasting =>
    have hvalid : stEngineFault ≠ stContextBad := by decide
    exact Does.of rfl
      (Dev.jobComplete_ends hrun hprogram hresume (Dev.attempts_lasting hretried hidle hfails hother) rfl hvalid)
  case link =>
    refine Ends.suspectClear rfl ⟨?_, SameMem.of_ram rfl⟩
    simp [Dev.suspectClear]
  case core =>
    exact Ends.suspectClear (Dev.suspectClear_core k hquiet)
      ⟨Dev.rd_wr_same .., SameRegs.wr rfl, SameMem.of_ram rfl⟩
  case codec =>
    exact Ends.suspectClear (Dev.suspectClear_codec k hquiet)
      ⟨Dev.rd_wr_same .., SameRegs.wr rfl, SameMem.of_ram rfl⟩
  case memory =>
    exact Ends.suspectClear (Dev.suspectClear_memory k hquiet)
      ⟨Dev.rd_wr_same .., SameRegs.wr rfl, SameMem.of_ram rfl⟩
  case check =>
    refine Ends.suspectClear (Dev.suspectClear_check k hquiet) ⟨?_, rfl, SameMem.of_ram rfl⟩
    simp [amFind_amDel]
  case flash =>
    refine Ends.suspectClear (Dev.suspectClear_flash k hquiet) ?_
    dsimp only
    split
    · exact ⟨by simp, by simp, SameRegs.wr rfl, SameMem.of_ram rfl⟩
    · exact ⟨by simp, by simp, fun _ _ _ => rfl, SameMem.of_ram rfl⟩

end Sys2Proof.Machine

/-! SUPPORT. The journal, checkpoints, garbage collection and patrol scrub (R32, R197 to R206, R218 to R221): what their
commands do where nothing holds them back, and the statement JournalAndWork. -/
namespace Sys2Proof.Machine

/-! ## Journal pages (R200, R201) -/

/-- The timer of a page whose first record is 100 µs old. -/
theorem Dev.pageTimer_due {d : Dev} {p : JPage} (hpage : d.dur.page = some p) (hdue : p.firstAt + 100000 ≤ d.now) :
    d.pageTimer = d.closePage := by
  simp only [Dev.pageTimer, hpage, if_pos hdue]

section PageWritten
/-! Page `p` is the oldest under way. -/
variable {d : Dev} {p : JPage} {ps : List JPage} (hflight : d.dur.flight = p :: ps)
include hflight

theorem Dev.pageWritten_bothCopies :
    d.pageWritten true true = ((({ d with dur.flight := ps } : Dev).applyPage p).wakeFlushes).settle := by
  simp only [Dev.pageWritten, hflight, Bool.and_self, if_true]

theorem Dev.pageWritten_copyFailed {a b : Bool} (hfailed : (a && b) = false) :
    d.pageWritten a b = d.raise 0x5013 [(2, p.pair), (1, Config.causeCode (0x5013 * 256 + b2n a + 2 * b2n b))] := by
  simp only [Dev.pageWritten, hflight, hfailed, Bool.false_eq_true, if_false]

end PageWritten

/-! ## Checkpoints (R205) -/

/-- Neither the mode nor standby keeps a checkpoint from being taken when its interval has passed. -/
theorem Dev.checkpointDue_interval {d : Dev} (hmode : d.rd .AVL_STATUS_MODE = 2 ∨ d.rd .AVL_STATUS_MODE = 3)
    (hpower : d.rd .AVL_STATUS_POWER_STATE = 0)
    (hdue : d.dur.ckptAt + d.rd .DUR_CKPT_CFG_INTERVAL_S * 1000000000 ≤ d.now) : d.checkpointDue = d.checkpoint := by
  have htaken : d.rd .AVL_STATUS_MODE ∉ [0, 1, 5] := by
    rcases hmode with h | h
    · simp [h]
    · simp [h]
  simp [Dev.checkpointDue, htaken, hpower, hdue]

@[simp] theorem Dev.checkpoint_regs (d : Dev) : d.checkpoint.regs = d.regs := Dev.raise_regs ..

@[simp] theorem Dev.checkpoint_ram (d : Dev) : d.checkpoint.ram = d.ram := Dev.raise_ram ..

/-- The event of a checkpoint gives the highest CSEQ that it holds. -/
theorem Dev.logged_checkpoint (d : Dev) :
    d.checkpoint.logged 0x5020 0 (packData [(8, d.rd64 .DUR_CSEQ_LO .DUR_CSEQ_HI)]) := by
  rw [Dev.checkpoint]
  exact Dev.logged_raise ..

/-! ## Writes acknowledged (R32, R199, R206) -/

/-- MIRROR_DONE of a released write outside Hold-up that holds its slots and all its data. -/
theorem Dev.mirrorDone_acks {d e : Dev} {h : Nat} {c : HCmd} {x : Namespace} (hmode : d.rd .AVL_STATUS_MODE ≠ 6)
    (hcmd : d.cmd h = some c) (hstage : c.stage = 2) (hop : sqeOp c.sqe = 1) (hio : d.isAdmin c = false)
    (hslots : c.slots ≠ []) (hdata : c.want ≤ c.data.length) (hns : d.nsOf c = some x)
    (hpath : d.mirrorDown c.inst = false) (hack : d.ackPieces h c.inst c.gen (writePieces x c) c.slots = (e, true)) :
    d.mirrorDone h = ((e.noteNewer c.key (c.range x).1 (c.range x).2).succeed h 0 0).settle := by
  have hall : ¬ c.data.length < c.want := Nat.not_lt.mpr hdata
  simp [Dev.mirrorDone, hcmd, hstage, hop, hio, hslots, hall, hmode, hns, hpath, hack]

/-! ## Garbage collection (R218 to R220) -/

section GcPass
/-! A pass outside Hold-up whose flume is up; `e` is the device once its reserve is as full as it can be. -/
variable {d e : Dev} {n : Nat} (hmode : d.rd .AVL_STATUS_MODE ≠ 6)
  (hpath : d.pathDown (fun f => f.through 8 && f.through 7) = false) (hfill : d.fillReserve = e)
include hmode hpath hfill

theorem Dev.gcPass_queued (hqueued : e.queuedVictim = some n) : d.gcPass = (e.relocateSb n).settle := by
  subst hfill
  simp [Dev.gcPass, hmode, hpath, hqueued]

theorem Dev.gcPass_wear (hqueued : e.queuedVictim = none) (hwear : e.wearVictim = some n) :
    d.gcPass = ((e.cnt .DUR_CNT_WL_MOVES).relocateSb n).settle := by
  subst hfill
  simp [Dev.gcPass, hmode, hpath, hqueued, hwear]

theorem Dev.gcPass_leastScore (hqueued : e.queuedVictim = none) (hwear : e.wearVictim = none)
    (hscore : e.gcVictim = some n) : d.gcPass = (e.relocateSb n).settle := by
  subst hfill
  simp [Dev.gcPass, hmode, hpath, hqueued, hwear, hscore]

end GcPass

/-! ## Patrol scrub (R221) -/

@[simp] theorem Dev.sb_setSb_same (d : Dev) (n : Nat) (x : Superblock) : (d.setSb n x).sb n = x := amGet_amSet_same ..

theorem Dev.sb_setSb_ne (d : Dev) {m n : Nat} (h : m ≠ n) (x : Superblock) : (d.setSb n x).sb m = d.sb m :=
  amGet_amSet_ne _ h ..

@[simp] theorem Dev.cnt_sb (d : Dev) (f : Fld) (i k n : Nat) : (d.cnt f i k).sb n = d.sb n := rfl

@[simp] theorem Dev.setSb_dur (d : Dev) (n : Nat) (x : Superblock) : (d.setSb n x).dur = d.dur := rfl

/-- Scrub has read up to the stripe of sequence number `seq`. -/
def Dev.scrubbedTo (d : Dev) (seq : Nat) : Dev := { d with dur.scrubbed := seq }

@[simp] theorem Dev.scrubbedTo_sb (d : Dev) (seq n : Nat) : (d.scrubbedTo seq).sb n = d.sb n := rfl

@[simp] theorem Dev.scrubbedTo_scrubbed (d : Dev) (seq : Nat) : (d.scrubbedTo seq).dur.scrubbed = seq := rfl

/-- The superblock of a weak codeword is queued for relocation, unless it already is. -/
theorem Dev.patrolScrub_weak {d : Dev} {id : Nat} {x : Stripe} (hmode : d.rd .AVL_STATUS_MODE ≠ 6)
    (hstripe : d.stripe id = some x) (hdone : x.programmed = true) :
    d.patrolScrub id true [] =
      if !(d.sb x.sb).relocate then
        ((d.scrubbedTo x.seq).setSb x.sb { d.sb x.sb with relocate := true }).cnt .DUR_CNT_SCRUB_REFRESH
      else d.scrubbedTo x.seq := by
  rw [Dev.patrolScrub, if_neg hmode]
  simp only [hstripe, hdone, Bool.not_true, Bool.false_eq_true, if_false, Bool.true_and, Dev.addColumns]
  rfl

/-- Settles O20: each clause is its command where nothing holds it back. -/
theorem journalAndWork : Obligations.JournalAndWork := by
  refine ⟨fun s => ⟨fun p hpage hdue => ?timer, fun p ps hflight => ?written, fun p ps a b hflight hfailed => ?failed,
      fun hmode hpower hdue => ?checkpoint, ?window⟩,
    fun s hmode => ⟨fun h c x e hcmd hstage hop hio hslots hdata hns hpath hack => ?acked,
      fun hpath => ⟨fun n hqueued => ?queued, fun n hqueued hwear => ?wear, fun n hqueued hwear hscore => ?leastScore⟩,
      fun id x hstripe hdone => ?scrub⟩⟩
  case timer => exact Does.of rfl (Dev.pageTimer_due hpage hdue)
  case written => exact Does.of rfl (congrArg Dev.background (Dev.pageWritten_bothCopies hflight))
  case failed => exact Does.of rfl (congrArg Dev.background (Dev.pageWritten_copyFailed hflight hfailed))
  case checkpoint =>
    exact ⟨_, Does.of rfl (Dev.checkpointDue_interval hmode hpower hdue), rfl, rfl, rfl, rfl, rfl, s.dev.logged_checkpoint,
      s.dev.checkpoint_regs, SameMem.of_ram s.dev.checkpoint_ram⟩
  case window => exact Does.of (f := s.dev.progWindow) rfl (by rw [Dev.progWindow])
  case acked =>
    exact Does.of rfl (Dev.mirrorDone_acks hmode hcmd hstage hop hio hslots hdata hns hpath hack)
  case queued => exact Does.of rfl (Dev.gcPass_queued hmode hpath rfl hqueued)
  case wear => exact Does.of rfl (Dev.gcPass_wear hmode hpath rfl hqueued hwear)
  case leastScore => exact Does.of rfl (Dev.gcPass_leastScore hmode hpath rfl hqueued hwear hscore)
  case scrub =>
    refine ⟨_, Does.of rfl (Dev.patrolScrub_weak hmode hstripe hdone), ?_⟩
    split
    case isTrue => exact ⟨by simp, by simp, fun n hn => Dev.sb_setSb_ne _ hn _⟩
    case isFalse hqueued => exact ⟨by simpa using hqueued, rfl, fun _ _ => rfl⟩

end Sys2Proof.Machine

/-! SUPPORT. NVM commands on a block namespace without metadata (R191, R192, R232, R239, R246, R249, R250, R374): what each
does where nothing refuses it, and the statement NvmCommands. -/
namespace Sys2Proof.Machine

variable {d : Dev} {h : Nat} {c : HCmd} {x : Namespace}

/-! ## Commands on a range of blocks (R191, R192, R246, R249, R374) -/

/-- A command that has all the data it asks for runs. -/
theorem Dev.withData_enough {n : Nat} (henough : n ≤ c.data.length) (f : HCmd → Dev) : d.withData c n f = f c :=
  if_pos henough

/-- Only the deallocations of a frame namespace wait for commit records. -/
theorem Dev.frameWaits_block (hkind : x.kind = 0) (key a n : Nat) : d.frameWaits key x a n = false := by
  simp [Dev.frameWaits, hkind]

section InRange
/-! The command's range lies in its namespace. -/
variable (hrange : c.inRange x = true)
include hrange

theorem Dev.write_takesSlots (hready : d.readyNs h 0x01 1 c x) (hkind : x.kind = 0)
    (hsize : sqeNlb c.sqe * x.lba ≤ 8388608) (hmd : x.md = 0) (hfree : d.reserved c = false)
    (hcapacity : c.inst ∉ d.dur.exhausted) (hkey : (amFind c.inst d.mgt.slots).isSome)
    (hpath : d.mirrorDown c.inst = false) :
    d.write h =
      (let want := sqeNlb c.sqe * x.lba
       ((d.setCmd h (fun c => { c with want := want })).takeSlots { c with want := want } x).checkData h) := by
  have hkey' : (amFind c.inst d.mgt.slots).isNone = false := Option.isNone_eq_false_iff.mpr hkey
  rw [Dev.write, Dev.onNs_ready hready]
  simp [hkind, hrange, Nat.not_lt.mpr hsize, hmd, hfree, hcapacity, hkey', hpath]

theorem Dev.read_starts (hready : d.readyNs h 0x02 2 c x) (hkind : x.kind ≠ 2)
    (hsize : sqeNlb c.sqe * x.lba ≤ 8388608) :
    d.read h = d.startRead c x c.key (c.range x).1 (c.range x).2 [] 0 := by
  rw [Dev.read, Dev.onNs_ready hready]
  simp [hkind, hrange, Nat.not_lt.mpr hsize]

theorem Dev.compare_starts (hready : d.readyNs h 0x05 1 c x) (hstage : c.stage = 2) (hkind : x.kind ≠ 2)
    (hsize : sqeNlb c.sqe * x.lba ≤ 8388608) (hmd : x.md = 0) (hdata : sqeNlb c.sqe * x.lba ≤ c.data.length) :
    d.compare h = d.startRead c x c.key (c.range x).1 (c.range x).2 [] 0 := by
  rw [Dev.compare, Dev.onNs_ready hready]
  simp [hkind, hrange, Nat.not_lt.mpr hsize, hmd, Dev.withData_enough hdata, hstage]

theorem Dev.verify_starts (hready : d.readyNs h 0x0C 2 c x) (hkind : x.kind ≠ 2) :
    d.verify h = d.startRead c x c.key (c.range x).1 (c.range x).2 [] 0 := by
  rw [Dev.verify, Dev.onNs_ready hready]
  simp [hkind, hrange]

theorem Dev.writeZeroes_deallocates (hready : d.readyNs h 0x08 2 c x) (hkind : x.kind = 0)
    (hfree : d.reserved c = false) : d.writeZeroes h = d.deallocCmd c [c.range x] := by
  rw [Dev.writeZeroes, Dev.onNs_ready hready]
  simp [hkind, hrange, hfree, Dev.frameWaits_block]

end InRange

/-! ## Dataset Management (R192) -/

section DatasetManagement
/-! A released Dataset Management whose ranges have come. -/
variable (hready : d.readyNs h 0x09 1 c x) (hstage : c.stage = 2) (hkind : x.kind = 0) (hcount : cdw 10 c.sqe < 256)
  (hattr : cdw 11 c.sqe < 8) (hfree : d.reserved c = false) (hdata : 16 * (leAt 40 1 c.sqe + 1) ≤ c.data.length)
include hready hstage hkind hcount hattr hfree hdata

/-- Where Deallocate is not asked for, it changes nothing. -/
theorem Dev.datasetManagement_noDeallocate (hdealloc : bitOf 2 (cdw 11 c.sqe) = false) :
    d.datasetManagement h = d.succeed h 0 0 := by
  rw [Dev.datasetManagement, Dev.onNs_ready hready]
  simp [hkind, Nat.not_le.mpr hcount, Nat.not_le.mpr hattr, hfree, Dev.withData_enough hdata, hstage, hdealloc]

theorem Dev.datasetManagement_deallocates (hdealloc : bitOf 2 (cdw 11 c.sqe) = true)
    (hrange : ∀ r ∈ dsmRanges c, r.1 + r.2 ≤ x.sizeLbas) :
    d.datasetManagement h = d.deallocCmd c ((dsmRanges c).map (fun r => (r.1 * x.lba, r.2 * x.lba))) := by
  have hwithin : (dsmRanges c).any (fun r => decide (x.sizeLbas < r.1 + r.2)) = false := by
    simpa using hrange
  rw [Dev.datasetManagement, Dev.onNs_ready hready]
  simp [hkind, Nat.not_le.mpr hcount, Nat.not_le.mpr hattr, hfree, Dev.withData_enough hdata, hstage, hdealloc, hwithin,
    Dev.frameWaits_block hkind]

end DatasetManagement

/-! ## Flush and opcodes that are not supported (R232, R239, R250) -/

/-- Nothing waits for its records. -/
theorem Dev.flush_atOnce (hready : d.ready h false 0x00 1 c) (hns : d.nsOf c = some x) (htxns : d.dur.txns = []) :
    d.flush h = d.succeed h 0 0 := by
  rw [Dev.flush, Dev.onCmd_ready hready]
  simp [hns, htxns]

theorem Dev.unsupported_fails (hcmd : d.cmd h = some c) (hstage : c.stage = 2) (hunsupported : d.supported c = false) :
    d.unsupported h = d.failCmd h 0 0x01 true none := by
  simp [Dev.unsupported, hcmd, hstage, hunsupported]

/-- Settles O25: each clause is its command where nothing refuses it. -/
theorem nvmCommands : Obligations.NvmCommands := by
  intro s h c x
  refine ⟨fun hready hkind hrange hsize hmd hfree hcapacity hkey hpath => ?write,
    fun hready hkind hrange hsize => ?read, fun hready hstage hkind hrange hsize hmd hdata => ?compare,
    fun hready hkind hrange => ?verify, fun hready hkind hrange hfree => ?zeroes,
    fun hready hstage hkind hcount hattr hfree hdata => ⟨fun hdealloc => ?nothing, fun hdealloc hrange => ?deallocate⟩,
    fun hready hns _ htxns => ?flush, fun hcmd hstage hunsupported => ?unsupported⟩
  case write =>
    exact Does.of rfl (Dev.write_takesSlots hrange hready hkind hsize hmd hfree hcapacity hkey hpath)
  case read => exact Does.of rfl (Dev.read_starts hrange hready hkind hsize)
  case compare => exact Does.of rfl (Dev.compare_starts hrange hready hstage hkind hsize hmd hdata)
  case verify => exact Does.of rfl (Dev.verify_starts hrange hready hkind)
  case zeroes => exact Does.of rfl (Dev.writeZeroes_deallocates hrange hready hkind hfree)
  case nothing =>
    exact Does.of rfl (Dev.datasetManagement_noDeallocate hready hstage hkind hcount hattr hfree hdata hdealloc)
  case deallocate =>
    exact Does.of rfl (Dev.datasetManagement_deallocates hready hstage hkind hcount hattr hfree hdata hdealloc hrange)
  case flush => exact Does.of rfl (Dev.flush_atOnce hready hns htxns)
  case unsupported => exact Does.of rfl (Dev.unsupported_fails hcmd hstage hunsupported)

end Sys2Proof.Machine

/-! SUPPORT. Key Value commands on a frame view (R238): what each does to a key of 16 bytes, and the statement ViewCommands. -/
namespace Sys2Proof.Machine

variable {d : Dev} {h : Nat} {c : HCmd} {x : Namespace}

/-- A Key Value command that is ready on a frame view and gives a key of 16 bytes is run by its row. -/
theorem Dev.onView_ready {op stage : Nat} (hready : d.readyNs h op stage c x) (hview : x.kind = 2)
    (hlen : bitsOf 7 0 (cdw 11 c.sqe) = 16) (f : HCmd → Namespace → Dev) : d.onView h op stage f = f c x := by
  rw [Dev.onView, Dev.onNs_ready hready, if_neg (not_not.mpr hview), if_neg (not_not.mpr hlen)]

section Exist
variable (hready : d.readyNs h 0x14 2 c x) (hview : x.kind = 2) (hlen : bitsOf 7 0 (cdw 11 c.sqe) = 16)
include hready hview hlen

theorem Dev.exist_held (hheld : (d.viewRecs c x).any (fun r => kvKey r == sqeKey c.sqe) = true) :
    d.exist h = d.succeed h 0 0 := by
  rw [Dev.exist, Dev.onView_ready hready hview hlen, if_pos hheld]

theorem Dev.exist_missing (hmissing : (d.viewRecs c x).any (fun r => kvKey r == sqeKey c.sqe) = false) :
    d.exist h = d.failCmd h 0 0x87 true none := by
  rw [Dev.exist, Dev.onView_ready hready hview hlen, if_neg (Bool.eq_false_iff.mp hmissing)]

end Exist

/-- The stored bytes of a frame that the view presents are read from the namespace behind the view. -/
theorem Dev.retrieve_found {r : List Byte} {y : Namespace} (hready : d.readyNs h 0x02 2 c x) (hview : x.kind = 2)
    (hlen : bitsOf 7 0 (cdw 11 c.sqe) = 16)
    (hfound : (d.viewRecs c x).find? (fun r => kvKey r == sqeKey c.sqe) = some r)
    (hbehind : d.nspace (nsKey c.inst x.view) = some y) :
    d.retrieve h =
      d.startRead c { y with lbaf := 0 } (nsKey c.inst x.view) (leAt 32 8 r * 4096) (leAt 48 4 r) [] (cdw 10 c.sqe) := by
  rw [Dev.retrieve, Dev.onView_ready hready hview hlen]
  simp only [hfound, hbehind]

/-- A row that writes to a frame view is refused before its key is looked at. -/
theorem Dev.viewWrite_protected {op : Nat} (hready : d.readyNs h op 1 c x) (hview : x.kind = 2) :
    d.viewWrite h op = d.failCmd h 0 0x20 true none := by
  rw [Dev.viewWrite, Dev.onNs_ready hready, if_neg (not_not.mpr hview)]

/-- Settles O27: each clause is its command on a view with a key of the right length. -/
theorem viewCommands : Obligations.ViewCommands := by
  intro s h c x hview
  refine ⟨fun hready hlen => ⟨fun hheld => ?held, fun hmissing => ?missing⟩,
    fun r y hready hlen hfound hbehind => ?retrieve, fun hready hlen => ?list, fun hready => ?store, fun hready => ?delete⟩
  case held => exact Does.of rfl (Dev.exist_held hready hview hlen hheld)
  case missing => exact Does.of rfl (Dev.exist_missing hready hview hlen hmissing)
  case retrieve => exact Does.of rfl (Dev.retrieve_found hready hview hlen hfound hbehind)
  case list => exact Does.of (f := s.dev.list h) rfl (Dev.onView_ready hready hview hlen _)
  case store => exact Does.of rfl (Dev.viewWrite_protected hready hview)
  case delete => exact Does.of rfl (Dev.viewWrite_protected hready hview)

end Sys2Proof.Machine

/-! SUPPORT. Reservations (R237) of a namespace that is no frame view, for a host whose data have come: what each command
does where it is taken, and the statement ReservationCommands. -/
namespace Sys2Proof.Machine

variable {d : Dev} {h : Nat} {c : HCmd} {x : Namespace}

/-- A released reservation command whose data have come is run by its row on the namespace's reservation. -/
theorem Dev.onResv_ready {op n : Nat} (hready : d.readyNs h op 1 c x) (hkind : x.kind ≠ 2) (hstage : c.stage = 2)
    (hdata : n ≤ c.data.length) (f : HCmd → Reservation → Dev) : d.onResv h op n f = f c (d.resvOf c.key) := by
  rw [Dev.onResv, Dev.onNs_ready hready, if_neg hkind, Dev.withData_enough hdata, if_neg (not_not.mpr hstage)]

/-- RREGA 0 of a host that has no key. -/
theorem Dev.resvRegister_first (hready : d.readyNs h 0x0D 1 c x) (hkind : x.kind ≠ 2) (hstage : c.stage = 2)
    (hdata : 16 ≤ c.data.length) (hrsvd : bitsOf 29 4 (cdw 10 c.sqe) = 0) (hact : bitsOf 2 0 (cdw 10 c.sqe) = 0)
    (hkey : (d.resvOf c.key).keyOf (d.hostOf c) = none) :
    d.resvRegister h =
      let r := d.resvOf c.key
      d.putResv c { r with gen := r.gen + 1, regs := r.regs ++ [(d.hostOf c, leAt 8 8 c.data)] } := by
  rw [Dev.resvRegister, Dev.onResv_ready hready hkind hstage hdata]
  simp [hrsvd, hact, hkey]

section Acquire
/-! RACQA 0 for Write Exclusive, by a host that gives its registered key. -/
variable (hready : d.readyNs h 0x11 1 c x) (hkind : x.kind ≠ 2) (hstage : c.stage = 2) (hdata : 16 ≤ c.data.length)
  (hrsvdHi : bitsOf 31 16 (cdw 10 c.sqe) = 0) (htype : bitsOf 15 8 (cdw 10 c.sqe) = 1)
  (hact : bitsOf 2 0 (cdw 10 c.sqe) = 0) (hrsvdLo : bitsOf 7 3 (cdw 10 c.sqe) = 0)
  (hkey : (d.resvOf c.key).keyOf (d.hostOf c) = some (leAt 0 8 c.data))
include hready hkind hstage hdata hrsvdHi htype hact hrsvdLo hkey

theorem Dev.resvAcquire_free (hholder : (d.resvOf c.key).holder = none) :
    d.resvAcquire h = d.putResv c { d.resvOf c.key with holder := some (d.hostOf c) } := by
  rw [Dev.resvAcquire, Dev.onResv_ready hready hkind hstage hdata]
  simp [hact, hrsvdLo, hrsvdHi, htype, hkey, hholder]

theorem Dev.resvAcquire_byHolder (hholder : (d.resvOf c.key).holder = some (d.hostOf c)) :
    d.resvAcquire h = d.putResv c (d.resvOf c.key) := by
  rw [Dev.resvAcquire, Dev.onResv_ready hready hkind hstage hdata]
  simp [hact, hrsvdLo, hrsvdHi, htype, hkey, hholder]

theorem Dev.resvAcquire_heldByOther {other : List Byte} (hholder : (d.resvOf c.key).holder = some other)
    (hne : other ≠ d.hostOf c) : d.resvAcquire h = d.failCmd h 0 0x83 true none := by
  rw [Dev.resvAcquire, Dev.onResv_ready hready hkind hstage hdata]
  simp [hact, hrsvdLo, hrsvdHi, htype, hkey, hholder, hne]

end Acquire

section Release
/-! RRELA 0 for Write Exclusive, by a host that gives its registered key. -/
variable (hready : d.readyNs h 0x15 1 c x) (hkind : x.kind ≠ 2) (hstage : c.stage = 2) (hdata : 8 ≤ c.data.length)
  (hact : bitsOf 2 0 (cdw 10 c.sqe) = 0) (hrsvdLo : bitsOf 7 3 (cdw 10 c.sqe) = 0)
  (hrsvdHi : bitsOf 31 16 (cdw 10 c.sqe) = 0) (htype : bitsOf 15 8 (cdw 10 c.sqe) = 1)
  (hkey : (d.resvOf c.key).keyOf (d.hostOf c) = some (leAt 0 8 c.data))
include hready hkind hstage hdata hact hrsvdLo hrsvdHi htype hkey

theorem Dev.resvRelease_byHolder (hholder : (d.resvOf c.key).holder = some (d.hostOf c)) :
    d.resvRelease h = d.putResv c { d.resvOf c.key with holder := none } := by
  rw [Dev.resvRelease, Dev.onResv_ready hready hkind hstage hdata]
  simp [hact, hrsvdLo, hrsvdHi, htype, hkey, hholder]

theorem Dev.resvRelease_byOther (hholder : (d.resvOf c.key).holder ≠ some (d.hostOf c)) :
    d.resvRelease h = d.putResv c (d.resvOf c.key) := by
  rw [Dev.resvRelease, Dev.onResv_ready hready hkind hstage hdata]
  simp [hact, hrsvdLo, hrsvdHi, htype, hkey, hholder]

end Release

/-- A report with the extended data structure (EDS 1). -/
theorem Dev.resvReport_extended (hready : d.readyNs h 0x0E 2 c x) (hkind : x.kind ≠ 2) (heds : cdw 11 c.sqe = 1)
    (hsize : (cdw 10 c.sqe + 1) * 4 ≤ 1048576) :
    d.resvReport h =
      let r := d.resvOf c.key
      d.answer c (sliceB 0 ((cdw 10 c.sqe + 1) * 4)
        (leBytes 4 r.gen ++ leBytes 1 (b2n r.holder.isSome) ++ leBytes 2 r.regs.length ++ zeros 57 ++
          r.regs.flatMap (fun p => leBytes 2 0xFFFF ++ leBytes 1 (b2n (r.holder == some p.1)) ++ zeros 5 ++ leBytes 8 p.2 ++
            sliceB 0 16 p.1 ++ zeros 32))) 0 0 := by
  have hbit : bitOf 0 1 = true := rfl
  rw [Dev.resvReport, Dev.onNs_ready hready, if_neg hkind]
  simp only [heds, hbit, if_true]
  rw [if_neg (by omega)]

/-- Settles O26: each clause is its command where nothing refuses it. -/
theorem reservationCommands : Obligations.ReservationCommands := by
  intro s h c x hkind hstage
  refine ⟨fun hready hdata hrsvd hact hkey => ?register,
    fun hready hdata _ hrsvdHi htype hact hrsvdLo hkey =>
      ⟨fun hholder => ?acquireFree, fun hholder => ?acquireAgain, fun other hholder hne => ?acquireHeld⟩,
    fun hready hdata hact hrsvdLo hrsvdHi htype hkey => ⟨fun hholder => ?release, fun hholder => ?releaseNothing⟩,
    fun hready heds hsize => ?report⟩
  case register => exact Does.of rfl (Dev.resvRegister_first hready hkind hstage hdata hrsvd hact hkey)
  case acquireFree =>
    exact Does.of rfl (Dev.resvAcquire_free hready hkind hstage hdata hrsvdHi htype hact hrsvdLo hkey hholder)
  case acquireAgain =>
    exact Does.of rfl (Dev.resvAcquire_byHolder hready hkind hstage hdata hrsvdHi htype hact hrsvdLo hkey hholder)
  case acquireHeld =>
    exact Does.of rfl (Dev.resvAcquire_heldByOther hready hkind hstage hdata hrsvdHi htype hact hrsvdLo hkey hholder hne)
  case release =>
    exact Does.of rfl (Dev.resvRelease_byHolder hready hkind hstage hdata hact hrsvdLo hrsvdHi htype hkey hholder)
  case releaseNothing =>
    exact Does.of rfl (Dev.resvRelease_byOther hready hkind hstage hdata hact hrsvdLo hrsvdHi htype hkey hholder)
  case report => exact Does.of rfl (Dev.resvReport_extended hready hkind heds hsize)

end Sys2Proof.Machine

/-! SUPPORT. Connections over TCP (R225 to R229, R243) on a port that admits traffic: how they begin, carry PDUs and end, and
the statement TcpConnections. -/
namespace Sys2Proof.Machine

variable {d : Dev}

/-! ## A connection opens (R225, R228) -/

section Syn
/-! A SYN to the I/O port of a port that is marked for NVMe/TCP and whose flume to host queueing is up. -/
variable {p dport : Nat} {peer : NetAddr} (hmarked : d.laneFlag p 2 = true) (hup : d.portUp p = true)
  (hpath : d.portRxDown p = false) (hio : dport = d.rd .HQ_TCP_PORTS_IO_PORT)
include hmarked hup hpath hio

theorem Dev.tcpSyn_opens (hroom : d.hq.conns.length < 65536) :
    d.tcpSyn p peer dport =
      ({ d with hq.conns := amPut d.hq.nextConn (⟨p, peer, d.portOwner p, false, false, false, 0, false, none, 0⟩ : Conn) d.hq.conns,
                hq.nextConn := d.hq.nextConn + 1 } : Dev).showConns := by
  simp [Dev.tcpSyn, hmarked, hup, hpath, hio, Nat.not_le.mpr hroom]

theorem Dev.tcpSyn_tableFull (hfull : 65536 ≤ d.hq.conns.length) :
    d.tcpSyn p peer dport =
      ((d.send (.tcpReset p peer)).cnt .HQ_TCP_REFUSED).raise 0x6001 [(2, p), (16, peer.ip)] := by
  simp [Dev.tcpSyn, hmarked, hup, hpath, hio, hfull]

end Syn

/-! ## PDUs of a connection (R226, R227, R241) -/

section Pdu
variable {c : Nat} {x : Conn} (hconn : amFind c d.hq.conns = some x) (hup : d.portUp x.port = true)
include hconn hup

/-- The first ICReq of a connection, without a fault: a digest is used where both sides take it. -/
theorem Dev.icReq_answered (hnew : x.ready = false) {hpda : Nat} (hpda31 : hpda ≤ 31) (hdgst ddgst : Bool) (maxr2t : Nat) :
    d.icReq c 0 hpda hdgst ddgst maxr2t false =
      let h := hdgst && d.rd .HQ_TCP_CFG_HDGST_EN == 1
      let g := ddgst && d.rd .HQ_TCP_CFG_DDGST_EN == 1
      let cs := amAdj c (fun y : Conn => { y with ready := true, hdgst := h, ddgst := g, maxr2t := maxr2t }) d.hq.conns
      ({ d with hq.conns := cs } : Dev).send (.icResp c 0 h g (d.rd .HQ_TCP_CFG_MAXH2C_KIB * 1024)) := by
  simp [Dev.icReq, hconn, hup, hnew, Nat.not_lt.mpr hpda31]

theorem Dev.capsule_beforeIcReq (hnew : x.ready = false) (sqe data : List Byte) :
    d.capsule c sqe data .good = d.terminate c 2 := by
  simp [Dev.capsule, hconn, hup, hnew]

/-- A good capsule whose data fit arrives on the queue of its connection. -/
theorem Dev.capsule_arrives (hset : x.ready = true) {k q : Nat} {y : HQueue} (hctrl : x.ctrl = some k)
    (hqueue : d.queueOf c = some (q, y)) {sqe data : List Byte}
    (hfits : data.length ≤ if y.qid = 0 then 8192 else (d.arrive q y sqe data).rd .HQ_TCP_CFG_ICD_KIB * 1024) :
    d.capsule c sqe data .good = d.arrive q y sqe data := by
  simp [Dev.capsule, hconn, hup, hset, hctrl, hqueue, Nat.not_lt.mpr hfits]

end Pdu

/-! ## Connect (R228, R229, R243) -/

section Connect
/-! A Connect without a fault on a connection that is set up and has no controller yet, to one of the instances, `n`, whose
quota has room for it. -/
variable {c n kato : Nat} {x : Conn} {sqe data : List Byte} (hconn : amFind c d.hq.conns = some x) (hset : x.ready = true)
  (hfree : x.ctrl = none) (hio : x.disc = false) (hrecfmt : bitsOf 15 0 (cdw 10 sqe) = 0)
  (howner : d.nqnOwner (trimZeros (sliceB 256 256 data)) = some n) (hkato : katoOf (cdw 12 sqe) = some kato)
  (hquota : d.connsOf n c < d.rd .INS_QUOTA_CONN n) (hsize : 1 ≤ bitsOf 15 0 (cdw 11 sqe))
  (hmost : bitsOf 15 0 (cdw 11 sqe) ≤ 1023)
include hconn hset hfree hio hrecfmt howner hkato hquota hsize hmost

theorem Dev.connect_adminQueue (hqid : bitsOf 31 16 (cdw 10 sqe) = 0) (hdynamic : leAt 16 2 data = 0xFFFF) :
    d.connect c sqe data =
      (({ d with hq.ctrls := amPut d.hq.nextCtrl (newCtrl n none kato d.now (sliceB 0 16 data) false) d.hq.ctrls,
                 hq.nextCtrl := d.hq.nextCtrl + 1 } : Dev).addQueue c d.hq.nextCtrl n 0 (bitsOf 15 0 (cdw 11 sqe)) 0).send
        (.cqe d.hq.nextQueue (sqeCid sqe) 0 0 false d.hq.nextCtrl 0) := by
  have hnonzero : bitsOf 15 0 (cdw 11 sqe) ≠ 0 := Nat.one_le_iff_ne_zero.mp hsize
  simp [Dev.connect, hconn, hset, hfree, hio, hrecfmt, howner, hkato, Nat.not_le.mpr hquota, Nat.not_lt.mpr hmost, hnonzero,
    hqid, hdynamic]

/-- An I/O queue joins a controller of `n` for the same host that has granted its number and not yet given it. -/
theorem Dev.connect_ioQueue {y : Ctrl} (hqid : 1 ≤ bitsOf 31 16 (cdw 10 sqe)) (hqids : bitsOf 31 16 (cdw 10 sqe) ≤ 128)
    (hctrl : d.ctrl (leAt 16 2 data) = some y) (hinst : y.inst = n) (htcp : y.pf = none) (hhost : y.host = sliceB 0 16 data)
    (hgranted : bitsOf 31 16 (cdw 10 sqe) ≤ y.nq)
    (hunused : d.queueNamed (leAt 16 2 data) (bitsOf 31 16 (cdw 10 sqe)) = none) :
    d.connect c sqe data =
      (d.addQueue c (leAt 16 2 data) n (bitsOf 31 16 (cdw 10 sqe)) (bitsOf 15 0 (cdw 11 sqe)) (d.rd .HQ_INS_CFG_TCP_QPRIO n)).send
        (.cqe d.hq.nextQueue (sqeCid sqe) 0 0 false (leAt 16 2 data) 0) := by
  have hnonzero : bitsOf 15 0 (cdw 11 sqe) ≠ 0 := Nat.one_le_iff_ne_zero.mp hsize
  have hioQueue : bitsOf 31 16 (cdw 10 sqe) ≠ 0 := Nat.one_le_iff_ne_zero.mp hqid
  simp [Dev.connect, hconn, hset, hfree, hio, hrecfmt, howner, hkato, Nat.not_le.mpr hquota, Nat.not_lt.mpr hmost, hnonzero,
    hioQueue, Nat.not_lt.mpr hqids, hctrl, hinst, htcp, hhost, Nat.not_lt.mpr hgranted, hunused]

end Connect

/-! ## A connection is lost (R255) -/

theorem Dev.loseConn_withoutController {c : Nat} {x : Conn} (hconn : amFind c d.hq.conns = some x) (hfree : x.ctrl = none) :
    d.loseConn c false = ({ d with hq.conns := amDel c d.hq.conns } : Dev).showConns := by
  simp [Dev.loseConn, hconn, hfree, Dev.dropConn]

/-- Settles O21: each clause is its command where nothing refuses it. -/
theorem tcpConnections : Obligations.TcpConnections := by
  intro s
  refine ⟨fun p a port hmarked hup hpath hio => ⟨fun hroom => ?opens, fun hfull => ?full⟩,
    fun c x hconn hup => ⟨fun hpda r2t h g hnew hpda31 => ?icreq, fun sqe data hnew => ?early,
      fun sqe data k q y hset hctrl hqueue hfits => ?arrives⟩,
    fun c n kato x sqe data hconn hset hfree hio hrecfmt howner hkato hquota hsize hmost =>
      ⟨fun hqid hdynamic => ?adminQueue,
        fun y hqid hqids hctrl hinst htcp hhost hgranted hunused => ?ioQueue⟩,
    fun c x hconn hfree => ?lost⟩
  case opens => exact Does.of rfl (Dev.tcpSyn_opens hmarked hup hpath hio hroom)
  case full => exact Does.of rfl (Dev.tcpSyn_tableFull hmarked hup hpath hio hfull)
  case icreq => exact Does.of rfl (Dev.icReq_answered hconn hup hnew hpda31 h g r2t)
  case early => exact Does.of rfl (Dev.capsule_beforeIcReq hconn hup hnew sqe data)
  case arrives => exact Does.of rfl (Dev.capsule_arrives hconn hup hset hctrl hqueue hfits)
  case adminQueue =>
    exact Does.of rfl (Dev.connect_adminQueue hconn hset hfree hio hrecfmt howner hkato hquota hsize hmost hqid hdynamic)
  case ioQueue =>
    exact Does.of rfl (Dev.connect_ioQueue hconn hset hfree hio hrecfmt howner hkato hquota hsize hmost hqid hqids hctrl hinst
      htcp hhost hgranted hunused)
  case lost => exact Does.of rfl (Dev.loseConn_withoutController hconn hfree)

end Sys2Proof.Machine

/-! SUPPORT. Host commands on their way (R241 to R248): fetched, given their data, admitted, given their slots and released,
and the statement CommandFlow. -/
namespace Sys2Proof.Machine

variable {d : Dev} {h : Nat} {c : HCmd}

/-! ## Entries and data come (R241, R246, R253) -/

/-- An entry fetched from a queue of a ready PCIe controller arrives. -/
theorem Dev.sqeFetched_arrives {q : Nat} {y : HQueue} {k : Ctrl} (hqueue : amFind q d.hq.queues = some y)
    (hctrl : d.ctrl y.ctrl = some k) (hpcie : k.pf.isSome) (hready : k.ready = true) (hmode : d.trafficMode = true)
    (hopen : d.closed = false) (sqe : List Byte) : d.sqeFetched q sqe = d.arrive q y sqe [] := by
  simp [Dev.sqeFetched, hqueue, hctrl, hpcie, hready, hmode, hopen]

/-- Data that were asked for and begin where the last ended come to their command. -/
theorem Dev.h2cData_inSequence {k : Nat} {x : Conn} {bs : List Byte} (hcmd : d.cmd h = some c)
    (hconn : d.connOf c = some (k, x)) (hlink : d.portLinked x.port = true) (hasked : c.asked = true)
    (hfits : c.data.length + bs.length ≤ c.want) : d.h2cData h c.data.length bs .good = d.dataCame h bs := by
  simp [Dev.h2cData, hcmd, hconn, hlink, hasked, Nat.not_lt.mpr hfits]

section PcieData
/-! A command of a PCIe queue that has asked for data and lacks some. -/
variable (hcmd : d.cmd h = some c) (hpcie : d.connOf c = none) (hasked : c.asked = true) (hlacks : c.data.length < c.want)
include hcmd hpcie hasked hlacks

theorem Dev.pcieFetched_data {bs : List Byte} (hfits : c.data.length + bs.length ≤ c.want) :
    d.pcieFetched h (some bs) = d.dataCame h bs := by
  simp [Dev.pcieFetched, hcmd, hpcie, hasked, Nat.not_le.mpr hlacks, Nat.not_lt.mpr hfits]

theorem Dev.pcieFetched_failed :
    d.pcieFetched h none = d.failWrite h 0 0x04 false (some .HQ_INS_CNT_TRANSPORT_ERRORS) := by
  simp [Dev.pcieFetched, hcmd, hpcie, hasked, Nat.not_le.mpr hlacks]

end PcieData

/-! ## Admission (R242, R244, R245) -/

/-- The commands that wait for admission, for `n` of the instances. -/
def Dev.waitingOf (d : Dev) (n : Nat) : List HCmd := d.waitingCmds.filter (fun c => c.inst == n)

/-- Those that the weighted classes order: on I/O queues that are not urgent. -/
def Dev.weightedOf (d : Dev) (n : Nat) : List HCmd :=
  (d.waitingOf n).filter (fun c => (d.hqueue c.queue).qid != 0 && (d.hqueue c.queue).cls != 0)

/-- The device once each controller with such commands has begun a new round where its old one is used up (R243). -/
def Dev.roundsFor (d : Dev) (n : Nat) : Dev :=
  let low := d.weightedOf n
  ((low.map (·.ctrl)).eraseDups).foldl (fun (d : Dev) k => d.newRound k low) d

/-- How many commands the tracker holds for `n` of the instances (R244). -/
def Dev.trackedOf (d : Dev) (n : Nat) : Nat := (d.hq.cmds.filter (fun x => x.inst == n && decide (1 ≤ x.stage))).length

section Winner
/-! Of the instances the arbiter picks `n`, and of its queues `q`, at whose front `c` waits; `e` is the device once the turn is
taken and charged. -/
variable {e : Dev} {n q : Nat} {wrr : Bool} (hheld : d.rd .HQ_STATUS_ADMIT_HELD = 0) (hmode : d.trafficMode = true)
  (hpick : d.arbPick 3 ((d.waitingCmds.map (·.inst)).eraseDups) = some n)
  (hqueue : (d.roundsFor n).queuePick (d.waitingOf n) = some (q, wrr))
  (hfront : (d.waitingOf n).find? (fun c => c.queue == q) = some c)
  (hcharged : ((d.roundsFor n).takeTurn q wrr).charge 3 n 1 = e)
include hheld hmode hpick hqueue hfront hcharged

/-- The winner is refused at the quota of `n` or at a full tracker, and admitted otherwise. -/
theorem Dev.admitCmd_winner :
    d.admitCmd =
      if e.rd .HQ_INS_CFG_CMD_QUOTA n ≤ e.trackedOf n then
        (e.raiseSec n 0x6010 n [(1, n)]).failCmd c.handle 7 0x90 false (some .HQ_INS_CNT_SHARE_REFUSED)
      else if 262144 ≤ e.inflight then
        (e.raiseSec n 0x6011 0 [(1, n)]).failCmd c.handle 0 0x21 false none
      else
        (e.setCmd c.handle (fun c => { c with stage := 1, arrival := e.now })).cnt .HQ_INS_CNT_COMMANDS n := by
  subst hcharged
  rw [Dev.roundsFor, Dev.weightedOf, Dev.waitingOf] at hqueue
  rw [Dev.waitingOf] at hfront
  have hopen : ¬(d.rd .HQ_STATUS_ADMIT_HELD = 1 ∨ (!d.trafficMode) = true) := by simp [hheld, hmode]
  rw [Dev.admitCmd, if_neg hopen]
  simp only [hpick, hqueue, hfront]
  rfl

theorem Dev.admitCmd_admits (hquota : e.trackedOf n < e.rd .HQ_INS_CFG_CMD_QUOTA n) (hroom : e.inflight < 262144) :
    d.admitCmd = (e.setCmd c.handle (fun c => { c with stage := 1, arrival := e.now })).cnt .HQ_INS_CNT_COMMANDS n := by
  rw [Dev.admitCmd_winner hheld hmode hpick hqueue hfront hcharged, if_neg (Nat.not_le.mpr hquota),
    if_neg (Nat.not_le.mpr hroom)]

theorem Dev.admitCmd_atQuota (hquota : e.rd .HQ_INS_CFG_CMD_QUOTA n ≤ e.trackedOf n) :
    d.admitCmd = (e.raiseSec n 0x6010 n [(1, n)]).failCmd c.handle 7 0x90 false (some .HQ_INS_CNT_SHARE_REFUSED) := by
  rw [Dev.admitCmd_winner hheld hmode hpick hqueue hfront hcharged, if_pos hquota]

end Winner

/-! ## Slots and release (R246 to R248) -/

/-- A write that waits for slots tries to take them. -/
theorem Dev.slotReserve_waiting {x : Namespace} (hcmd : d.cmd h = some c) (hwaits : c.held = true) (hstage : c.stage ≠ 3)
    (hop : sqeOp c.sqe = 1) (hio : d.isAdmin c = false) (hns : d.nsOf c = some x) :
    d.slotReserve h = (d.takeSlots c x).checkData h := by
  simp [Dev.slotReserve, hcmd, hwaits, hstage, hop, hio, hns]

/-- An admitted command is released unless an overlapping one ordered before it is in the tracker and has not taken effect. -/
theorem Dev.releaseCmd_admitted (hcmd : d.cmd h = some c) (hstage : c.stage = 1) :
    d.releaseCmd h =
      if d.hq.cmds.any (fun b => b.handle != h && decide (1 ≤ b.stage ∧ b.stage ≤ 2) && cmdBefore b c && d.overlap b c) then d
      else d.setCmd h (fun c => { c with stage := 2 }) := by
  rw [Dev.releaseCmd]
  simp only [hcmd]
  rw [if_neg (not_not.mpr hstage)]

/-- Settles O22: each clause is its command in the case that the statement names. -/
theorem commandFlow : Obligations.CommandFlow := by
  intro s
  refine ⟨fun q y k sqe hqueue hctrl hpcie hready hmode hopen => ?fetched,
    fun h k c x bs hcmd hconn hlink hasked hfits => ?tcpData,
    fun h c bs hcmd hpcie hasked hlacks hfits => ⟨?pcieData, ?pcieFailed⟩,
    fun n q wrr c hheld hmode hpick hqueue hfront => ⟨fun hquota hroom => ?admits, fun hquota => ?atQuota⟩,
    fun h c x hcmd hwaits hstage hop hio hns => ?slots, fun h c hcmd hstage => ?release⟩
  case fetched => exact Does.of rfl (Dev.sqeFetched_arrives hqueue hctrl hpcie hready hmode hopen sqe)
  case tcpData => exact Does.of rfl (Dev.h2cData_inSequence hcmd hconn hlink hasked hfits)
  case pcieData => exact Does.of rfl (Dev.pcieFetched_data hcmd hpcie hasked hlacks hfits)
  case pcieFailed => exact Does.of rfl (Dev.pcieFetched_failed hcmd hpcie hasked hlacks)
  case admits => exact Does.of rfl (Dev.admitCmd_admits hheld hmode hpick hqueue hfront rfl hquota hroom)
  case atQuota => exact Does.of rfl (Dev.admitCmd_atQuota hheld hmode hpick hqueue hfront rfl hquota)
  case slots => exact Does.of rfl (Dev.slotReserve_waiting hcmd hwaits hstage hop hio hns)
  case release => exact Does.of rfl (Dev.releaseCmd_admitted hcmd hstage)

end Sys2Proof.Machine

/-! SUPPORT. Controllers (R225, R229, R231, R255, R256): enabled, reset, shut down and timed out, their properties, and the
statement ControllerCommands. -/
namespace Sys2Proof.Machine

variable {d : Dev}

/-! ## Timers, resets and shutdown (R229, R255, R256) -/

/-- The association of a controller over TCP ends when its KATO has passed since its last admin command. -/
theorem Dev.keepAliveTimeout_due {k : Nat} {x : Ctrl} (hctrl : d.ctrl k = some x) (htcp : x.pf = none)
    (hdue : x.lastAdmin + x.kato * 1000000 ≤ d.now) :
    d.keepAliveTimeout k = (d.raiseI x.inst 0x6041 [(1, x.inst), (2, k)]).resetController k := by
  simp [Dev.keepAliveTimeout, hctrl, htcp, Nat.not_lt.mpr hdue]

theorem Dev.resetController_exists {k : Nat} {x : Ctrl} (hctrl : d.ctrl k = some x) :
    d.resetController k = (d.raiseI x.inst 0x6040 [(1, x.inst), (2, k)]).endController k := by
  rw [Dev.resetController]
  simp only [hctrl]

/-- Admission that has been closed for 50 ms opens again, and the activation is abandoned. -/
theorem Dev.holdTimeout_due {h : FwHold} {t : Nat} (hhold : d.mgt.hold = some h) (hheld : d.hq.heldAt = some t)
    (hdue : t + 50000000 ≤ d.now) :
    d.holdTimeout =
      let e := (d.reopen 50000).cnt .HQ_ACT_LAST_ABANDONED
      (e.raise 0x6031 [(4, (e.hq.cmds.filter (fun c => c.stage == 0)).length)]).fwAbandon h.op 4 50000 := by
  rw [Dev.holdTimeout]
  simp only [hhold, hheld]
  rw [if_neg (Nat.not_lt.mpr hdue)]

/-! ## Enabling the controller of a physical function (R231) -/

/-- A field of one bit read out of a word is the word's bit. -/
theorem bitOf_toNat {w : Nat} (i : Nat) (v : BitVec w) : bitOf i v.toNat = v.getLsbD i := by
  rw [BitVec.getLsbD, Nat.testBit_eq_decide_div_mod_eq]
  rfl

/-- The controller of physical function `pf`, which serves `n` of the instances, enabled with Controller Configuration `cc`. -/
def enabledCtrl (n pf cc now : Nat) : Ctrl :=
  { newCtrl n (some pf) 120000 now (leBytes 16 pf) false with cc := cc, ready := true }

section Enable
variable {pf n cc : Nat} (hinst : d.pfInst pf = some n) (hen : bitOf 0 cc = true) (hmode : d.trafficMode = true)
  (hopen : d.closed = false) (hnew : d.ctrl pf = none)
include hinst hen hmode hopen hnew

/-- The first enabling makes the controller and its admin queue. -/
theorem Dev.enableController_first :
    d.enableController pf cc =
      { d with hq.ctrls := amPut pf (enabledCtrl n pf cc d.now) d.hq.ctrls,
               hq.queues := amPut d.hq.nextQueue (⟨pf, 0, none, 0, 0, 0, 0⟩ : HQueue) d.hq.queues,
               hq.nextQueue := d.hq.nextQueue + 1 } := by
  rw [Dev.enableController]
  simp only [hinst, hnew]
  rw [if_neg (by simp [hen, hmode, hopen])]
  rfl

theorem Dev.ctrl_enableController_first : (d.enableController pf cc).ctrl pf = some (enabledCtrl n pf cc d.now) := by
  rw [Dev.enableController_first hinst hen hmode hopen hnew, Dev.ctrl, amFind_amPut]
  exact if_pos rfl

end Enable

/-! ## Properties over TCP (R225, R231, R255) -/

section Property
variable {h : Nat} {c : HCmd} {k : Ctrl} (hready : d.readyAdmin h 0x7F c k) (htcp : k.pf = none)
include hready htcp

/-- A Fabrics command that is ready on a controller over TCP is run by the row of its type. -/
theorem Dev.onFabrics_ready {type : Nat} (htype : leAt 4 1 c.sqe = type) (f : HCmd → Ctrl → Dev) :
    d.onFabrics h type f = f c k := by
  have hcmd : d.cmd h = some c := hready.1.1
  rw [Dev.onFabrics]
  simp only [hcmd]
  rw [if_neg (not_not.mpr htype), Dev.onAdmin_ready hready, if_neg (by simp [htcp])]

variable (hattr : bitsOf 2 0 (leAt 40 1 c.sqe) = 0)
include hattr

theorem Dev.propertyGet_cc (htype : leAt 4 1 c.sqe = 0x04) (hofst : leAt 44 4 c.sqe = 0x14) :
    d.propertyGet h = d.succeed h k.cc 0 := by
  rw [Dev.propertyGet, Dev.onFabrics_ready hready htcp htype]
  simp only [hattr, hofst]

theorem Dev.propertyGet_csts (htype : leAt 4 1 c.sqe = 0x04) (hofst : leAt 44 4 c.sqe = 0x1C) :
    d.propertyGet h = d.succeed h (b2n k.ready + 4 * d.shst c.ctrl k) 0 := by
  rw [Dev.propertyGet, Dev.onFabrics_ready hready htcp htype]
  simp only [hattr, hofst]

variable (htype : leAt 4 1 c.sqe = 0x00) (hofst : leAt 44 4 c.sqe = 0x14)
include htype hofst

/-- A write of CC that clears EN. -/
theorem Dev.propertySet_disables (hwas : bitOf 0 k.cc = true) (hclear : bitOf 0 (leAt 48 4 c.sqe) = false) :
    d.propertySet h = (d.succeed h 0 0).resetController c.ctrl := by
  rw [Dev.propertySet, Dev.onFabrics_ready hready htcp htype]
  simp [hattr, hofst, hwas, hclear]

/-- A write of CC with EN set that asks for no shutdown. -/
theorem Dev.propertySet_keepsCc (hen : bitOf 0 (leAt 48 4 c.sqe) = true) (hshn : bitsOf 15 14 (leAt 48 4 c.sqe) = 0) :
    d.propertySet h = (d.setCtrl c.ctrl (fun k => { k with cc := leAt 48 4 c.sqe, ready := true })).succeed h 0 0 := by
  rw [Dev.propertySet, Dev.onFabrics_ready hready htcp htype]
  simp [hattr, hofst, hen, hshn]

end Property

/-- Settles O23: each clause is its command where it acts. -/
theorem controllerCommands : Obligations.ControllerCommands := by
  refine ⟨fun s => ⟨fun k x hctrl => ⟨fun htcp hdue => ?keepAlive, ?reset, ?shutdown⟩,
      fun pf cc n hinst hen hmode hopen hnew => ?enable, fun h t hhold hheld hdue => ?hold⟩,
    fun s h c k hready htcp hattr => ⟨fun htype => ⟨fun hofst => ?getCc, fun hofst => ?getCsts⟩,
      fun htype hofst => ⟨fun hwas hclear => ?disable, fun hen hshn => ?setCc⟩⟩⟩
  case keepAlive => exact Does.of rfl (Dev.keepAliveTimeout_due hctrl htcp hdue)
  case reset => exact Does.of rfl (Dev.resetController_exists hctrl)
  case shutdown => exact Does.of (f := s.dev.normalShutdown k) rfl (by rw [Dev.normalShutdown])
  case enable =>
    have hen' : bitOf 0 cc.toNat = true := (bitOf_toNat 0 cc).trans hen
    have hfirst := Dev.enableController_first hinst hen' hmode hopen hnew
    refine Ends.of (f := s.dev.enableController pf cc.toNat) rfl
      ⟨⟨_, Dev.ctrl_enableController_first hinst hen' hmode hopen hnew, rfl, rfl, rfl, rfl⟩, ?_⟩
    rw [hfirst]
    exact ⟨rfl, rfl, rfl, rfl, SameMem.of_ram rfl⟩
  case hold => exact Does.of rfl (Dev.holdTimeout_due hhold hheld hdue)
  case getCc => exact Does.of rfl (Dev.propertyGet_cc hready htcp hattr htype hofst)
  case getCsts => exact Does.of rfl (Dev.propertyGet_csts hready htcp hattr htype hofst)
  case disable => exact Does.of rfl (Dev.propertySet_disables hready htcp hattr htype hofst hwas hclear)
  case setCc => exact Does.of rfl (Dev.propertySet_keepsCc hready htcp hattr htype hofst hen hshn)

end Sys2Proof.Machine

/-! SUPPORT. Admin commands of a controller (R231, R236, R237, R243, R251): queues over PCIe, Identify, log pages, Abort,
features and asynchronous events, and the statement AdminCommands. -/
namespace Sys2Proof.Machine

variable {d : Dev} {h : Nat} {c : HCmd} {k : Ctrl}

/-! ## Queues of a PCIe controller (R231, R243) -/

section PcieQueues
variable (hpcie : k.pf ≠ none)
include hpcie

/-- A completion queue of a free identifier that the controller was granted, of a legal size and vector. -/
theorem Dev.createCq_creates (hready : d.readyAdmin h 0x05 c k) (hrsvd : cdw 11 c.sqe / 4 % 2 ^ 14 = 0)
    (hqid : bitsOf 15 0 (cdw 10 c.sqe) ≠ 0) (hgranted : bitsOf 15 0 (cdw 10 c.sqe) ≤ k.nq)
    (hunused : amFind (c.ctrl * 1024 + bitsOf 15 0 (cdw 10 c.sqe)) d.hq.cqs = none)
    (hsize : 1 ≤ bitsOf 31 16 (cdw 10 c.sqe)) (hmost : bitsOf 31 16 (cdw 10 c.sqe) ≤ 1023)
    (hvector : bitsOf 31 16 (cdw 11 c.sqe) ≤ 128) :
    d.createCq h =
      ({ d with hq.cqs := amPut (c.ctrl * 1024 + bitsOf 15 0 (cdw 10 c.sqe)) (bitsOf 31 16 (cdw 10 c.sqe) + 1) d.hq.cqs } :
        Dev).succeed h 0 0 := by
  have hnonzero : bitsOf 31 16 (cdw 10 c.sqe) ≠ 0 := Nat.one_le_iff_ne_zero.mp hsize
  have hrsvd' : cdw 11 c.sqe / 4 % 16384 = 0 := hrsvd
  rw [Dev.createCq, Dev.onAdmin_ready hready]
  simp [hpcie, hrsvd', hqid, Nat.not_lt.mpr hgranted, hunused, hnonzero, Nat.not_lt.mpr hmost, Nat.not_lt.mpr hvector]

/-- A submission queue for a completion queue that exists: QPRIO gives its class under weighted round robin. -/
theorem Dev.createSq_creates (hready : d.readyAdmin h 0x01 c k) (hrsvd : bitsOf 15 3 (cdw 11 c.sqe) = 0)
    (hcq : (amFind (c.ctrl * 1024 + bitsOf 31 16 (cdw 11 c.sqe)) d.hq.cqs).isSome)
    (hqid : bitsOf 15 0 (cdw 10 c.sqe) ≠ 0) (hgranted : bitsOf 15 0 (cdw 10 c.sqe) ≤ k.nq)
    (hunused : d.queueNamed c.ctrl (bitsOf 15 0 (cdw 10 c.sqe)) = none)
    (hsize : 1 ≤ bitsOf 31 16 (cdw 10 c.sqe)) (hmost : bitsOf 31 16 (cdw 10 c.sqe) ≤ 1023) :
    d.createSq h =
      let cls := if bitsOf 13 11 k.cc = 1 then bitsOf 2 1 (cdw 11 c.sqe) else 2
      let y : HQueue := ⟨c.ctrl, bitsOf 15 0 (cdw 10 c.sqe), none, cls, cls, bitsOf 31 16 (cdw 10 c.sqe) + 1,
        bitsOf 31 16 (cdw 11 c.sqe)⟩
      ({ d with hq.queues := amPut d.hq.nextQueue y d.hq.queues, hq.nextQueue := d.hq.nextQueue + 1 } : Dev).succeed h 0 0 := by
  have hnonzero : bitsOf 31 16 (cdw 10 c.sqe) ≠ 0 := Nat.one_le_iff_ne_zero.mp hsize
  have hcq' := Option.isSome_iff_ne_none.mp hcq
  rw [Dev.createSq, Dev.onAdmin_ready hready]
  simp [hpcie, hrsvd, hcq', hqid, Nat.not_lt.mpr hgranted, hunused, hnonzero, Nat.not_lt.mpr hmost]

/-- A submission queue none of whose commands is left goes at once. -/
theorem Dev.deleteSq_empty (hready : d.readyAdmin h 0x00 c k) (hqid : bitsOf 15 0 (cdw 10 c.sqe) ≠ 0) {q : Nat} {y : HQueue}
    (hqueue : d.queueNamed c.ctrl (bitsOf 15 0 (cdw 10 c.sqe)) = some (q, y)) (hempty : ∀ x ∈ d.hq.cmds, x.queue ≠ q) :
    d.deleteSq h =
      ({ d with hq.queues := amAdj q (fun y : HQueue => { y with qid := 65536 }) (d.hq.queues.filter (fun p => p.1 != q)) } :
        Dev).succeed h 0 0 := by
  have hnone : d.hq.cmds.filter (fun x => x.queue == q) = [] := by simpa using hempty
  have hleft : d.hq.cmds.any (fun x => x.queue == q) = false := by simpa using hempty
  rw [Dev.deleteSq, Dev.onAdmin_ready hready]
  simp [hpcie, hqueue, hqid, hnone, hleft]

/-- A completion queue that no submission queue uses. -/
theorem Dev.deleteCq_unused (hready : d.readyAdmin h 0x04 c k) (hqid : bitsOf 15 0 (cdw 10 c.sqe) ≠ 0)
    (hcq : (amFind (c.ctrl * 1024 + bitsOf 15 0 (cdw 10 c.sqe)) d.hq.cqs).isSome)
    (hunused : d.hq.queues.any (fun p => p.2.ctrl == c.ctrl && p.2.qid != 0 && p.2.qid != 65536 &&
      p.2.cq == bitsOf 15 0 (cdw 10 c.sqe)) = false) :
    d.deleteCq h =
      ({ d with hq.cqs := amDel (c.ctrl * 1024 + bitsOf 15 0 (cdw 10 c.sqe)) d.hq.cqs } : Dev).succeed h 0 0 := by
  rw [Dev.deleteCq, Dev.onAdmin_ready hready, if_neg (by simpa using hpcie),
    if_neg (by simp [hqid, Option.isSome_iff_ne_none.mp hcq]), if_neg (Bool.eq_false_iff.mp hunused)]

end PcieQueues

/-! ## Identify and log pages (R236, R237) -/

/-- CNS 2: the namespaces above the one named, rising. -/
theorem Dev.identify_activeNamespaces (hready : d.readyAdmin h 0x06 c k) (hcns : bitsOf 7 0 (cdw 10 c.sqe) = 2)
    (hio : k.disc = false) (hnsid : sqeNsid c.sqe < 0xFFFFFFFE) :
    d.identify h =
      d.answer c (sliceB 0 4096 ((((d.nsidsOf k.inst).filter (fun n => decide (sqeNsid c.sqe < n))).take 1024).flatMap
        (leBytes 4))) 0 0 := by
  rw [Dev.identify, Dev.onAdmin_ready hready]
  simp [hcns, hio, Nat.not_le.mpr hnsid]

/-- The whole Changed Namespace List, kept as it is by RAE. -/
theorem Dev.getLogPage_changedNamespaces (hready : d.readyAdmin h 0x02 c k) (hlid : bitsOf 7 0 (cdw 10 c.sqe) = 0x04)
    (hio : k.disc = false) (hretain : bitOf 15 (cdw 10 c.sqe) = true) (hoffset : leAt 48 8 c.sqe = 0)
    (hnumdl : bitsOf 31 16 (cdw 10 c.sqe) = 1023) (hnumdu : bitsOf 15 0 (cdw 11 c.sqe) = 0)
    (hlength : (amGet [] c.ctrl d.hq.changedNs).length ≤ 1024) :
    d.getLogPage h =
      d.answer c (sliceB 0 4096 (sliceB 0 4096 ((amGet [] c.ctrl d.hq.changedNs).flatMap (leBytes 4)))) 0 0 := by
  rw [Dev.getLogPage, Dev.onAdmin_ready hready]
  simp [hlid, hio, hretain, hoffset, hnumdl, hnumdu, Nat.not_lt.mpr hlength]

/-! ## Abort (R251) -/

/-- The command that an Abort names, while it is not yet released. -/
def Dev.abortVictim (d : Dev) (c : HCmd) : Option HCmd :=
  d.hq.cmds.find? (fun x => x.ctrl == c.ctrl && (d.hqueue x.queue).qid == bitsOf 15 0 (cdw 10 c.sqe) &&
    sqeCid x.sqe == bitsOf 31 16 (cdw 10 c.sqe) && decide (x.stage ≤ 1))

theorem Dev.abort_unreleased (hready : d.readyAdmin h 0x08 c k) {x : HCmd} (hvictim : d.abortVictim c = some x) :
    d.abort h = ((d.abandonWrite x).complete x.handle 0 0x07 true 0 0).succeed h 0 0 := by
  rw [Dev.abortVictim] at hvictim
  rw [Dev.abort, Dev.onAdmin_ready hready]
  simp only [hvictim]

/-- DW0 of the Abort says that nothing was aborted. -/
theorem Dev.abort_nothing (hready : d.readyAdmin h 0x08 c k) (hvictim : d.abortVictim c = none) :
    d.abort h = d.succeed h 1 0 := by
  rw [Dev.abortVictim] at hvictim
  rw [Dev.abort, Dev.onAdmin_ready hready]
  simp only [hvictim]

/-! ## Features (R229, R242, R243) -/

section SetFeatures
/-! A Set Features that does not ask to save. -/
variable (hready : d.readyAdmin h 0x09 c k) (hvolatile : bitOf 31 (cdw 10 c.sqe) = false)
include hready hvolatile

theorem Dev.setFeatures_arbitration (hfid : bitsOf 7 0 (cdw 10 c.sqe) = 0x01) (hrsvd : bitsOf 7 3 (cdw 11 c.sqe) = 0) :
    d.setFeatures h = (d.setCtrl c.ctrl (fun k => { k with arb := cdw 11 c.sqe })).succeed h 0 0 := by
  rw [Dev.setFeatures, Dev.onAdmin_ready hready]
  simp [hfid, hvolatile, hrsvd]

/-- Number of Queues: as many are granted as are asked for, at most 128 of each kind. -/
theorem Dev.setFeatures_queues (hfid : bitsOf 7 0 (cdw 10 c.sqe) = 0x07) (hsqs : bitsOf 15 0 (cdw 11 c.sqe) ≠ 65535)
    (hcqs : bitsOf 31 16 (cdw 11 c.sqe) ≠ 65535) :
    d.setFeatures h =
      let g := min 127 (min (bitsOf 15 0 (cdw 11 c.sqe)) (bitsOf 31 16 (cdw 11 c.sqe)))
      (d.setCtrl c.ctrl (fun k => { k with nq := g + 1 })).succeed h (g + 65536 * g) 0 := by
  rw [Dev.setFeatures, Dev.onAdmin_ready hready]
  simp [hfid, hvolatile, hsqs, hcqs]

/-- The priority class of an I/O queue changes from its next round. -/
theorem Dev.setFeatures_queueClass {q : Nat} {y : HQueue} (hfid : bitsOf 7 0 (cdw 10 c.sqe) = 0xC0)
    (hrsvd : bitsOf 31 18 (cdw 11 c.sqe) = 0) (hqueue : d.queueNamed c.ctrl (bitsOf 15 0 (cdw 11 c.sqe)) = some (q, y))
    (hio : y.qid ≠ 0) :
    d.setFeatures h =
      ({ d with hq.queues := amAdj q (fun y => { y with clsNext := bitsOf 17 16 (cdw 11 c.sqe) }) d.hq.queues } :
        Dev).succeed h 0 0 := by
  rw [Dev.setFeatures, Dev.onAdmin_ready hready]
  simp [hfid, hvolatile, hrsvd, hqueue, hio]

end SetFeatures

section GetFeatures
/-! The current value (SEL 0). -/
variable (hready : d.readyAdmin h 0x0A c k) (hsel : bitsOf 10 8 (cdw 10 c.sqe) = 0)
include hready hsel

theorem Dev.getFeatures_arbitration (hfid : bitsOf 7 0 (cdw 10 c.sqe) = 0x01) : d.getFeatures h = d.succeed h k.arb 0 := by
  rw [Dev.getFeatures, Dev.onAdmin_ready hready]
  simp [hfid, hsel]

theorem Dev.getFeatures_keepAlive (hfid : bitsOf 7 0 (cdw 10 c.sqe) = 0x0F) : d.getFeatures h = d.succeed h k.kato 0 := by
  rw [Dev.getFeatures, Dev.onAdmin_ready hready]
  simp [hfid, hsel]

end GetFeatures

/-! ## Asynchronous events -/

section AsyncRequest
variable (hready : d.readyAdmin h 0x0C c k)
include hready

theorem Dev.asyncRequest_waits (hroom : k.aers.length < 8) (hquiet : k.notices = []) :
    d.asyncRequest h =
      (d.setCtrl c.ctrl (fun k => { k with aers := k.aers ++ [h] })).setCmd h (fun c => { c with stage := 3, held := true }) := by
  rw [Dev.asyncRequest, Dev.onAdmin_ready hready, if_neg (Nat.not_le.mpr hroom)]
  simp only [hquiet]

theorem Dev.asyncRequest_tooMany (hfull : 8 ≤ k.aers.length) : d.asyncRequest h = d.failCmd h 1 0x05 true none := by
  rw [Dev.asyncRequest, Dev.onAdmin_ready hready, if_pos hfull]

end AsyncRequest

/-- Settles O24: each clause is its command where nothing refuses it. -/
theorem adminCommands : Obligations.AdminCommands := by
  intro s h c k
  refine ⟨fun hready hpcie hrsvd hqid hgranted hunused hsize hmost hvector => ?createCq,
    fun hready hpcie hrsvd hcq hqid hgranted hunused hsize hmost => ?createSq,
    fun q y hready hpcie hqid hqueue hempty => ?deleteSq, fun hready hpcie hqid hcq hunused => ?deleteCq,
    fun hready hcns hio hnsid => ?identify,
    fun hready hlid hio hretain hoffset hnumdl hnumdu hlength => ?logPage,
    fun hready => ⟨fun x hvictim => ?abort, fun hvictim => ?abortNothing⟩,
    fun hready hvolatile => ⟨fun hfid hrsvd => ?setArbitration, fun hfid hsqs hcqs => ?setQueues,
      fun q y hfid hrsvd hqueue hio => ?setClass⟩,
    fun hready hsel => ⟨fun hfid => ?getArbitration, fun hfid => ?getKeepAlive⟩,
    fun hready => ⟨fun hroom hquiet => ?eventWaits, fun hfull => ?eventRefused⟩, fun hready => ?keepAlive⟩
  case createCq =>
    exact Does.of rfl (Dev.createCq_creates (Option.isSome_iff_ne_none.mp hpcie) hready hrsvd hqid hgranted hunused hsize hmost
      hvector)
  case createSq =>
    exact Does.of rfl (Dev.createSq_creates (Option.isSome_iff_ne_none.mp hpcie) hready hrsvd hcq hqid hgranted hunused hsize
      hmost)
  case deleteSq =>
    exact Does.of rfl (Dev.deleteSq_empty (Option.isSome_iff_ne_none.mp hpcie) hready hqid hqueue hempty)
  case deleteCq =>
    exact Does.of rfl (Dev.deleteCq_unused (Option.isSome_iff_ne_none.mp hpcie) hready hqid hcq hunused)
  case identify => exact Does.of rfl (Dev.identify_activeNamespaces hready hcns hio hnsid)
  case logPage =>
    exact Does.of rfl (Dev.getLogPage_changedNamespaces hready hlid hio hretain hoffset hnumdl hnumdu hlength)
  case abort => exact Does.of rfl (Dev.abort_unreleased hready hvictim)
  case abortNothing => exact Does.of rfl (Dev.abort_nothing hready hvictim)
  case setArbitration => exact Does.of rfl (Dev.setFeatures_arbitration hready hvolatile hfid hrsvd)
  case setQueues => exact Does.of rfl (Dev.setFeatures_queues hready hvolatile hfid hsqs hcqs)
  case setClass => exact Does.of rfl (Dev.setFeatures_queueClass hready hvolatile hfid hrsvd hqueue hio)
  case getArbitration => exact Does.of rfl (Dev.getFeatures_arbitration hready hsel hfid)
  case getKeepAlive => exact Does.of rfl (Dev.getFeatures_keepAlive hready hsel hfid)
  case eventWaits => exact Does.of rfl (Dev.asyncRequest_waits hready hroom hquiet)
  case eventRefused => exact Does.of rfl (Dev.asyncRequest_tooMany hready hfull)
  case keepAlive => exact Does.of (f := s.dev.keepAlive h) rfl (Dev.onAdmin_ready hready _)

end Sys2Proof.Machine

/-! SUPPORT. Namespaces, programs and sanitize by management (R232, R233, R337, R419, R420, R432): when each request is taken
and what it then does, and the statement StoreRequests. -/
namespace Sys2Proof.Machine

/-! ## A request that begins changes nothing of the host's namespaces or the programs -/

@[simp] theorem Dev.submit_hq (d : Dev) (via : Via) : (d.submit via).hq = d.hq := by
  cases via <;> rfl

@[simp] theorem Dev.submit_eft (d : Dev) (via : Via) : (d.submit via).eft = d.eft := by
  cases via <;> rfl

@[simp] theorem Dev.newOp_hq (d : Dev) (type : Nat) : (d.newOp type).2.hq = d.hq := rfl

@[simp] theorem Dev.sendAnswer_hq (d : Dev) (via : Via) (m : List Byte) : (d.sendAnswer via m).hq = d.hq := by
  cases via <;> rfl

@[simp] theorem Dev.answerReq_hq (d : Dev) (via : Via) (msg : List Byte) (r : Reply) : (d.answerReq via msg r).hq = d.hq := by
  rw [Dev.answerReq, Dev.sendAnswer_hq]

@[simp] theorem Dev.begins_hq (d : Dev) (via : Via) (msg : List Byte) (type : Nat) : (d.begins via msg type).hq = d.hq := by
  rw [Dev.begins, Dev.answerReq_hq, Dev.newOp_hq, Dev.submit_hq]

theorem Dev.nspace_congr {d e : Dev} (h : e.hq = d.hq) (key : Nat) : e.nspace key = d.nspace key := by
  rw [Dev.nspace, h, Dev.nspace]

variable {d : Dev} {via : Via} {msg b : List Byte}

/-! ## Namespaces (R232, R233, R419) -/

/-- A namespace that is no frame view. -/
theorem Dev.nsCreate_creates (hasks : d.asksLong via msg 0x60 b) (hcheck : (d.submit via).nsCreateCheck b = 0)
    (hkind : leAt 1 1 b ≠ 2) :
    d.nsCreate via msg =
      let begun := d.begins via msg 0x60
      let op := d.opOf via 0x60
      let n := leAt 0 1 b
      let id := begun.freeNsid n
      (((begun.putNs (nsKey n id)
        ⟨n, leAt 1 1 b, leAt 2 1 b, leAt 8 8 b, leAt 3 1 b == 1, leAt 4 1 b, 1, leAt 16 4 b, 0⟩).namespaceChanged n id).opData op
          (leBytes 4 id)).endOp op 0 0 0 := by
  rw [Dev.nsCreate, Dev.long_asks hasks _ _ _ rfl hcheck]
  simp only [if_neg hkind]

/-- A namespace that nothing uses. -/
theorem Dev.nsDelete_deletes (hasks : d.asksLong via msg 0x61 b) (hlen : b.length = 5)
    (hfree : (d.submit via).nsBusy (leAt 0 1 b) (leAt 1 4 b) = 0) :
    d.nsDelete via msg =
      (((d.begins via msg 0x61).dropNs (nsKey (leAt 0 1 b) (leAt 1 4 b))).namespaceChanged (leAt 0 1 b) (leAt 1 4 b)).endOp
        (d.opOf via 0x61) 0 0 0 :=
  Dev.long_asks hasks _ _ _ rfl (by simp [hlen, hfree])

/-- A block namespace that nothing uses, and a format and a guard source that go together. -/
theorem Dev.nsFormat_formats {x : Namespace} (hasks : d.asksLong via msg 0x62 b) (hlen : b.length = 7)
    (hlbaf : leAt 5 1 b ≤ 4) (hsrc : leAt 6 1 b ≤ 1) (hplain : leAt 5 1 b ≤ 1 → leAt 6 1 b = 0)
    (hns : d.nspace (nsKey (leAt 0 1 b) (leAt 1 4 b)) = some x) (hkind : x.kind = 0)
    (hfree : (d.submit via).nsBusy (leAt 0 1 b) (leAt 1 4 b) = 0) :
    d.nsFormat via msg =
      let key := nsKey (leAt 0 1 b) (leAt 1 4 b)
      ((((d.begins via msg 0x62).dropNs key).putNs key
        { x with lbaf := leAt 5 1 b, guardSrc := leAt 6 1 b, append := 0 }).namespaceChanged (leAt 0 1 b) (leAt 1 4 b)).endOp
          (d.opOf via 0x62) 0 0 0 := by
  have hbody : ¬(b.length ≠ 7 ∨ 4 < leAt 5 1 b ∨ 1 < leAt 6 1 b ∨ (leAt 5 1 b ≤ 1 ∧ leAt 6 1 b = 1)) := by omega
  have hasked : (d.submit via).nspace (nsKey (leAt 0 1 b) (leAt 1 4 b)) = some x :=
    (Dev.nspace_congr (d.submit_hq via) _).trans hns
  have hbegun : (d.begins via msg 0x62).nspace (nsKey (leAt 0 1 b) (leAt 1 4 b)) = some x :=
    (Dev.nspace_congr (d.begins_hq via msg 0x62) _).trans hns
  rw [Dev.nsFormat, Dev.long_asks hasks _ _ _ rfl (by simp [hbody, hfree, hasked, hkind])]
  simp only [hbegun]

/-! ## Programs (R337, R420) -/

/-- A program of no more than the staging buffer holds, for one of the enabled instances: the operation answers with its
identifier and its first and last task, or with the cause for which its load is refused. -/
theorem Dev.programLoad_ends (hasks : d.asksLong via msg 0x70 b) (hlen : b.length = 5) (hfits : leAt 1 4 b ≤ stageSize 2)
    (hon : (d.submit via).insOn (leAt 0 1 b) = true) :
    d.programLoad via msg =
      let begun := d.begins via msg 0x70
      let op := d.opOf via 0x70
      let blob := staged begun.mgt.stageProg (leAt 1 4 b)
      let r := begun.loadProgram (leAt 0 1 b) blob (loaderCrc blob)
      let tasks := ((r.1.eft.programs.getLast?).map (·.tasks)).getD []
      if r.2 = true then (r.1.opData op (leBytes 8 (leAt 16 8 blob) ++ leBytes 2 (tasks.headD 0) ++
        leBytes 2 (tasks.getLastD 0))).endOp op 0 0 0
      else r.1.endOp op 0x0C 0 (Config.loadCause ((begun.checkLoader (leAt 0 1 b) blob (loaderCrc blob)).getD 8)) := by
  have hbody : ¬(b.length ≠ 5 ∨ stageSize 2 < leAt 1 4 b) := by omega
  rw [Dev.programLoad, Dev.long_asks hasks _ _ _ rfl (by simp [hbody, hon])]

/-- A program that is loaded and not yet unloading. -/
theorem Dev.programUnload_unloads {p : Program} (hasks : d.asksLong via msg 0x71 b) (hlen : b.length = 9)
    (hloaded : p ∈ d.eft.programs) (hinst : p.inst = leAt 0 1 b) (hid : p.id = leAt 1 8 b) (hstays : p.unloading = false) :
    d.programUnload via msg = (d.begins via msg 0x71).unloadProgram p.inst p.id := by
  have hfound : d.eft.programs.any (fun p => p.inst == leAt 0 1 b && p.id == leAt 1 8 b && !p.unloading) = true :=
    List.any_eq_true.mpr ⟨p, hloaded, by simp [hinst, hid, hstays]⟩
  rw [hinst, hid]
  exact Dev.long_asks hasks _ _ _ rfl (by simp only [hlen, Dev.submit_eft, hfound]; rfl)

/-! ## Sanitize (R432) -/

/-- Sanitize `z` begins behind those that run, and takes some steps. -/
def Dev.startSanitize (d : Dev) (steps : Nat) (z : Sanitize) : Dev :=
  Dev.runSanitize steps ({ d with mgt.sanitize := d.mgt.sanitize ++ [z] } : Dev).showSanitize

/-- The lowest of the enabled instances is the first that a search finds. -/
theorem Dev.find_lowestInstance {n : Nat} (hlowest : ∀ m < 256, d.insOn m = true → n ≤ m) (hrange : n < 256)
    (hon : d.insOn n = true) : (List.range 256).find? (fun m => d.insOn m) = some n := by
  refine List.find?_range_eq_some.mpr ⟨hon, List.mem_range.mpr hrange, fun m hm => ?_⟩
  have hoff : d.insOn m ≠ true := fun h => absurd (hlowest m (hm.trans hrange) h) (Nat.not_le.mpr hm)
  simpa using hoff

section Sanitize
variable (hasks : d.asksLong via msg 0x95 b) (hlen : b.length = 2)
include hasks hlen

theorem Dev.sanitizeRequest_ofInstance (hscope : leAt 0 1 b = 0) (hon : (d.submit via).insOn (leAt 1 1 b) = true)
    (steps : Nat) :
    d.sanitizeRequest via msg false steps =
      (d.begins via msg 0x95).startSanitize steps ⟨false, leAt 1 1 b, d.opOf via 0x95, 1⟩ := by
  rw [Dev.sanitizeRequest, Dev.long_asks hasks _ _ _ (by simp [hscope]) (by simp [hlen, hscope, hon])]
  rfl

/-- A sanitize of the device, in Maintenance, starts with the lowest of the enabled instances. -/
theorem Dev.sanitizeRequest_ofDevice {n : Nat} (hscope : leAt 0 1 b = 1) (hmode : d.rd .AVL_STATUS_MODE = 7)
    (hfirst : (List.range 256).find? (fun m => (d.begins via msg 0x95).insOn m) = some n) (steps : Nat) :
    d.sanitizeRequest via msg true steps =
      (d.begins via msg 0x95).startSanitize steps ⟨true, n, d.opOf via 0x95, 1⟩ := by
  rw [Dev.sanitizeRequest, Dev.long_asks hasks _ _ _ (by simp [hscope]) (by simp [hlen, hscope, hmode])]
  simp only [hfirst]
  rfl

end Sanitize

/-- Settles O55: each clause is its request where it is taken. -/
theorem storeRequests : Obligations.StoreRequests := by
  refine ⟨fun s via msg b n hasks hcheck hinst hkind => ?create, fun s via msg b n id hasks hlen hinst hid hfree => ?delete,
    fun s via msg b n id x hasks hlen hinst hid hlbaf hsrc hplain hns hkind hfree => ?format,
    fun s via msg b n hasks hlen hinst hfits hon => ?load, fun s via msg b p hasks hlen hloaded hinst hid hstays => ?unload,
    fun s via msg b n steps hasks hlen => ⟨fun hscope hinst hon => ?sanitizeInstance,
      fun hscope hmode hlowest hrange hon => ?sanitizeDevice⟩⟩
  case create =>
    subst hinst
    exact Does.of rfl (Dev.nsCreate_creates hasks hcheck hkind)
  case delete =>
    subst hinst hid
    exact Does.of rfl (Dev.nsDelete_deletes hasks hlen hfree)
  case format =>
    subst hinst hid
    exact Does.of rfl (Dev.nsFormat_formats hasks hlen hlbaf hsrc hplain hns hkind hfree)
  case load =>
    subst hinst
    exact Does.of rfl (Dev.programLoad_ends hasks hlen hfits hon)
  case unload => exact Does.of rfl (Dev.programUnload_unloads hasks hlen hloaded hinst hid hstays)
  case sanitizeInstance =>
    subst hinst
    exact Does.of rfl (Dev.sanitizeRequest_ofInstance hasks hlen hscope hon steps)
  case sanitizeDevice =>
    exact Does.of rfl (Dev.sanitizeRequest_ofDevice hasks hlen hscope hmode (Dev.find_lowestInstance hlowest hrange hon) steps)

end Sys2Proof.Machine

/-! SUPPORT. Gecko (R268 to R275, R278): what each update, step, expiry and partition move does where it acts, and the statement
GeckoUpdates. -/
namespace Sys2Proof.Machine

/-- Where no update waits, nothing goes on. -/
theorem Dev.gkResume_nothing {d : Dev} (hidle : d.gk.updates = []) : d.gkResume = d := by
  rw [Dev.gkResume, hidle, Dev.resumeAll]

/-! ## Updates that run at once (R264, R268, R270) -/

/-- The update that a GO of context `x` names, with the context's entry buffer. -/
def Dev.goUpdate (d : Dev) (x op p pos : Nat) : HeldUpdate :=
  ⟨x, op, p, pos, d.wide .CTX_VAL x, d.wide .CTX_CARE x, BitVec.ofNat 32 (d.rd .CTX_ERESULT x)⟩

/-- A GO of the context's own agent for a partition that it may reach. An INSERT also waits for open handles (R274). -/
theorem Dev.update_runs {d : Dev} {ag : Agent} {x op p pos : Nat} (hmine : ctxMine ag x = true) (hidle : d.gk.updates = [])
    (hstill : d.gk.moves = []) (hreach : d.partCode x p = 0) (hhandle : op = 3 → d.handleOn p = false) :
    d.update ag x op p pos = d.runUpdate (d.goUpdate x op p pos) := by
  have hrun : d.canRun (d.goUpdate x op p pos) = true := by
    by_cases hop : op = 3
    · simp [Dev.canRun, Dev.goUpdate, hstill, hhandle hop]
    · simp [Dev.canRun, Dev.goUpdate, hstill, hop]
  rw [Dev.goUpdate] at hrun ⊢
  simp [Dev.update, hmine, hidle, hreach, hrun]

/-- The entry that context `x` gives, with its parity (R278). -/
def Dev.goEntry (d : Dev) (x : Nat) (valid : Bool) : GEntry :=
  let v := d.wide .CTX_VAL x
  let c := d.wide .CTX_CARE x
  let r := BitVec.ofNat 32 (d.rd .CTX_ERESULT x)
  ⟨v, c, r, valid, false, parityOf v c r, false⟩

theorem Dev.posFree_iff {d : Dev} {p pos : Nat} :
    d.posFree p pos = true ↔ (d.gent (d.pFirst p + pos)).valid = false ∧ d.posDisabled p pos = false := by
  simp [Dev.posFree, Dev.posDisabled]

section Updates
/-! An update of context `x` at a position of partition `p`. -/
variable {d : Dev} {x p pos : Nat} (hpos : pos < d.pCount p)

/-- The context's entry is written at a position that is not disabled. -/
theorem Dev.writePos_goEntry (henabled : d.posDisabled p pos = false) (valid : Bool) :
    d.writePos p pos (d.wide .CTX_VAL x) (d.wide .CTX_CARE x) (BitVec.ofNat 32 (d.rd .CTX_ERESULT x)) valid =
      d.setGent (d.pFirst p + pos) (d.goEntry x valid) := by
  rw [Dev.posDisabled] at henabled
  simp only [Dev.writePos, henabled, Dev.goEntry]

include hpos

theorem Dev.runUpdate_invalidate :
    d.runUpdate (d.goUpdate x 0 p pos) =
      let i := d.pFirst p + pos
      ((d.setGent i { d.gent i with valid := false }).updStatus x 0 pos false false false).gkSync x p := by
  simp [Dev.runUpdate, Dev.goUpdate, hpos]

theorem Dev.runUpdate_validate :
    d.runUpdate (d.goUpdate x 2 p pos) =
      let i := d.pFirst p + pos
      ((d.setGent i { d.gent i with valid := true }).updStatus x 0 pos false false false).gkSync x p := by
  simp [Dev.runUpdate, Dev.goUpdate, hpos]

theorem Dev.runUpdate_read :
    d.runUpdate (d.goUpdate x 4 p pos) =
      let e := d.gent (d.pFirst p + pos)
      (((d.setWide .CTX_VAL x e.v).setWide .CTX_CARE x e.c).wr .CTX_ERESULT e.res.toNat x).updStatus x 0 pos
        false e.valid e.disabled := by
  simp [Dev.runUpdate, Dev.goUpdate, hpos]

/-- REPLACE acts on valid and invalid entries alike (R268). -/
theorem Dev.runUpdate_replace (henabled : d.posDisabled p pos = false) :
    d.runUpdate (d.goUpdate x 5 p pos) =
      ((d.setGent (d.pFirst p + pos) (d.goEntry x true)).updStatus x 0 pos false false false).gkSync x p := by
  rw [← Dev.writePos_goEntry henabled]
  rw [Dev.posDisabled] at henabled
  simp [Dev.runUpdate, Dev.goUpdate, hpos, henabled]

section FreePosition
variable (hfree : d.posFree p pos = true)
include hfree

/-- WRITE acts on an invalid entry only (R268). -/
theorem Dev.runUpdate_write :
    d.runUpdate (d.goUpdate x 1 p pos) =
      ((d.setGent (d.pFirst p + pos) (d.goEntry x false)).updStatus x 0 pos false false false).gkSync x p := by
  obtain ⟨hinvalid, henabled⟩ := Dev.posFree_iff.mp hfree
  rw [← Dev.writePos_goEntry henabled]
  rw [Dev.posDisabled] at henabled
  simp [Dev.runUpdate, Dev.goUpdate, hpos, henabled, hinvalid]

/-- The nearest free position at or above a free one is itself (R271). -/
theorem Dev.freePos_self : d.freePos p pos = some pos := by
  obtain ⟨n, hn⟩ : ∃ n, d.pCount p - pos = n + 1 := ⟨d.pCount p - pos - 1, by omega⟩
  simp [Dev.freePos, hn, List.range_succ_eq_map, hfree]

/-- An INSERT at a free position moves no entry (R271). -/
theorem Dev.runUpdate_insert :
    d.runUpdate (d.goUpdate x 3 p pos) =
      (((d.setGent (d.pFirst p + pos) (d.goEntry x true)).updStatus x 0 pos false false false).wr .UPD_FREE pos x).gkSync x p := by
  have henabled := (Dev.posFree_iff.mp hfree).2
  have hchain : ((List.range (pos + 1 - pos)).map (fun k => pos + k)).filter (fun q => !d.posDisabled p q) = [pos] := by
    simp [henabled]
  rw [← Dev.writePos_goEntry henabled, Dev.runUpdate, if_pos (by rfl), Dev.runInsert]
  simp only [Dev.goUpdate, if_neg (Nat.not_lt.mpr hpos.le), henabled, Bool.false_eq_true, and_false, if_false, le_refl, if_true,
    Dev.freePos_self hpos hfree, hchain, List.reverse_singleton, Dev.moveChain]

end FreePosition

end Updates

/-! ## Steps on a handle and its expiry (R273, R274) -/

section Handles
variable {d : Dev} {x : Nat} {h : Handle}

theorem Dev.expireHandle_without (hfind : amFind x d.gk.handles = none) : d.expireHandle x = d := by
  simp only [Dev.expireHandle, hfind]

theorem Dev.expireHandle_early (hfind : amFind x d.gk.handles = some h) (hdue : d.handleDue h = false) :
    d.expireHandle x = d := by
  simp [Dev.expireHandle, hfind, hdue]

theorem Dev.expireHandle_due (hfind : amFind x d.gk.handles = some h) (hopen : h.expired = false)
    (hdue : d.handleDue h = true) (hidle : d.gk.updates = []) :
    d.expireHandle x =
      ({ d with gk.handles := amPut x { h with expired := true } d.gk.handles } : Dev).raise 0x7011 [(2, x), (1, h.part)] := by
  simp only [Dev.expireHandle, hfind, hopen, hdue, Bool.not_true, Bool.or_self, Bool.false_eq_true, if_false]
  exact Dev.gkResume_nothing (by rw [Dev.raise_gk]; exact hidle)

theorem Dev.searchEnd_open {ag : Agent} (hmine : ctxMine ag x = true) (hfind : amFind x d.gk.handles = some h)
    (hopen : h.expired = false) (hdue : d.handleDue h = false) (hidle : d.gk.updates = []) :
    d.searchEnd ag x =
      ({ d with gk.handles := amDel x d.gk.handles } : Dev).srchStatus x false false false 0 0 0 := by
  have hclose : d.closeHandle x = { d with gk.handles := amDel x d.gk.handles } := Dev.gkResume_nothing hidle
  simp [Dev.searchEnd, hmine, Dev.expireHandle_early hfind hdue, hfind, hopen, hclose]

theorem Dev.searchNext_without {ag : Agent} (hmine : ctxMine ag x = true) (hfind : amFind x d.gk.handles = none) :
    d.searchNext ag x = d.srchStatus x false false false 7 0 0 := by
  simp [Dev.searchNext, hmine, Dev.expireHandle_without hfind, hfind]

/-- Counting a search changes no other field. -/
theorem Dev.rd_countSearches (d : Dev) (n i : Nat) {f : Fld} (hlo : f ≠ .GKO_SEARCHES_LO) (hhi : f ≠ .GKO_SEARCHES_HI) :
    (d.cnt64 .GKO_SEARCHES_LO .GKO_SEARCHES_HI 0 n).rd f i = d.rd f i := by
  rw [Dev.cnt64, Dev.wr64, Dev.rd_wr_fld _ hhi, Dev.rd_wr_fld _ hlo]

/-- The matches rest on the entries, the moves and the partition's place. -/
theorem Dev.matches_congr {d e : Dev} {p : Nat} (hgk : e.gk = d.gk) (hfirst : e.pFirst p = d.pFirst p)
    (hcount : e.pCount p = d.pCount p) (k s : W128) : e.matches_ p k s = d.matches_ p k s := by
  simp only [Dev.matches_, Dev.inPart, hgk, hfirst, hcount]

/-- NEXT on a live handle with at least two more matches: the handle moves on to the lower one. -/
theorem Dev.searchNext_more {ag : Agent} {i j : Nat} {rest : List Nat} (hmine : ctxMine ag x = true)
    (hfind : amFind x d.gk.handles = some h) (hopen : h.expired = false) (hdue : d.handleDue h = false)
    (hpresent : d.pPresent h.part = true)
    (hmore : (d.matches_ h.part h.key h.mask).filter (fun i => decide (d.pFirst h.part + h.last < i)) = i :: j :: rest) :
    d.searchNext ag x =
      ({ d.cnt64 .GKO_SEARCHES_LO .GKO_SEARCHES_HI 0 1 with
          gk.handles := amPut x { h with last := i - d.pFirst h.part, at_ := d.now } d.gk.handles } : Dev).srchStatus
        x true true true 0 (i - d.pFirst h.part) (d.gent i).res.toNat := by
  have hfirst : (d.cnt64 .GKO_SEARCHES_LO .GKO_SEARCHES_HI 0 1).pFirst h.part = d.pFirst h.part :=
    d.rd_countSearches 1 h.part (by decide) (by decide)
  have hcount : (d.cnt64 .GKO_SEARCHES_LO .GKO_SEARCHES_HI 0 1).pCount h.part = d.pCount h.part :=
    d.rd_countSearches 1 h.part (by decide) (by decide)
  simp only [Dev.searchNext, hmine, Dev.expireHandle_early hfind hdue, hfind, hopen, hpresent, hfirst,
    Dev.matches_congr (Dev.cnt64_gk ..) hfirst hcount, hmore, Bool.not_true, Bool.false_eq_true, if_false, List.isEmpty_cons]
  rfl

end Handles

/-! ## Partition moves and parity (R275, R278) -/

/-- A partition move that ends gives the partition its new place after it has moved the entries and counted them. -/
theorem Dev.partMoveDone_ends {d : Dev} {p : Nat} {m : PartMove} (hmove : d.gk.moves.find? (fun m => m.part == p) = some m)
    (hidle : d.gk.updates = []) :
    ∃ e : Dev, e.gk.moves = d.gk.moves.filter (fun q => q.part != p) ∧ e.ram = d.ram ∧
      d.partMoveDone p = ((e.wr .GKO_PART_BASE_FIRST m.newFirst p).wr .GKO_PART_BASE_MOVING 0 p).raise 0x7060
        [(1, p), (2, m.oldFirst), (2, m.newFirst)] := by
  simp only [Dev.partMoveDone, hmove]
  refine ⟨_, ?moves, ?ram, Dev.gkResume_nothing ?idle⟩
  case moves => rfl
  case ram => rfl
  case idle => simpa only [Dev.raise_gk, Dev.wr_gk, Dev.cnt_gk] using hidle

theorem Dev.parityScan_transient {d : Dev} {i p : Nat} (hpart : d.partAt i = some p) :
    d.parityScan [(i, .transient)] = (d.cnt .GKO_CNT_TRANSIENT).raise 0x7040 [(1, p), (2, i - d.pFirst p)] := by
  simp only [Dev.parityScan, Dev.gkParity, hpart]

/-- Settles O28: each clause is its command where nothing refuses it or makes it wait. -/
theorem geckoUpdates : Obligations.GeckoUpdates := by
  refine ⟨fun s ag x p pos hmine hidle hstill hreach hpos => ?updates,
    fun s ag x h hmine hfind hopen hdue hidle => ?endStep, fun s ag x hmine hfind => ?nextWithout,
    fun s ag x h i j rest hmine hfind hopen hdue hpresent hmore => ?nextMore,
    fun s x h hfind hopen hdue hidle => ?expiry, fun s p m hmove hidle hrange => ?moved, fun s i p hpart => ?parity⟩
  case updates =>
    have go {op : Nat} (hop : op ≠ 3) := Dev.update_runs (pos := pos.toNat) hmine hidle hstill hreach (fun h => absurd h hop)
    refine ⟨?invalidate, ?validate, ?read, fun henabled => ?replace, fun henabled hinvalid => ?write,
      fun henabled hinvalid hhandle => ?insert⟩
    case invalidate => exact Does.of rfl ((go (by decide)).trans (Dev.runUpdate_invalidate hpos))
    case validate => exact Does.of rfl ((go (by decide)).trans (Dev.runUpdate_validate hpos))
    case read => exact Does.of rfl ((go (by decide)).trans (Dev.runUpdate_read hpos))
    case replace => exact Does.of rfl ((go (by decide)).trans (Dev.runUpdate_replace hpos henabled))
    case write =>
      exact Does.of rfl ((go (by decide)).trans (Dev.runUpdate_write hpos (Dev.posFree_iff.mpr ⟨hinvalid, henabled⟩)))
    case insert =>
      exact Does.of rfl ((Dev.update_runs hmine hidle hstill hreach (fun _ => hhandle)).trans
        (Dev.runUpdate_insert hpos (Dev.posFree_iff.mpr ⟨hinvalid, henabled⟩)))
  case endStep => exact Does.of rfl (Dev.searchEnd_open hmine hfind hopen hdue hidle)
  case nextWithout => exact Does.of rfl (Dev.searchNext_without hmine hfind)
  case nextMore => exact Does.of rfl (Dev.searchNext_more hmine hfind hopen hdue hpresent hmore)
  case expiry => exact Does.of rfl (Dev.expireHandle_due hfind hopen hdue hidle)
  case moved =>
    obtain ⟨e, hmoves, hram, hdone⟩ := Dev.partMoveDone_ends hmove hidle
    refine ⟨_, Does.of rfl hdone, ?first, ?moving, hmoves, Dev.logged_raise .., SameMem.of_ram hram⟩
    case first =>
      rw [Dev.pFirst, Dev.raise_rd, Dev.rd_wr_fld _ (by decide), Dev.rd_wr_same]
      exact Nat.mod_eq_of_lt hrange
    case moving => rw [Dev.raise_rd, Dev.rd_wr_same, Nat.zero_mod]
  case parity => exact Does.of rfl (Dev.parityScan_transient hpart)

end Sys2Proof.Machine

/-! SUPPORT. The words of Pypoiz syllables (R281, R292): encoding and decoding of every syllable, and the statement
SyllableRoundTrip. -/
namespace Sys2Proof.Machine

/-! ## Opcodes -/

theorem AluOp.code_bounds (op : AluOp) : 0x01 ≤ op.code ∧ op.code ≤ 0x10 := by cases op <;> decide
theorem AluIOp.code_bounds (op : AluIOp) : 0x20 ≤ op.code ∧ op.code ≤ 0x23 := by cases op <;> decide
theorem ShOp.code_bounds (op : ShOp) : 0x24 ≤ op.code ∧ op.code ≤ 0x26 := by cases op <;> decide
theorem ShOp.vcode_bounds (op : ShOp) : 0x0E ≤ op.vcode ∧ op.vcode ≤ 0x10 := by cases op <;> decide
theorem LdOp.code_bounds (op : LdOp) : 0x01 ≤ op.code ∧ op.code ≤ 0x07 := by cases op <;> decide
theorem StOp.code_bounds (op : StOp) : 0x08 ≤ op.code ∧ op.code ≤ 0x0B := by cases op <;> decide
theorem VvOp.code_bounds (op : VvOp) : 0x01 ≤ op.code ∧ op.code ≤ 0x13 := by cases op <;> decide
theorem VlOp.code_bounds (op : VlOp) : 0x0B ≤ op.code ∧ op.code ≤ 0x0D := by cases op <;> decide

/-- OP of a syllable, bits [28:23] (R292). -/
def Syl.op : Syl → Nat
  | .alu _ op .. => op.code
  | .cmp .. => 0x11
  | .sel .. => 0x12
  | .unary .. => 0x13
  | .plog .. => 0x14
  | .mfs .. => 0x15
  | .mts .. => 0x16
  | .mfp .. => 0x17
  | .mtp .. => 0x18
  | .alui _ op .. => op.code
  | .shi _ op .. => op.code
  | .cmpi .. => 0x27
  | .movi .. => 0x28
  | .movk _ h .. => 0x29 + h.toNat
  | .pcadd .. => 0x2D
  | .br .. => 0x30
  | .call .. => 0x31
  | .jr .. => 0x32
  | .jalr .. => 0x33
  | .ret => 0x34
  | .rep i _ => if i then 0x36 else 0x35
  | .repc i _ => if i then 0x38 else 0x37
  | .wfe .. => 0x39
  | .waitt .. => 0x3A
  | .sev .. => 0x3B
  | .trap .. => 0x3C
  | .endw => 0x3D
  | .fence .. => 0x3E
  | .eret => 0x3F
  | .ld op .. => op.code
  | .st op .. => op.code
  | .ldv .. => 0x0C
  | .stv .. => 0x0D
  | .lddx .. => 0x0E
  | .amoadd .. => 0x10
  | .amoswp .. => 0x11
  | .cas .. => 0x12
  | .xfer .. => 0x14
  | .inp .. => 0x18
  | .outp .. => 0x19
  | .ldc .. => 0x1C
  | .stc .. => 0x1D
  | .vv op .. => op.code
  | .vlog op .. => op.code
  | .vsh op .. => op.vcode
  | .vsel .. => 0x14
  | .vbcst .. => 0x15
  | .vget .. => 0x16
  | .vrsum .. => 0x17
  | .vunp .. => 0x18

theorem Syl.op_lt (y : Syl) : y.op < 64 := by
  cases y <;> simp only [Syl.op]
  case alu op _ _ _ => have := op.code_bounds; omega
  case alui op _ _ _ => have := op.code_bounds; omega
  case shi op _ _ _ => have := op.code_bounds; omega
  case ld op _ _ _ => have := op.code_bounds; omega
  case st op _ _ _ => have := op.code_bounds; omega
  case vv op _ _ _ _ => have := op.code_bounds; omega
  case vlog op _ _ _ => have := op.code_bounds; omega
  case vsh op _ _ _ _ => have := op.vcode_bounds; omega
  case rep i _ => cases i <;> decide
  case repc i _ => cases i <;> decide
  all_goals omega

theorem Syl.slot_lt (y : Syl) : y.slot < 4 := by
  cases y <;> simp only [Syl.slot] <;> grind

/-- The operands stand below OP, in bits [22:0]. -/
theorem Syl.body_bounds (y : Syl) : y.op * 8388608 ≤ y.body ∧ y.body < (y.op + 1) * 8388608 := by
  cases y <;> simp only [Syl.op, Syl.body, encRR, encRI, encLI, encCP, encBR, encVR, encVS, encVG, encVM] <;> omega

theorem Syl.body_lt (y : Syl) : y.body < 536870912 := by
  have := y.op_lt
  have := y.body_bounds
  omega

/-! ## Encoding -/

theorem Syl.toNat_encode (y : Syl) (stop : Bool) :
    (y.encode stop).toNat = (if stop then 2147483648 else 0) + y.slot * 536870912 + y.body := by
  have := y.slot_lt
  have := y.body_lt
  rw [Syl.encode, BitVec.toNat_ofNat]
  cases stop <;> simp only [if_true, Bool.false_eq_true, if_false] <;> omega

theorem slotOf_encode (y : Syl) (stop : Bool) : slotOf (y.encode stop) = y.slot := by
  have := y.slot_lt
  have := y.body_lt
  rw [slotOf, y.toNat_encode]
  cases stop <;> simp only [if_true, Bool.false_eq_true, if_false] <;> omega

theorem stopOf_encode (y : Syl) (stop : Bool) : stopOf (y.encode stop) = stop := by
  have := y.slot_lt
  have := y.body_lt
  rw [stopOf, y.toNat_encode]
  cases stop <;> simp <;> omega

/-- Setting the stop bit of a word without it. -/
theorem lastWord_encode (y : Syl) : lastWord (y.encode false) = y.encode true := by
  have hlow : (y.encode false).toNat < 2 ^ 31 := by
    have := y.slot_lt
    have := y.body_lt
    rw [y.toNat_encode]
    simp only [Bool.false_eq_true, if_false]
    omega
  apply BitVec.eq_of_toNat_eq
  calc (y.encode false ||| 0x80000000#32).toNat = 2 ^ 31 * 1 ||| (y.encode false).toNat := by
        rw [BitVec.toNat_or, Nat.or_comm]; rfl
    _ = 2 ^ 31 * 1 + (y.encode false).toNat := (Nat.two_pow_add_eq_or_of_lt hlow 1).symm
    _ = (y.encode true).toNat := by
        simp only [y.toNat_encode, if_true, Bool.false_eq_true, if_false]
        omega

/-! ## Decoding -/

/-- A field reads a value where the word's bits there are that value. -/
theorem fieldN_eq_iff {n p w : Nat} {f : BitVec n} : fieldN n p w = f ↔ w / p % 2 ^ n = f.toNat := by
  rw [fieldN, ← BitVec.toNat_inj, BitVec.toNat_ofNat]

theorem decodeInt_alu (b : Bool) (op : AluOp) (w : Nat) : decodeInt b op.code w =
    if fieldN 5 1 w = 0 then some (.alu b op (fieldN 6 131072 w) (fieldN 6 2048 w) (fieldN 6 32 w)) else none := by
  cases op <;> rfl

theorem decodeInt_alui (b : Bool) (op : AluIOp) (w : Nat) :
    decodeInt b op.code w = some (.alui b op (fieldN 6 131072 w) (fieldN 6 2048 w) (fieldN 11 1 w)) := by
  cases op <;> rfl

theorem decodeInt_shi (b : Bool) (op : ShOp) (w : Nat) : decodeInt b op.code w =
    if fieldN 5 64 w = 0 then some (.shi b op (fieldN 6 131072 w) (fieldN 6 2048 w) (fieldN 6 1 w)) else none := by
  cases op <;> rfl

theorem decodeInt_movk (b : Bool) (h : BitVec 2) (w : Nat) : decodeInt b (0x29 + h.toNat) w =
    if fieldN 1 65536 w = 0 then some (.movk b h (fieldN 6 131072 w) (fieldN 16 1 w)) else none := by
  revert h; exact fun | 0 | 1 | 2 | 3 => rfl

theorem decodeMem_ld (op : LdOp) (w : Nat) :
    decodeMem op.code w = some (.ld op (fieldN 6 131072 w) (fieldN 6 2048 w) (fieldN 11 1 w)) := by
  cases op <;> rfl

theorem decodeMem_st (op : StOp) (w : Nat) :
    decodeMem op.code w = some (.st op (fieldN 6 131072 w) (fieldN 6 2048 w) (fieldN 11 1 w)) := by
  cases op <;> rfl

theorem decodeVec_vv (op : VvOp) (w : Nat) : decodeVec op.code w =
    if fieldN 6 1 w = 0 then some (.vv op (fieldN 5 262144 w) (fieldN 5 8192 w) (fieldN 5 256 w) (fieldN 2 64 w)) else none := by
  cases op <;> rfl

theorem decodeVec_vlog (op : VlOp) (w : Nat) : decodeVec op.code w =
    if fieldN 6 1 w = 0 ∧ fieldN 2 64 w = 0 then some (.vlog op (fieldN 5 262144 w) (fieldN 5 8192 w) (fieldN 5 256 w))
    else none := by
  cases op <;> rfl

theorem decodeVec_vsh (op : ShOp) (w : Nat) : decodeVec op.vcode w =
    if fieldN 5 256 w = 0 then some (.vsh op (fieldN 5 262144 w) (fieldN 5 8192 w) (fieldN 2 64 w) (fieldN 6 1 w)) else none := by
  cases op <;> rfl

/-- The decoder of a slot. -/
def decodeIn (slot op w : Nat) : Option Syl :=
  match slot with
  | 0 => decodeInt false op w
  | 1 => if op < 0x30 then decodeInt true op w else decodeCtl op w
  | 2 => decodeMem op w
  | _ => decodeVec op w

theorem decodeSyl_eq (word : W32) :
    decodeSyl word = decodeIn (slotOf word) (word.toNat / 8388608 % 64) word.toNat := rfl

/-- Slots A and B decode the integer operations alike. -/
theorem decodeIn_int (b : Bool) {op : Nat} (w : Nat) (hlow : op < 0x30) :
    decodeIn (if b then 1 else 0) op w = decodeInt b op w := by
  cases b
  · rfl
  · exact if_pos hlow

theorem decodeIn_ctl {op : Nat} (w : Nat) (hhigh : 0x30 ≤ op) : decodeIn 1 op w = decodeCtl op w :=
  if_neg (Nat.not_lt.mpr hhigh)

theorem decodeIn_mem (op w : Nat) : decodeIn 2 op w = decodeMem op w := rfl

theorem decodeIn_vec (op w : Nat) : decodeIn 3 op w = decodeVec op w := rfl

/-- A word decodes by its slot and its bits [28:0]: OP selects the case of the slot's decoder, and each field of it is the
digit of the body that the format puts there. The stop bit takes no part. -/
theorem decodeSyl_of_fields {word : W32} {y : Syl} (hslot : slotOf word = y.slot) (hbody : word.toNat % 536870912 = y.body) :
    decodeSyl word = some y := by
  have hop : word.toNat / 8388608 % 64 = y.op := by
    have := y.op_lt
    have := y.body_bounds
    omega
  rw [decodeSyl_eq, hslot, hop]
  generalize word.toNat = w at hbody
  cases y <;> simp only [Syl.body, encRR, encRI, encLI, encCP, encBR, encVR, encVS, encVG, encVM] at hbody <;>
    simp only [Syl.slot, Syl.op]
  case alu op _ _ _ =>
    rw [decodeIn_int _ _ (op.code_bounds.2.trans_lt (by decide)), decodeInt_alu]
    simp [fieldN_eq_iff]
    omega
  case alui op _ _ _ =>
    rw [decodeIn_int _ _ (op.code_bounds.2.trans_lt (by decide)), decodeInt_alui]
    simp [fieldN_eq_iff]
    omega
  case shi op _ _ _ =>
    rw [decodeIn_int _ _ (op.code_bounds.2.trans_lt (by decide)), decodeInt_shi]
    simp [fieldN_eq_iff]
    omega
  case ld op _ _ _ =>
    rw [decodeIn_mem, decodeMem_ld]
    simp [fieldN_eq_iff]
    omega
  case st op _ _ _ =>
    rw [decodeIn_mem, decodeMem_st]
    simp [fieldN_eq_iff]
    omega
  case vv op _ _ _ _ =>
    rw [decodeIn_vec, decodeVec_vv]
    simp [fieldN_eq_iff]
    omega
  case vlog op _ _ _ =>
    rw [decodeIn_vec, decodeVec_vlog]
    simp [fieldN_eq_iff]
    omega
  case vsh op _ _ _ _ =>
    rw [decodeIn_vec, decodeVec_vsh]
    simp [fieldN_eq_iff]
    omega
  case movk h _ _ =>
    rw [decodeIn_int _ _ (by omega), decodeInt_movk]
    simp [fieldN_eq_iff]
    omega
  case rep i _ => cases i <;> simp [decodeIn_ctl, decodeCtl, fieldN_eq_iff] <;> omega
  case repc i _ => cases i <;> simp [decodeIn_ctl, decodeCtl, fieldN_eq_iff] <;> omega
  all_goals
    simp [decodeIn_int, decodeIn_ctl, decodeIn_mem, decodeIn_vec, decodeInt, decodeCtl, decodeMem, decodeVec, fieldN_eq_iff]
    omega

/-- Settles O5: a word decodes by its fields, and those of an encoded syllable are the syllable's own. -/
theorem syllableRoundTrip : Obligations.SyllableRoundTrip := by
  intro y stop
  have hbody : (y.encode stop).toNat % 536870912 = y.body := by
    have := y.body_lt
    rw [y.toNat_encode]
    cases stop <;> simp only [if_true, Bool.false_eq_true, if_false] <;> omega
  exact ⟨decodeSyl_of_fields (slotOf_encode y stop) hbody, slotOf_encode y stop, stopOf_encode y stop, lastWord_encode y⟩

end Sys2Proof.Machine

/-! SUPPORT. How a bundle executes (R282, R283, R305): the stages of a bundle of one syllable and of several, what a register
syllable writes and leaves, and where a core may fetch and load once its registers have changed. -/
namespace Sys2Proof.Machine

/-! ## One syllable alone in its bundle -/

theorem decodeSyl_lastWord (y : Syl) : decodeSyl (lastWord (y.encode false)) = some y := by
  rw [lastWord_encode]
  exact (syllableRoundTrip y true).1

section Alone
variable {d : Dev} {u : Bundle} {y : Syl} (h : d.about u y)
include h

/-- A syllable that leaves it to its bundle how the core goes on: at its branch, or at the next bundle. -/
theorem Dev.execBundle_goesOn {e : Dev} {v : Nat} (hm : d.memStage u.core y = .ok e v) (hends : y.ends = false)
    (upTo : Option Nat) :
    d.execBundle u (y.encode false) upTo =
      (((e.setCore u.core ((d.core u.core).apply (e.core u.core) (d.core u.core).pc.toNat ((d.core u.core).pc.toNat + 4) e.now
        (if y.slot = 2 then v else 0) y)).storeStage u.core (d.core u.core) (if y.slot = 2 then v else 0) y).eventStage u.core
        (d.core u.core) y).goTo u.core
          (((d.core u.core).branch (d.core u.core).pc.toNat y).getD ((d.core u.core).pc.toNat + 4)) := by
  rw [Dev.execBundle_alone d e u y v upTo h (decodeSyl_lastWord y) hm, hends]
  rfl

/-- A syllable of slot M stores after its registers are written, and the core goes on at the next bundle. -/
theorem Dev.execBundle_memory {e : Dev} {v : Nat} (hm : d.memStage u.core y = .ok e v) (hslot : y.slot = 2) (upTo : Option Nat) :
    d.execBundle u (y.encode false) upTo =
      ((e.setCore u.core ((d.core u.core).apply (e.core u.core) (d.core u.core).pc.toNat ((d.core u.core).pc.toNat + 4) e.now
        v y)).storeStage u.core (d.core u.core) v y).goTo u.core ((d.core u.core).pc.toNat + 4) := by
  have hends : y.ends = false := by cases y <;> simp [Syl.slot] at hslot <;> rfl
  have hbranch (x : PCore) (b : Nat) : x.branch b y = none := by cases y <;> simp [Syl.slot] at hslot <;> rfl
  have hevent (f : Dev) (x : PCore) : f.eventStage u.core x y = f := by cases y <;> simp [Syl.slot] at hslot <;> rfl
  rw [Dev.execBundle_goesOn h hm hends, hbranch, hevent, if_pos hslot]
  rfl

end Alone

/-! ### Exceptions at the bundle -/

/-- The word of a syllable that is no legal one, alone in its bundle, is Illegal Instruction there (R283). -/
theorem Dev.runBundle_illegal {d : Dev} {c : Nat} {w : W32} (hbad : ∀ y, decodeSyl w = some y → (d.core c).sylLegal true y = false)
    (b next : Nat) : d.runBundle c b next [w] = .exc d 0x01 b b := by
  simp only [Dev.runBundle, PCore.illegalAt_bad _ _ hbad]
  rfl

section Faults
variable {d : Dev} {c : Nat} {w : W32} {y : Syl} (hw : decodeSyl w = some y) (hlegal : (d.core c).sylLegal true y = true)
include hw hlegal

/-- A syllable that the core's mode does not allow (R305). -/
theorem Dev.runBundle_privilege (hpriv : d.privFault c y = true) (b next : Nat) :
    d.runBundle c b next [w] = .exc d 0x02 b b := by
  simp [Dev.runBundle, PCore.illegalAt_alone _ _ _ hw hlegal, hw, hpriv, List.range_succ]

/-- A syllable whose memory access faults. -/
theorem Dev.runBundle_memory (hpriv : d.privFault c y = false) {k a : Nat} (hm : d.memStage c y = .exc k a) (b next : Nat) :
    d.runBundle c b next [w] = .exc d k b a := by
  simp [Dev.runBundle, PCore.illegalAt_alone _ _ _ hw hlegal, hw, hpriv, List.range_succ, Dev.memAll, hm]

end Faults

/-- A bundle of one syllable that is at fault takes its exception and does nothing else. -/
theorem Dev.execBundle_raises {d : Dev} {u : Bundle} {w : W32} {k a : Nat} (hbefore : u.before = []) (hafter : u.after = [])
    (herr : u.err = .none) (hruns : (d.core u.core).runs = true) (hfetch : d.fetchOk u.core (d.core u.core).pc.toNat = true)
    (hrun : ∀ next, d.runBundle u.core (d.core u.core).pc.toNat next [lastWord w] = .exc d k (d.core u.core).pc.toNat a)
    (upTo : Option Nat) :
    d.execBundle u w upTo = d.takeException u.core k (d.core u.core).pc.toNat a (some 1) := by
  simp only [Dev.execBundle, hruns, hfetch, bundleWords_alone _ _ hbefore hafter, herr, hrun, Bool.not_true, Bool.false_eq_true,
    if_false]

/-- A syllable that is about to execute and whose memory access faults. -/
theorem Dev.execBundle_faults {d : Dev} {u : Bundle} {y : Syl} (h : d.about u y) {k a : Nat}
    (hm : d.memStage u.core y = .exc k a) (upTo : Option Nat) :
    d.execBundle u (y.encode false) upTo = d.takeException u.core k (d.core u.core).pc.toNat a (some 1) := by
  obtain ⟨hbefore, hafter, herr, hruns, hfetch, hlegal, hpriv⟩ := h
  exact Dev.execBundle_raises hbefore hafter herr hruns hfetch
    (Dev.runBundle_memory (decodeSyl_lastWord y) hlegal hpriv hm _) upTo

/-! ### Misaligned accesses (R289) -/

theorem Dev.loadAt_misaligned (d : Dev) (c : Nat) {a s : Nat} (h : a % s ≠ 0) : d.loadAt c a s = .exc 0x05 a := if_pos h
theorem Dev.storeCheck_misaligned (d : Dev) (c : Nat) {a s : Nat} (h : a % s ≠ 0) : d.storeCheck c a s = .exc 0x05 a := if_pos h
theorem Dev.atomicAt_misaligned (d : Dev) (c : Nat) {a : Nat} (h : a % 8 ≠ 0) : d.atomicAt c a = .exc 0x05 a := if_pos h

/-- A syllable that is about to execute and whose access is misaligned raises Alignment with the address. -/
theorem Does.misaligned {c : Instr} {s : State} {u : Bundle} {y : Syl} {a : Nat}
    (hexec : exec c s = .next (onDev s (fun d => d.execBundle u (y.encode false) none)))
    (hm : s.dev.memStage u.core y = .exc 0x05 a) (h : s.dev.about u y) :
    Does c s (s.dev.takeException u.core 0x05 (s.dev.core u.core).pc.toNat a (some 1)) :=
  Does.of hexec (Dev.execBundle_faults h hm none)

/-- Settles O39: every access checks its alignment first. -/
theorem misalignedAccess : Obligations.MisalignedAccess := by
  intro s u rd ra rb v imm
  refine ⟨fun h hodd => ?ldh, fun h hodd => ?ldhs, fun h hodd => ?ldw, fun h hodd => ?ldws, fun h hodd => ?ldd,
    fun h hodd => ?sth, fun h hodd => ?stw, fun h hodd => ?std, fun h hodd => ?ldv, fun h hodd => ?stv, fun h hodd => ?lddx,
    fun h hodd => ?amoadd, fun h hodd => ?amoswp, fun h hodd => ?cas⟩
  case ldh | ldhs | ldw | ldws | ldd | ldv | lddx => exact Does.misaligned rfl (Dev.loadAt_misaligned _ _ hodd) h
  case sth | stw | std | stv => exact Does.misaligned rfl (Dev.storeCheck_misaligned _ _ hodd) h
  case amoadd | amoswp | cas => exact Does.misaligned rfl (Dev.atomicAt_misaligned _ _ hodd) h

end Sys2Proof.Machine

/-! SUPPORT. What interrupts a core (R283, R294, R305 to R307, R310, R311), and the statement CoreHappenings. -/
namespace Sys2Proof.Machine

theorem Dev.writeLive_cor (bs : List Byte) : ∀ (d : Dev) (a : Nat), (d.writeLive a bs).cor = d.cor := by
  induction bs with
  | nil => exact fun _ _ => rfl
  | cons b bs ih =>
    intro d a
    rw [Dev.writeLive, ih]
    split <;> rfl

theorem Dev.healLines_cor (d : Dev) (a n : Nat) : (d.healLines a n).cor = d.cor := by
  unfold Dev.healLines
  dsimp only
  split <;> rfl

/-- A store to device memory changes no core. -/
@[simp] theorem Dev.store_core (d : Dev) (a : Nat) (bs : List Byte) (c : Nat) : (d.store a bs).core c = d.core c := by
  rw [Dev.core, Dev.core, Dev.store, Dev.healLines_cor]
  split
  · rfl
  · rw [Dev.writeLive_cor]

/-- A write of data leaves every register of every core as it was; only a local data memory takes it. -/
theorem Dev.core_writePlace (d : Dev) (c : Nat) (bs : List Byte) (p : Place) (k : Nat) :
    (d.writePlace c bs p).core k = { d.core k with dmem := ((d.writePlace c bs p).core k).dmem } := by
  cases p with
  | loc a =>
    rw [Dev.writePlace, Dev.core_setCore]
    split
    case isTrue h => rw [h]
    case isFalse => rfl
  | clutch a => rfl
  | win a =>
    have hcore : (d.writePlace c bs (.win a)).core k = d.core k := by
      simp only [Dev.writePlace, Dev.refuseMem]
      split
      · rw [Dev.cnt_core]
      · split
        · rw [Dev.raiseSec_core, Dev.cnt_core]
        · rw [Dev.store_core]
    rw [hcore]

/-- A transfer that meets no fault copies its bytes and sets its flag (R294). -/
theorem Dev.xferDone_copies {d : Dev} {c k : Nat} {t : Xfer} {p q : Place} {bs : List Byte}
    (hfind : (d.core c).xfers.find? (fun t => t.idx == k) = some t) (hending : (d.core c).ending = none)
    (hsrc : d.place c t.src t.len false = some p) (hread : d.readPlace c t.len p = (d, some bs))
    (hdst : d.place c t.dst t.len true = some q) :
    let y := (d.writePlace c bs q).core c
    d.xferDone c k false = (d.writePlace c bs q).setCore c
      { y with xfers := y.xfers.filter (fun t => t.idx != k), ev := y.ev ||| 1#32 <<< (16 + k % 8) } := by
  have hstill : ((d.writePlace c bs q).core c).ending = none := by rw [Dev.core_writePlace]; exact hending
  simp [Dev.xferDone, hfind, hsrc, hread, hdst, hstill]

/-- A spent budget interrupts user mode while st.IE is 1 (R306, R307). -/
theorem Dev.budgetExpiry_interrupts {d : Dev} {c : Nat} {w : WorkItem} (hwork : (d.core c).wi = some w)
    (huser : (d.core c).sup = false) (hending : (d.core c).ending = none) (hbudget : d.rd .CORE_BUDGET c ≠ 0)
    (hie : (d.core c).ie = true) :
    d.budgetExpiry c = (d.wr .CORE_BUDGET 0 c).takeException c 0x10 (d.core c).pc.toNat 0 (some 1) := by
  simp [Dev.budgetExpiry, hwork, huser, hending, hbudget, hie, Dev.interrupt]

section Halt
variable {d : Dev} {c : Nat} {w : WorkItem} (hwork : (d.core c).wi = some w)
include hwork

theorem Dev.halt_instanceReset : d.halt c .instanceReset = d.takeException c 0x11 (d.core c).pc.toNat 0 none := by
  simp [Dev.halt, hwork, Dev.interrupt]

theorem Dev.halt_retirement :
    d.halt c .retirement = (d.takeException c 0x11 (d.core c).pc.toNat 0 (some 3)).retireCore c := by
  simp [Dev.halt, hwork, Dev.interrupt]

theorem Dev.halt_engineReset : d.halt c .engineReset =
    ((d.takeException c 0x11 (d.core c).pc.toNat 0 (some 3)).endWork c 3 0x11 (d.core c).pc.toNat []).coreReset c := by
  simp [Dev.halt, hwork, Dev.interrupt]

end Halt

/-! ## Bundles that may not execute -/

section Fetched
variable {s : State} {u : Bundle} {c : Instr} {y : Syl} (hbefore : u.before = []) (hafter : u.after = []) (herr : u.err = .none)
  (hruns : (s.dev.core u.core).runs = true) (hfetch : s.dev.fetchOk u.core (s.dev.core u.core).pc.toNat = true)
  (hexec : exec c s = .next (onDev s (fun d => d.execBundle u (y.encode false) none)))
include hbefore hafter herr hruns hfetch hexec

/-- A syllable that is not legal here raises Illegal Instruction at its bundle (R283). -/
theorem Does.illegal (hbad : (s.dev.core u.core).sylLegal true y = false) :
    Does c s (s.dev.takeException u.core 0x01 (s.dev.core u.core).pc.toNat (s.dev.core u.core).pc.toNat (some 1)) := by
  refine Does.of hexec (Dev.execBundle_raises hbefore hafter herr hruns hfetch (Dev.runBundle_illegal ?_ _) none)
  intro z hz
  rw [decodeSyl_lastWord] at hz
  obtain rfl := Option.some.inj hz
  exact hbad

/-- A legal syllable that user mode is not allowed raises Privilege at its bundle (R305). -/
theorem Does.privilege (hlegal : (s.dev.core u.core).sylLegal true y = true) (hpriv : s.dev.privFault u.core y = true) :
    Does c s (s.dev.takeException u.core 0x02 (s.dev.core u.core).pc.toNat (s.dev.core u.core).pc.toNat (some 1)) :=
  Does.of hexec (Dev.execBundle_raises hbefore hafter herr hruns hfetch
    (Dev.runBundle_privilege (decodeSyl_lastWord y) hlegal hpriv _) none)

end Fetched

/-- A word that decodes to nothing, with its stop bit or without it, raises Illegal Instruction at its bundle (R283). -/
theorem Does.undefinedOpcode {s : State} {u : Bundle} {w : W32} (hbefore : u.before = []) (hafter : u.after = [])
    (herr : u.err = .none) (hruns : (s.dev.core u.core).runs = true)
    (hfetch : s.dev.fetchOk u.core (s.dev.core u.core).pc.toNat = true) (hnone : decodeSyl w = none)
    (hlast : decodeSyl (lastWord w) = none) :
    Does (.undefinedOpcode u w) s
      (s.dev.takeException u.core 0x01 (s.dev.core u.core).pc.toNat (s.dev.core u.core).pc.toNat (some 1)) := by
  refine Does.of (f := if (decodeSyl w).isSome then s.dev else s.dev.execBundle u w none) rfl ?_
  rw [hnone]
  exact Dev.execBundle_raises hbefore hafter herr hruns hfetch
    (Dev.runBundle_illegal (fun y hy => absurd (hlast.symm.trans hy) (by simp)) _) none

/-- Settles O38: each clause is its happening, or its bundle, in the case that the statement names. -/
theorem coreHappenings : Obligations.CoreHappenings := by
  refine ⟨⟨fun s c k t p q bs hfind hending hsrc hread hdst => ?transfer,
    fun s c w hwork huser hending hbudget hie => ?budget, fun s c w hwork => ⟨?instanceReset, ?retirement, ?engineReset⟩⟩,
    fun s u w hbefore hafter herr hruns hfetch hnone hlast =>
      Does.undefinedOpcode hbefore hafter herr hruns hfetch hnone hlast,
    fun s u count b sel ra hbefore hafter herr hruns hfetch => ?illegal⟩
  case transfer =>
    have hk : k.val % 8 = k.val := Nat.mod_eq_of_lt k.isLt
    exact Does.of rfl ((Dev.xferDone_copies hfind hending hsrc hread hdst).trans (by rw [hk]))
  case budget => exact Does.of rfl (Dev.budgetExpiry_interrupts hwork huser hending hbudget hie)
  case instanceReset => exact Does.of rfl (Dev.halt_instanceReset hwork)
  case retirement => exact Does.of rfl (Dev.halt_retirement hwork)
  case engineReset => exact Does.of rfl (Dev.halt_engineReset hwork)
  case illegal =>
    have illegal {c : Instr} {y : Syl} := Does.illegal (c := c) (y := y) hbefore hafter herr hruns hfetch
    have privilege {c : Instr} {y : Syl} := Does.privilege (c := c) (y := y) hbefore hafter herr hruns hfetch
    refine ⟨fun hcount => illegal (y := .ofRep false count) rfl ?rep, fun hsel => illegal (y := .mts b sel ra) rfl ?mts,
      fun hexc => illegal (y := .endw) rfl ?endw, fun huser => ⟨privilege (y := .mts b 5 ra) rfl rfl ?writeSt,
        privilege (y := .eret) rfl rfl ?eret⟩⟩
    case rep =>
      cases count with
      | reg ra => simpa [Syl.ofRep, sylLegal_rep] using hcount
      | const n => simpa [Syl.ofRep, sylLegal_repc] using hcount
    case mts =>
      rw [sylLegal_mts]
      obtain hsel | rfl := hsel
      · simp [Nat.not_lt.mpr hsel]
      · rfl
    case endw => simp [sylLegal_endw, hexc]
    case writeSt => simp [Dev.privFault, huser]
    case eret => simp [Dev.privFault, huser]

end Sys2Proof.Machine

/-! SUPPORT. Register syllables (R280, R282, R292, R295): their stages, what the integer, predicate, special-register and vector
syllables compute, and the statements PypoizInteger and PypoizVector. -/
namespace Sys2Proof.Machine

/-! ## Register syllables touch registers only -/

section Plain
variable {y : Syl} (hy : y.plain = true)
include hy

theorem Syl.memStage_of_plain (d : Dev) (c : Nat) : d.memStage c y = .ok d 0 := by cases y <;> cases hy <;> rfl

theorem Syl.storeStage_of_plain (d : Dev) (c val : Nat) (x : PCore) : d.storeStage c x val y = d := by
  cases y <;> cases hy <;> rfl

theorem Syl.eventStage_of_plain (d : Dev) (c : Nat) (x : PCore) : d.eventStage c x y = d := by cases y <;> cases hy <;> rfl

theorem Syl.ends_of_plain : y.ends = false := by cases y <;> cases hy <;> rfl

theorem Syl.branch_of_plain (x : PCore) (b : Nat) : x.branch b y = none := by cases y <;> cases hy <;> rfl

/-- Any mode may execute it (R305). -/
theorem Syl.privFault_of_plain (d : Dev) (c : Nat) : d.privFault c y = false := by
  cases y <;> cases hy <;> exact Bool.and_false _

/-- A bundle may repeat it (R296). -/
theorem Syl.repeatable_of_plain : y.repeatable = true := by cases y <;> cases hy <;> rfl

/-- No register decides whether it is legal. -/
theorem Syl.sylLegal_of_plain (x z : PCore) (alone : Bool) : x.sylLegal alone y = z.sylLegal alone y := by
  cases y <;> cases hy <;> rfl

end Plain

/-- The command of a register syllable computes what the syllable's register effect is. -/
theorem Computes.plain {c : Instr} {u : Bundle} {y : Syl} {f : PCore → PCore} (hy : y.plain = true := by rfl)
    (hexec : ∀ s, exec c s = .next (onDev s (fun d => d.execBundle u (y.encode false) none)) := by exact fun _ => rfl)
    (hf : ∀ (x : PCore) (now : Nat), x.sylLegal true y = true →
      x.apply x x.pc.toNat (x.pc.toNat + 4) now 0 y = f x := by exact fun _ _ _ => rfl) : Computes c u y f :=
  Computes.of c u y f (decodeSyl_lastWord y) hexec (fun d => Syl.memStage_of_plain hy d _)
    (fun d x => Syl.storeStage_of_plain hy d _ _ x) (fun d x => Syl.eventStage_of_plain hy d _ x) (Syl.ends_of_plain hy)
    (fun x b => Syl.branch_of_plain hy x b) hf

/-! ## Integer syllables -/

theorem AluOp.run_min (a b : W64) : AluOp.run .min a b = if a.toInt < b.toInt then a else b := by
  simp only [AluOp.run, BitVec.slt, decide_eq_true_eq]
theorem AluOp.run_max (a b : W64) : AluOp.run .max a b = if a.toInt < b.toInt then b else a := by
  simp only [AluOp.run, BitVec.slt, decide_eq_true_eq]
theorem AluOp.run_minu (a b : W64) : AluOp.run .minu a b = if a.toNat < b.toNat then a else b := by
  simp only [AluOp.run, BitVec.ult, decide_eq_true_eq]
theorem AluOp.run_maxu (a b : W64) : AluOp.run .maxu a b = if a.toNat < b.toNat then b else a := by
  simp only [AluOp.run, BitVec.ult, decide_eq_true_eq]

/-- A comparison as the legal values of COND name it (R281). -/
def condTable (cond : BitVec 3) (v w : W64) : Bool :=
  match cond.toNat with
  | 0 => decide (v = w)
  | 1 => decide (v ≠ w)
  | 2 => decide (v.toInt < w.toInt)
  | 3 => decide (w.toInt ≤ v.toInt)
  | 4 => decide (v.toNat < w.toNat)
  | _ => decide (w.toNat ≤ v.toNat)

theorem condHolds_legal {cond : BitVec 3} (hlegal : cond.toNat < 6) (v w : W64) :
    (condHolds cond v w).getD false = condTable cond v w := by
  unfold condHolds condTable
  generalize cond.toNat = k at hlegal
  match k, hlegal with
  | 0, _ => rfl
  | 1, _ => simp [bne]; rfl
  | 2, _ => rfl
  | 3, _ => simp only [BitVec.slt, Option.getD_some, ← decide_not, Int.not_lt]
  | 4, _ => rfl
  | 5, _ => simp only [BitVec.ult, Option.getD_some, ← decide_not, Nat.not_lt]

/-! MOVK replaces one quarter of a register. -/

section Movk
variable (v : W64) (half : BitVec 16)

/-- A bit of a register after 16 bits at `n` are replaced. -/
theorem getLsbD_movk (n : Nat) {i : Nat} (hi : i < 64) :
    ((v &&& ~~~(0xFFFF#64 <<< n)) ||| (half.setWidth 64 <<< n)).getLsbD i =
      if n ≤ i ∧ i < n + 16 then half.getLsbD (i - n) else v.getLsbD i := by
  have hmask : 0xFFFF#64 = (BitVec.allOnes 16).setWidth 64 := by decide
  rw [hmask]
  simp only [BitVec.getLsbD_or, BitVec.getLsbD_and, BitVec.getLsbD_not, BitVec.getLsbD_shiftLeft, BitVec.getLsbD_setWidth,
    BitVec.getLsbD_allOnes]
  grind

theorem movk_eq {n : Nat} {w : W64}
    (h : ∀ i < 64, w.getLsbD i = if n ≤ i ∧ i < n + 16 then half.getLsbD (i - n) else v.getLsbD i) :
    (v &&& ~~~(0xFFFF#64 <<< n)) ||| (half.setWidth 64 <<< n) = w :=
  BitVec.eq_of_getLsbD_eq fun i hi => (getLsbD_movk v half n hi).trans (h i hi).symm

theorem movk_quarter0 : (v &&& ~~~(0xFFFF#64 <<< 0)) ||| (half.setWidth 64 <<< 0) = v.extractLsb' 16 48 ++ half :=
  movk_eq v half fun i hi => by simp only [BitVec.getLsbD_append, BitVec.getLsbD_extractLsb']; grind

theorem movk_quarter1 : (v &&& ~~~(0xFFFF#64 <<< 16)) ||| (half.setWidth 64 <<< 16) =
    v.extractLsb' 32 32 ++ half ++ v.extractLsb' 0 16 :=
  movk_eq v half fun i hi => by simp only [BitVec.getLsbD_append, BitVec.getLsbD_extractLsb']; grind

theorem movk_quarter2 : (v &&& ~~~(0xFFFF#64 <<< 32)) ||| (half.setWidth 64 <<< 32) =
    v.extractLsb' 48 16 ++ half ++ v.extractLsb' 0 32 :=
  movk_eq v half fun i hi => by simp only [BitVec.getLsbD_append, BitVec.getLsbD_extractLsb']; grind

theorem movk_quarter3 : (v &&& ~~~(0xFFFF#64 <<< 48)) ||| (half.setWidth 64 <<< 48) = half ++ v.extractLsb' 0 48 :=
  movk_eq v half fun i hi => by simp only [BitVec.getLsbD_append, BitVec.getLsbD_extractLsb']; grind

end Movk

/-- MTS writes the special register that it selects. -/
theorem Computes.mts {u : Bundle} {b : Bool} {sel ra : BitVec 6} :
    Computes (.mts u b sel ra) u (.mts b sel ra) (fun x => x.setSpecial sel.toNat (x.gr ra)) :=
  Computes.of _ u _ _ (decodeSyl_lastWord _) (fun _ => rfl) (fun _ => rfl) (fun _ _ => rfl) (fun _ _ => rfl) rfl
    (fun _ _ => rfl) (fun _ _ _ => rfl)

/-- MFS of selector 4 reads the device time. -/
theorem Does.mfsTime {s : State} {u : Bundle} {b : Bool} {rd : BitVec 6} (h : s.dev.about u (.mfs b rd 4)) :
    Does (.mfs u b rd 4) s ((s.dev.setCore u.core ((s.dev.core u.core).setG rd (BitVec.ofNat 64 s.dev.now))).goTo u.core
      ((s.dev.core u.core).pc.toNat + 4)) :=
  Does.of rfl ((Dev.execBundle_goesOn h rfl rfl none).trans rfl)

/-- Settles O31: each syllable's register effect is what the table says of it. -/
theorem pypoizInteger : Obligations.PypoizInteger := by
  refine ⟨fun u b rd ra rb => ?alu, fun u b rd ra imm => ?alui, fun u b rd ra sh => ?shi, fun u b cond pd ra rb imm => ?cmp,
    fun u b rd ra rb p => ?sel, fun u b rd ra => ?unary, fun u b pd pa pb => ?plog, fun u b rd ra => ?special,
    fun u b rd s h => ?time, fun u b rd imm half => ?wide⟩
  case alu =>
    exact ⟨.plain, .plain, .plain, .plain, .plain, .plain, .plain, .plain, .plain, .plain, .plain, .plain,
      .plain (hf := fun x _ _ => congrArg (x.setG rd) (AluOp.run_min _ _)),
      .plain (hf := fun x _ _ => congrArg (x.setG rd) (AluOp.run_max _ _)),
      .plain (hf := fun x _ _ => congrArg (x.setG rd) (AluOp.run_minu _ _)),
      .plain (hf := fun x _ _ => congrArg (x.setG rd) (AluOp.run_maxu _ _))⟩
  case alui => exact ⟨.plain, .plain, .plain, .plain⟩
  case shi => exact ⟨.plain, .plain, .plain⟩
  case cmp =>
    have legal {x : PCore} {y : Syl} (hlegal : x.sylLegal true y = (decide (cond.toNat < 6) && pd != 0))
        (h : x.sylLegal true y = true) : cond.toNat < 6 :=
      of_decide_eq_true (Bool.and_eq_true_iff.mp (hlegal.symm.trans h)).1
    exact ⟨.plain (hf := fun x _ h => congrArg (x.setP pd) (condHolds_legal (legal (sylLegal_cmp ..) h) _ _)),
      .plain (hf := fun x _ h => congrArg (x.setP pd) (condHolds_legal (legal (sylLegal_cmpi ..) h) _ _))⟩
  case sel => exact .plain
  case unary => exact ⟨.plain, .plain, .plain, .plain, .plain, .plain, .plain, .plain⟩
  case plog => exact ⟨.plain, .plain, .plain, .plain⟩
  case special => exact ⟨.plain, .plain, .plain, .plain, .plain, .mts, .mts, .mts, .mts, .mts, .plain, .plain⟩
  case time => exact Does.mfsTime h
  case wide =>
    exact ⟨.plain,
      .plain (hf := fun x _ _ => congrArg (fun v => x.setG rd (v + imm.signExtend 64 * 4#64)) (BitVec.ofNat_toNat 64 x.pc)),
      .plain (hf := fun x _ _ => congrArg (x.setG rd) (movk_quarter0 _ _)),
      .plain (hf := fun x _ _ => congrArg (x.setG rd) (movk_quarter1 _ _)),
      .plain (hf := fun x _ _ => congrArg (x.setG rd) (movk_quarter2 _ _)),
      .plain (hf := fun x _ _ => congrArg (x.setG rd) (movk_quarter3 _ _))⟩

end Sys2Proof.Machine

/-! SUPPORT. Vector syllables (R280, R292, R295): what each computes element by element, and the statement PypoizVector. -/
namespace Sys2Proof.Machine

theorem VvOp.elem_addsu (w a b : Nat) : VvOp.elem .addsu w a b = Nat.min (2 ^ w - 1) (a + b) := by
  simp only [VvOp.elem, satAdd, Nat.min_def]
  split <;> split <;> omega
theorem VvOp.elem_subsu (w a b : Nat) : VvOp.elem .subsu w a b = if a < b then 0 else a - b := by
  simp only [VvOp.elem]
  split <;> omega
theorem VvOp.elem_minu (w a b : Nat) : VvOp.elem .minu w a b = Nat.min a b := by
  simp only [VvOp.elem, Nat.min_def]
  split <;> split <;> omega
theorem VvOp.elem_maxu (w a b : Nat) : VvOp.elem .maxu w a b = Nat.max a b := by
  simp only [VvOp.elem, Nat.max_def]
  split <;> split <;> omega
theorem VvOp.elem_absdu (w a b : Nat) : VvOp.elem .absdu w a b = Nat.max a b - Nat.min a b := by
  simp only [VvOp.elem, Nat.max_def, Nat.min_def]
  split <;> split <;> omega

theorem VvOp.run_eq {op : VvOp} {ew : BitVec 2} {f : Nat → Nat → Nat} (h : ∀ a b, op.elem (ewBits ew) a b = f a b) (v v' : W256) :
    op.run ew v v' = vecOf (ewBits ew) (fun i => f (Machine.elem (ewBits ew) i v) (Machine.elem (ewBits ew) i v')) :=
  congrArg (vecOf _) (funext fun _ => h _ _)

/-- The floor of a negative quotient, as a residue. -/
theorem sub_ediv_emod {m n a : Nat} (hn : 0 < n) (ha : a < m) :
    ((a : Int) - m) / n % m = ((m - 1 - (m - 1 - a) / n : Nat) : Int) := by
  have hq : (m - 1 - a) / n ≤ m - 1 - a := Nat.div_le_self _ _
  have hneg : (a : Int) - m = Int.negSucc (m - 1 - a) := by omega
  have hdiv : ((a : Int) - m) / n = ((m - 1 - (m - 1 - a) / n : Nat) : Int) - m := by
    rw [hneg, Int.negSucc_ediv _ (by omega)]
    change -((((m - 1 - a) / n : Nat) : Int) + 1) = _
    generalize (m - 1 - a) / n = q at hq
    omega
  rw [hdiv, Int.sub_emod_right, ← Int.natCast_emod,
    Nat.mod_eq_of_lt ((Nat.sub_le _ _).trans_lt (Nat.sub_one_lt (Nat.ne_zero_of_lt ha)))]

/-- An arithmetic shift of an element is the floor of its signed value's quotient. -/
theorem ShOp.elem_sar {w a : Nat} (n : Nat) (ha : a < 2 ^ w) :
    ShOp.elem .sar w a n = (toSigned w a / 2 ^ n % 2 ^ w).toNat := by
  have hpow (k : Nat) : (2 : Int) ^ k = ((2 ^ k : Nat) : Int) := (Nat.cast_pow 2 k).symm
  rw [ShOp.elem, toSigned, hpow, hpow]
  split
  · rw [← Int.natCast_ediv, ← Int.natCast_emod, Int.toNat_natCast,
      Nat.mod_eq_of_lt ((Nat.div_le_self a _).trans_lt ha)]
  · rw [sub_ediv_emod (Nat.two_pow_pos n) ha, Int.toNat_natCast]

/-- Adding up from the left is the sum. -/
theorem foldl_add_eq_sum (f : Nat → Nat) (l : List Nat) : l.foldl (fun s i => s + f i) 0 = (l.map f).sum := by
  rw [List.sum_eq_foldl, List.foldl_map]

theorem unpDepth_legal {k : BitVec 2} (hlegal : k ≠ 3) : unpDepth k.toNat = some (10 + 2 * k.toNat) := by
  revert k
  decide

/-- VUNP takes sample `i` from the end of the bitstream that its bit order says (R295). -/
theorem vunpRun_eq (msb : BitVec 1) (depth : Nat) (v : W256) :
    vunpRun (msb == 1) depth v = vecOf 16 (fun i =>
      if msb = 1 then ofBe ((leBytes 32 v.toNat).take (2 * depth)) / 2 ^ (depth * (15 - i)) % 2 ^ depth
      else ofLe ((leBytes 32 v.toNat).take (2 * depth)) / 2 ^ (depth * i) % 2 ^ depth) := by
  by_cases h : msb = 1 <;> simp only [vunpRun, h, beq_self_eq_true, beq_eq_false_iff_ne.mpr, if_true, if_false,
    Bool.false_eq_true, ne_eq, not_false_eq_true]

/-- Settles O32: each syllable's register effect is the table's, element by element. -/
theorem pypoizVector : Obligations.PypoizVector := by
  refine ⟨fun u vd va vb ew => ?elements, fun u vd va vb vm => ?bits, fun u vd va ew n => ?shifts, fun u v g ew idx => ?moves,
    fun u vd va msb k => ?unpack⟩
  case elements =>
    exact ⟨.plain, .plain, .plain (hf := fun x _ _ => congrArg (x.setV vd) (VvOp.run_eq (VvOp.elem_addsu _) _ _)),
      .plain (hf := fun x _ _ => congrArg (x.setV vd) (VvOp.run_eq (VvOp.elem_subsu _) _ _)), .plain,
      .plain (hf := fun x _ _ => congrArg (x.setV vd) (VvOp.run_eq (VvOp.elem_minu _) _ _)),
      .plain (hf := fun x _ _ => congrArg (x.setV vd) (VvOp.run_eq (VvOp.elem_maxu _) _ _)), .plain, .plain,
      .plain (hf := fun x _ _ => congrArg (x.setV vd) (VvOp.run_eq (VvOp.elem_absdu _) _ _)), .plain, .plain, .plain⟩
  case bits => exact ⟨.plain, .plain, .plain, .plain⟩
  case shifts =>
    refine ⟨.plain, .plain, .plain (hf := fun x _ _ => congrArg (x.setV vd) (congrArg (vecOf _) (funext fun i => ?_)))⟩
    exact ShOp.elem_sar n.toNat (Nat.mod_lt _ (Nat.two_pow_pos _))
  case moves =>
    exact ⟨.plain, .plain, .plain (hf := fun x _ _ => congrArg (fun n => x.setG g (BitVec.ofNat 64 n)) (foldl_add_eq_sum _ _))⟩
  case unpack =>
    refine .plain (hf := fun x _ h => congrArg (x.setV vd) ?_)
    have hlegal : k ≠ 3 := bne_iff_ne.mp ((sylLegal_vunp ..).symm.trans h)
    rw [unpDepth_legal hlegal]
    exact vunpRun_eq msb _ _

end Sys2Proof.Machine

/-! SUPPORT. Memory and I/O syllables (R286 to R290, R293, R294, R305): what the places of a core's accesses depend on, what each
syllable loads and stores, and the statement PypoizMemory. -/
namespace Sys2Proof.Machine

/-! ## Bytes of a number -/

theorem leBytes_mod (n v : Nat) : leBytes n (v % 256 ^ n) = leBytes n v := by
  induction n generalizing v with
  | zero => rfl
  | succ n ih =>
    have hlow : BitVec.ofNat 8 (v % 256 ^ (n + 1)) = BitVec.ofNat 8 v := by
      apply BitVec.eq_of_toNat_eq
      simp only [BitVec.toNat_ofNat]
      exact Nat.mod_mod_of_dvd v (Dvd.intro_left (256 ^ n) rfl)
    rw [leBytes, leBytes, hlow, Nat.pow_succ, Nat.mul_comm, Nat.mod_mul_right_div_self, ih]

theorem ofLe_lt (bs : List Byte) : ofLe bs < 256 ^ bs.length := by
  induction bs with
  | nil => exact Nat.one_pos
  | cons b bs ih =>
    have := b.isLt
    rw [ofLe, List.length_cons, Nat.pow_succ]
    omega

/-! ## What a place depends on -/

theorem Dev.clutchExclusive_congr {d e : Dev} (heft : e.eft = d.eft) (hgroup : ∀ c, (e.core c).group = (d.core c).group)
    (k : Nat) : e.clutchExclusive k = d.clutchExclusive k := by
  simp only [Dev.clutchExclusive, heft, hgroup]

section SetCore
variable {d : Dev} {c : Nat} {x : PCore} (hgroup : x.group = (d.core c).group)
include hgroup

/-- A core that keeps its group leaves every clutch with its owners. -/
theorem Dev.clutchExclusive_setCore (k : Nat) : (d.setCore c x).clutchExclusive k = d.clutchExclusive k := by
  refine Dev.clutchExclusive_congr (Dev.setCore_eft d c x) (fun j => ?_) k
  rw [Dev.core_setCore]
  split
  case isTrue h => rw [hgroup, h]
  case isFalse => rfl

theorem Dev.place_setCore (j a n : Nat) (write : Bool) : (d.setCore c x).place j a n write = d.place j a n write := by
  simp only [Dev.place, Dev.clutchExclusive_setCore hgroup, Dev.setCore_rd]

theorem Dev.fetchOk_setCore (j a : Nat) : (d.setCore c x).fetchOk j a = d.fetchOk j a := by
  simp only [Dev.fetchOk, Dev.clutchExclusive_setCore hgroup]

end SetCore

/-- Writing a general register changes no other register and nothing else of the core. -/
theorem PCore.setG_eq (x : PCore) (r : BitVec 6) (v : W64) : x.setG r v = { x with g := (x.setG r v).g } := by
  rw [PCore.setG]
  split <;> rfl

@[simp] theorem PCore.setG_group (x : PCore) (r : BitVec 6) (v : W64) : (x.setG r v).group = x.group := by
  rw [PCore.setG_eq]

/-! ## Accesses that go through -/

/-- A load whose place can be read gives the bytes there. -/
theorem Dev.loadAt_reads {d : Dev} {c a n : Nat} {bs : List Byte} (haligned : a % n = 0)
    (hfree : (d.core c).xferHits a n = false) (hread : ∃ p, d.place c a n false = some p ∧ d.readPlace c n p = (d, some bs)) :
    d.loadAt c a n = .ok d (ofLe bs) := by
  obtain ⟨p, hplace, hbytes⟩ := hread
  simp [Dev.loadAt, haligned, hplace, hfree, hbytes]

theorem Dev.storeCheck_writes {d : Dev} {c a n : Nat} {p : Place} (haligned : a % n = 0)
    (hplace : d.place c a n true = some p) : d.storeCheck c a n = .ok d 0 := by
  simp [Dev.storeCheck, haligned, hplace]

/-- An atomic operation in local or clutch memory reads as a load does. -/
theorem Dev.atomicAt_near {d : Dev} {c a : Nat} {p : Place} (haligned : a % 8 = 0) (hplace : d.place c a 8 true = some p)
    (hnear : p.near = true) : d.atomicAt c a = d.loadAt c a 8 := by
  cases p with
  | loc | clutch => simp [Dev.atomicAt, haligned, hplace]
  | win => cases hnear

theorem Dev.xferCheck_starts {d : Dev} {c dst src len k : Nat} {p q : Place} (hlen : len % 32 = 0) (hmin : 32 ≤ len)
    (hmax : len ≤ 1048576) (hdst : dst % 32 = 0) (hsrc : src % 32 = 0) (hfrom : d.place c src len false = some p)
    (hto : d.place c dst len true = some q) (hnear : p.near = true ∨ q.near = true)
    (hfree : ∀ t ∈ (d.core c).xfers, t.idx ≠ k) : d.xferCheck c dst src len k = .ok d 0 := by
  have hsizes : ¬(len % 32 ≠ 0 ∨ len < 32 ∨ 1048576 < len ∨ dst % 32 ≠ 0) := by omega
  have hany : (d.core c).xfers.any (fun t => t.idx == k) = false := by simpa using hfree
  have hboth : (!p.near && !q.near) = false := by cases hnear <;> simp_all
  simp only [Dev.xferCheck, if_neg hsizes, hsrc, hfrom, hto, hboth, hany, ne_eq, not_true_eq_false, if_false,
    Bool.false_eq_true]

theorem Dev.aligned_of_fetchOk {d : Dev} {c a : Nat} (h : d.fetchOk c a = true) : a % 4 = 0 :=
  beq_iff_eq.mp (Bool.and_eq_true_iff.mp h).1

/-! ## I/O and instruction space -/

theorem Dev.memStage_inp {d : Dev} {c : Fin 272} {rd ra : BitVec 6} {imm : BitVec 11}
    (hio : d.ioFault c ((d.core c).ioa ra imm) false = false) :
    d.memStage c (.inp rd ra imm) =
      .ok (ioRead d (.core c) c ((d.core c).ioa ra imm)).2 (ioRead d (.core c) c ((d.core c).ioa ra imm)).1 := by
  simp [Dev.memStage, hio]

theorem Dev.memStage_outp {d : Dev} {c : Fin 272} {rs ra : BitVec 6} {imm : BitVec 11}
    (hio : d.ioFault c ((d.core c).ioa ra imm) true = false) : d.memStage c (.outp rs ra imm) = .ok d 0 := by
  simp [Dev.memStage, hio]

theorem Dev.storeStage_outp (d : Dev) (c : Fin 272) (x : PCore) (val : Nat) (rs ra : BitVec 6) (imm : BitVec 11) :
    d.storeStage c x val (.outp rs ra imm) = ioWrite d (.core c) c (x.ioa ra imm) ((x.gr rs).setWidth 32).toNat := by
  simp [Dev.storeStage]

section Text
variable {d : Dev} {c : Nat} {rd ra : BitVec 6} {imm : BitVec 11} (hfetch : d.fetchOk c ((d.core c).ea ra imm 4) = true)
include hfetch

theorem Dev.memStage_ldc :
    d.memStage c (.ldc rd ra imm) = .ok d (d.fetchWord c ((d.core c).ea ra imm 4)).toNat := by
  simp [Dev.memStage, Dev.aligned_of_fetchOk hfetch, hfetch]

theorem Dev.memStage_stc : d.memStage c (.stc rd ra imm) = .ok d 0 := by
  simp [Dev.memStage, Dev.aligned_of_fetchOk hfetch, hfetch]

end Text

theorem Dev.storeStage_stc (d : Dev) (c val : Nat) (x : PCore) (rs ra : BitVec 6) (imm : BitVec 11) :
    d.storeStage c x val (.stc rs ra imm) = d.storeText c (x.ea ra imm 4) ((x.gr rs).setWidth 32).toNat := by
  simp [Dev.storeStage]

/-! ## Stores of each kind -/

section Store
variable {d : Dev} {c val : Nat} {x : PCore} {p : Place}

theorem Dev.storeStage_st {op : StOp} {rs ra : BitVec 6} {imm : BitVec 11}
    (hp : d.place c (x.ea ra imm op.size) op.size true = some p) :
    d.storeStage c x val (.st op rs ra imm) = d.writePlace c (leBytes op.size (x.gr rs).toNat) p := by
  simp only [Dev.storeStage, hp]

theorem Dev.storeStage_stv {vs : BitVec 5} {ra : BitVec 6} {imm : BitVec 11} (hp : d.place c (x.ea ra imm 32) 32 true = some p) :
    d.storeStage c x val (.stv vs ra imm) = d.writePlace c (leBytes 32 (x.vr vs).toNat) p := by
  simp only [Dev.storeStage, hp]

section Atomic
variable {rd ra rb : BitVec 6} (hp : d.place c (x.gr ra).toNat 8 true = some p)
include hp

theorem Dev.storeStage_amoadd :
    d.storeStage c x val (.amoadd rd ra rb) = d.writePlace c (leBytes 8 (BitVec.ofNat 64 val + x.gr rb).toNat) p := by
  have hsum : (BitVec.ofNat 64 val + x.gr rb).toNat = (val + (x.gr rb).toNat) % 256 ^ 8 := by
    rw [BitVec.toNat_add, BitVec.toNat_ofNat, Nat.mod_add_mod]
    rfl
  simp only [Dev.storeStage, hp, hsum, leBytes_mod]

theorem Dev.storeStage_amoswp :
    d.storeStage c x val (.amoswp rd ra rb) = d.writePlace c (leBytes 8 (x.gr rb).toNat) p := by
  simp only [Dev.storeStage, hp]

theorem Dev.storeStage_cas (hval : val < 2 ^ 64) : d.storeStage c x val (.cas rd ra rb) =
    if BitVec.ofNat 64 val = x.gr rd then d.writePlace c (leBytes 8 (x.gr rb).toNat) p else d := by
  have hsame : val = (x.gr rd).toNat ↔ BitVec.ofNat 64 val = x.gr rd := by
    rw [← BitVec.toNat_inj, BitVec.toNat_ofNat, Nat.mod_eq_of_lt hval]
  simp only [Dev.storeStage, hp, hsame]

end Atomic

theorem Dev.storeStage_xfer {rl ra rb : BitVec 6} {k : BitVec 3} : (d.setCore c x).storeStage c x val (.xfer rl ra rb k) =
    (d.setCore c x).setCore c
      { x with xfers := x.xfers ++ [⟨k.toNat, (x.gr ra).toNat, (x.gr rb).toNat, (x.gr rl).toNat⟩] } := by
  simp only [Dev.storeStage, Dev.core_setCore_same]

end Store

/-! ## The commands -/

/-- A syllable of slot M whose access goes through: its registers, then its store, then the next bundle. -/
theorem Does.memory {c : Instr} {s : State} {u : Bundle} {y : Syl} {e f : Dev} {v : Nat} {z : PCore}
    (hexec : exec c s = .next (onDev s (fun d => d.execBundle u (y.encode false) none))) (hslot : y.slot = 2)
    (h : s.dev.about u y) (hm : s.dev.memStage u.core y = .ok e v)
    (hregs : (s.dev.core u.core).apply (e.core u.core) (s.dev.core u.core).pc.toNat ((s.dev.core u.core).pc.toNat + 4) e.now v y = z)
    (hstore : (e.setCore u.core z).storeStage u.core (s.dev.core u.core) v y = f) :
    Does c s (f.goTo u.core ((s.dev.core u.core).pc.toNat + 4)) := by
  refine Does.of hexec ((Dev.execBundle_memory h hm hslot none).trans ?_)
  rw [hregs, hstore]

/-- Settles O35: each clause is its syllable where its access goes through. -/
theorem pypoizMemory : Obligations.PypoizMemory := by
  refine ⟨fun s u rd ra imm bs => ⟨fun ⟨ha, hfree, hread⟩ => ?loads1, fun ⟨ha, hfree, hread⟩ => ?loads2,
      fun ⟨ha, hfree, hread⟩ => ?loads4, fun ⟨ha, hfree, hread⟩ h => ?loads8⟩,
    fun s u vd ra imm bs ⟨ha, hfree, hread⟩ h => ?ldv, fun s u rd ra rb bs ⟨ha, hfree, hread⟩ h => ?lddx,
    fun s u rs ra imm p => ?stores, fun s u vs ra imm p ha hp h => ?stv,
    fun s u rd ra rb bs p ⟨ha, hfree, hread⟩ hp hnear hlen => ?atomics,
    fun s u rl ra rb k p q hlen hmin hmax hdst hsrc hfrom hto hnear hfree h => ?xfer,
    fun s u rd ra imm h hio => ?inp, fun s u rs ra imm hio h => ?outp, fun s u rd ra imm hfetch => ?text⟩
  case loads1 =>
    have hm := Dev.loadAt_reads ha hfree hread
    exact ⟨fun h => Does.memory rfl rfl h hm rfl rfl, fun h => Does.memory rfl rfl h hm rfl rfl⟩
  case loads2 =>
    have hm := Dev.loadAt_reads ha hfree hread
    exact ⟨fun h => Does.memory rfl rfl h hm rfl rfl, fun h => Does.memory rfl rfl h hm rfl rfl⟩
  case loads4 =>
    have hm := Dev.loadAt_reads ha hfree hread
    exact ⟨fun h => Does.memory rfl rfl h hm rfl rfl, fun h => Does.memory rfl rfl h hm rfl rfl⟩
  case loads8 => exact Does.memory rfl rfl h (Dev.loadAt_reads ha hfree hread) rfl rfl
  case ldv => exact Does.memory rfl rfl h (Dev.loadAt_reads ha hfree hread) rfl rfl
  case lddx => exact Does.memory rfl rfl h (Dev.loadAt_reads ha hfree hread) rfl rfl
  case stores =>
    have store {c : Instr} (op : StOp) (hexec : exec c s = .next (onDev s (fun d => d.execBundle u
        ((Syl.st op rs ra imm).encode false) none)))
        (hw : (s.dev.core u.core).ea ra imm op.size % op.size = 0 ∧
          s.dev.place u.core ((s.dev.core u.core).ea ra imm op.size) op.size true = some p)
        (h : s.dev.about u (.st op rs ra imm)) :=
      Does.memory hexec rfl h (Dev.storeCheck_writes hw.1 hw.2) rfl
        (Dev.storeStage_st ((Dev.place_setCore rfl _ _ _ _).trans hw.2))
    exact ⟨store .b rfl, store .h rfl, store .w rfl, store .d rfl⟩
  case stv =>
    exact Does.memory rfl rfl h (Dev.storeCheck_writes ha hp) rfl (Dev.storeStage_stv ((Dev.place_setCore rfl _ _ _ _).trans hp))
  case atomics =>
    have hm := (Dev.atomicAt_near ha hp hnear).trans (Dev.loadAt_reads ha hfree hread)
    have hp' := (Dev.place_setCore (PCore.setG_group (s.dev.core u.core) rd (BitVec.ofNat 64 (ofLe bs))) _ _ _ _).trans hp
    have hval : ofLe bs < 256 ^ 8 := hlen ▸ ofLe_lt bs
    refine ⟨fun h => Does.memory rfl rfl h hm rfl (Dev.storeStage_amoadd hp'),
      fun h => Does.memory rfl rfl h hm rfl (Dev.storeStage_amoswp hp'),
      fun h => Does.memory rfl rfl h hm rfl ((Dev.storeStage_cas hp' hval).trans ?_)⟩
    split <;> rfl
  case xfer =>
    exact Does.memory rfl rfl h (Dev.xferCheck_starts hlen hmin hmax hdst hsrc hfrom hto hnear hfree) rfl Dev.storeStage_xfer
  case inp => exact Does.memory rfl rfl h (Dev.memStage_inp hio) rfl rfl
  case outp => exact Does.memory rfl rfl h (Dev.memStage_outp hio) rfl (Dev.storeStage_outp ..)
  case text =>
    have hload := congrArg ((s.dev.core u.core).setG rd)
      (BitVec.ofNat_toNat 64 (s.dev.fetchWord u.core ((s.dev.core u.core).ea ra imm 4)))
    exact ⟨fun h => Does.memory rfl rfl h (Dev.memStage_ldc hfetch) hload rfl,
      fun h => Does.memory rfl rfl h (Dev.memStage_stc hfetch) rfl (Dev.storeStage_stc ..)⟩

end Sys2Proof.Machine

/-! SUPPORT. Bundles of several register syllables (R282, R283, R292): each reads the registers as they stood before, and the
statement BundleActsAtOnce. -/
namespace Sys2Proof.Machine

/-! ## A fold of which each part is written once -/

section WrittenOnce
variable {α β γ : Type} (get : α → γ) {put : α → β → α} {writes : β → Prop} {ys : List β}

theorem foldl_unwritten (hkeep : ∀ y ∈ ys, ∀ z, get (put z y) = get z) (z : α) : get (ys.foldl put z) = get z := by
  induction ys generalizing z with
  | nil => rfl
  | cons y ys ih =>
    rw [List.foldl_cons, ih (fun w hw => hkeep w (List.mem_cons_of_mem y hw)), hkeep y List.mem_cons_self]

/-- Where no two elements write a part, the one that does leaves there what it puts. -/
theorem foldl_written (hkeep : ∀ y ∈ ys, ¬ writes y → ∀ z, get (put z y) = get z)
    (hput : ∀ y ∈ ys, writes y → ∀ z z', get (put z y) = get (put z' y))
    (honce : ys.Pairwise (fun y w => ¬ (writes y ∧ writes w))) {y : β} (hy : y ∈ ys) (hw : writes y) (z x : α) :
    get (ys.foldl put z) = get (put x y) := by
  induction ys generalizing z with
  | nil => cases hy
  | cons w ys ih =>
    obtain ⟨hfirst, hrest⟩ := List.pairwise_cons.mp honce
    rw [List.foldl_cons]
    cases hy with
    | head =>
      rw [foldl_unwritten get fun v hv => hkeep v (List.mem_cons_of_mem y hv) fun hwv => hfirst v hv ⟨hw, hwv⟩]
      exact hput y List.mem_cons_self hw z x
    | tail _ hmem =>
      exact ih (fun v hv => hkeep v (List.mem_cons_of_mem w hv)) (fun v hv => hput v (List.mem_cons_of_mem w hv)) hrest hmem _

end WrittenOnce

/-! ## What a register syllable writes -/

theorem PCore.gr_setG (z : PCore) (r k : BitVec 6) (v : W64) : (z.setG r v).gr k = if k = r ∧ r ≠ 0 then v else z.gr k := by
  by_cases hr : r = 0
  · simp [PCore.setG, hr]
  · simp only [PCore.gr, PCore.setG, if_neg hr, amGet_amSet, BitVec.toNat_inj]
    grind

theorem PCore.vr_setV (z : PCore) (r k : BitVec 5) (v : W256) : (z.setV r v).vr k = if k = r then v else z.vr k := by
  simp only [PCore.vr, PCore.setV, amGet_amSet, BitVec.toNat_inj]

/-- The bit of predicate `k` in a byte with one bit set. -/
theorem getLsbD_predBit (r k : BitVec 3) : (1#8 <<< r.toNat).getLsbD k.toNat = decide (k = r) := by
  revert r k
  decide

theorem PCore.pr_setP (z : PCore) (r k : BitVec 3) (v : Bool) : (z.setP r v).pr k = if k = r ∧ r ≠ 0 then v else z.pr k := by
  have hk : k.toNat < 8 := k.isLt
  by_cases hr : r = 0
  · simp [PCore.setP, hr]
  · cases v <;> simp only [PCore.pr, PCore.setP, if_neg hr, if_true, Bool.false_eq_true, if_false, BitVec.getLsbD_or,
      BitVec.getLsbD_and, BitVec.getLsbD_not, getLsbD_predBit] <;> grind

/-- Predicates p1 to p7 written from a byte; the bit of p0 stays. -/
def PCore.setPs (z : PCore) (v : BitVec 8) : PCore := { z with p := (v &&& 0xFE#8) ||| (z.p &&& 1#8) }

theorem PCore.pr_setPs (z : PCore) (v : BitVec 8) (k : BitVec 3) : (z.setPs v).pr k = (k == 0 || v.getLsbD k.toNat) := by
  have hp0 : (1#8).getLsbD k.toNat = (k == 0) := by revert k; decide
  have hrest : (0xFE#8).getLsbD k.toNat = !(k == 0) := by revert k; decide
  simp only [PCore.pr, PCore.setPs, BitVec.getLsbD_or, BitVec.getLsbD_and, hp0, hrest]
  cases k == 0 <;> simp

/-- One write of a register syllable: of a general register, a vector register, a predicate, or p1 to p7. -/
inductive RegWrite
  | general (r : BitVec 6) (v : W64)
  | vector (r : BitVec 5) (v : W256)
  | predicate (k : BitVec 3) (v : Bool)
  | predicates (v : BitVec 8)

namespace RegWrite

/-- What the write makes of a core's registers. -/
def run (z : PCore) : RegWrite → PCore
  | .general r v => z.setG r v
  | .vector r v => z.setV r v
  | .predicate k v => z.setP k v
  | .predicates v => z.setPs v

/-- The general register written; a write to g0 is none. -/
def gDest : RegWrite → Option (BitVec 6)
  | .general r _ => if r = 0 then none else some r
  | _ => none

/-- The vector register written. -/
def vDest : RegWrite → Option (BitVec 5)
  | .vector r _ => some r
  | _ => none

/-- The predicates written. -/
def pDests : RegWrite → List Nat
  | .predicate k _ => [k.toNat]
  | .predicates _ => [1, 2, 3, 4, 5, 6, 7]
  | _ => []

variable (w : RegWrite) (z z' : PCore)

/-- A write changes general, vector and predicate registers only. -/
theorem run_frame : { w.run z with g := z.g, v := z.v, p := z.p } = z := by
  cases w with
  | general | predicate =>
    simp only [run, PCore.setG, PCore.setP]
    split <;> rfl
  | vector | predicates => rfl

theorem gr_run_unwritten {r : BitVec 6} (h : w.gDest ≠ some r) : (w.run z).gr r = z.gr r := by
  cases w with
  | general k v =>
    rw [run, PCore.gr_setG, if_neg]
    rintro ⟨rfl, hr⟩
    exact h (if_neg hr)
  | predicate => simp only [run, PCore.setP]; split <;> rfl
  | vector | predicates => rfl

theorem gr_run_written {r : BitVec 6} (h : w.gDest = some r) : (w.run z).gr r = (w.run z').gr r := by
  cases w with
  | general k v =>
    simp only [gDest] at h
    split at h
    · cases h
    · cases h
      simp_all [run, PCore.gr_setG]
  | _ => cases h

theorem vr_run_unwritten {r : BitVec 5} (h : w.vDest ≠ some r) : (w.run z).vr r = z.vr r := by
  cases w with
  | vector k v => rw [run, PCore.vr_setV, if_neg (fun hr => h (congrArg some hr.symm))]
  | general | predicate =>
    simp only [run, PCore.setG, PCore.setP]
    split <;> rfl
  | predicates => rfl

theorem vr_run_written {r : BitVec 5} (h : w.vDest = some r) : (w.run z).vr r = (w.run z').vr r := by
  cases w with
  | vector k v =>
    cases h
    simp only [run, PCore.vr_setV, if_true]
  | _ => cases h

theorem pr_run_unwritten {k : BitVec 3} (h : k.toNat ∉ w.pDests) : (w.run z).pr k = z.pr k := by
  cases w with
  | predicate r v =>
    rw [run, PCore.pr_setP, if_neg]
    rintro ⟨rfl, -⟩
    exact h (List.mem_singleton_self _)
  | predicates v =>
    have hk : k = 0 := by revert h; simp only [pDests]; revert k; decide
    rw [run, PCore.pr_setPs, hk]
    rfl
  | general => simp only [run, PCore.setG]; split <;> rfl
  | vector => rfl

theorem pr_run_written {k : BitVec 3} (h : k.toNat ∈ w.pDests) : (w.run z).pr k = (w.run z').pr k := by
  cases w with
  | predicate r v =>
    obtain rfl : k = r := BitVec.eq_of_toNat_eq (List.mem_singleton.mp h)
    by_cases hk : k = 0
    · simp [run, PCore.pr, hk]
    · simp only [run, PCore.pr_setP, hk, ne_eq, not_false_eq_true, and_self, if_true]
  | predicates v => rw [run, run, PCore.pr_setPs, PCore.pr_setPs]
  | _ => cases h

end RegWrite

/-- A register syllable makes one write, of a value that it takes from the registers it reads. -/
theorem PCore.apply_of_plain {y : Syl} (hy : y.plain = true) (x : PCore) (b next now : Nat) :
    ∃ w : RegWrite, (∀ z, x.apply z b next now 0 y = w.run z) ∧ w.gDest = y.gDest ∧ w.vDest = y.vDest ∧ w.pDests = y.pDests := by
  cases y <;> cases hy
  case alu | sel | unary | mfs | mfp | alui | shi | movi | movk | pcadd | vget | vrsum =>
    exact ⟨.general _ _, fun _ => rfl, rfl, rfl, rfl⟩
  case vv | vlog | vsh | vsel | vbcst | vunp => exact ⟨.vector _ _, fun _ => rfl, rfl, rfl, rfl⟩
  case cmp | plog | cmpi => exact ⟨.predicate _ _, fun _ => rfl, rfl, rfl, rfl⟩
  case mtp => exact ⟨.predicates _, fun _ => rfl, rfl, rfl, rfl⟩

section Apply
variable {y : Syl} (hy : y.plain = true) (x z z' : PCore) (b next now : Nat)
include hy

/-- A register syllable changes general, vector and predicate registers only. -/
theorem PCore.apply_frame (g : AMap W64) (v : AMap W256) (p : BitVec 8) :
    { x.apply z b next now 0 y with g := g, v := v, p := p } = { z with g := g, v := v, p := p } := by
  obtain ⟨w, hw, -, -, -⟩ := x.apply_of_plain hy b next now
  rw [hw]
  exact congrArg (fun q : PCore => { q with g := g, v := v, p := p }) (w.run_frame z)

theorem PCore.gr_apply_unwritten {r : BitVec 6} (h : y.gDest ≠ some r) : (x.apply z b next now 0 y).gr r = z.gr r := by
  obtain ⟨w, hw, hg, -, -⟩ := x.apply_of_plain hy b next now
  rw [hw, w.gr_run_unwritten z (hg ▸ h)]

theorem PCore.gr_apply_written {r : BitVec 6} (h : y.gDest = some r) :
    (x.apply z b next now 0 y).gr r = (x.apply z' b next now 0 y).gr r := by
  obtain ⟨w, hw, hg, -, -⟩ := x.apply_of_plain hy b next now
  rw [hw, hw, w.gr_run_written z z' (hg ▸ h)]

theorem PCore.vr_apply_unwritten {r : BitVec 5} (h : y.vDest ≠ some r) : (x.apply z b next now 0 y).vr r = z.vr r := by
  obtain ⟨w, hw, -, hv, -⟩ := x.apply_of_plain hy b next now
  rw [hw, w.vr_run_unwritten z (hv ▸ h)]

theorem PCore.vr_apply_written {r : BitVec 5} (h : y.vDest = some r) :
    (x.apply z b next now 0 y).vr r = (x.apply z' b next now 0 y).vr r := by
  obtain ⟨w, hw, -, hv, -⟩ := x.apply_of_plain hy b next now
  rw [hw, hw, w.vr_run_written z z' (hv ▸ h)]

theorem PCore.pr_apply_unwritten {k : BitVec 3} (h : k.toNat ∉ y.pDests) : (x.apply z b next now 0 y).pr k = z.pr k := by
  obtain ⟨w, hw, -, -, hp⟩ := x.apply_of_plain hy b next now
  rw [hw, w.pr_run_unwritten z (hp ▸ h)]

theorem PCore.pr_apply_written {k : BitVec 3} (h : k.toNat ∈ y.pDests) :
    (x.apply z b next now 0 y).pr k = (x.apply z' b next now 0 y).pr k := by
  obtain ⟨w, hw, -, -, hp⟩ := x.apply_of_plain hy b next now
  rw [hw, hw, w.pr_run_written z z' (hp ▸ h)]

end Apply

/-! ## A legal bundle of register syllables -/

theorem Syl.gDest_of_clash {a b : Syl} (h : a.clash b = false) (r : BitVec 6) : ¬ (b.gDest = some r ∧ a.gDest = some r) := by
  rintro ⟨hb, ha⟩
  simp [Syl.clash, ha, hb] at h

theorem Syl.vDest_of_clash {a b : Syl} (h : a.clash b = false) (r : BitVec 5) : ¬ (b.vDest = some r ∧ a.vDest = some r) := by
  rintro ⟨hb, ha⟩
  simp [Syl.clash, ha, hb] at h

theorem Syl.pDests_of_clash {a b : Syl} (h : a.clash b = false) (k : Nat) : ¬ (k ∈ b.pDests ∧ k ∈ a.pDests) := by
  rintro ⟨hb, ha⟩
  simp only [Syl.clash, Bool.or_eq_false_iff, List.any_eq_false, List.contains_iff_mem] at h
  exact h.1.2 k ha hb

section Words
variable {ws : List W32} {ys : List Syl} (hdecode : ws.map decodeSyl = ys.map some)
include hdecode

theorem filterMap_decodeSyl : ws.filterMap decodeSyl = ys := by
  calc ws.filterMap decodeSyl = (ws.map decodeSyl).filterMap id := by rw [List.filterMap_map]; rfl
    _ = ys := by rw [hdecode, List.filterMap_map]; exact List.filterMap_some

theorem length_of_decodeSyl : ws.length = ys.length := by
  simpa only [List.length_map] using congrArg List.length hdecode

theorem decodeSyl_getD {k : Nat} (hk : k < ys.length) : decodeSyl (ws.getD k 0) = some ys[k] := by
  have hk' : k < ws.length := length_of_decodeSyl hdecode ▸ hk
  have h : (ws.map decodeSyl)[k]? = (ys.map some)[k]? := congrArg (·[k]?) hdecode
  simpa [hk, hk'] using h

/-- No two syllables of a legal bundle write one register (R283). -/
theorem PCore.pairwise_of_legal {x : PCore} (hlegal : x.illegalAt ws = none) : ys.Pairwise (fun y w => w.clash y = false) := by
  rw [List.pairwise_iff_getElem]
  intro i j hi hj hij
  have h := List.find?_eq_none.mp hlegal j (List.mem_range.mpr (length_of_decodeSyl hdecode ▸ hj))
  simp only [decodeSyl_getD hdecode hj, Bool.or_eq_true, not_or, List.any_eq_true, not_exists, not_and] at h
  have hi' := (h.2 i (List.mem_range.mpr hij)).2
  simpa only [decodeSyl_getD hdecode hi, Bool.not_eq_true] using hi'

end Words

/-- Register syllables pass the memory stage. -/
theorem Dev.memAll_plain (d : Dev) (c : Nat) {ys : List Syl} (hplain : ∀ y ∈ ys, y.plain = true) :
    d.memAll c 0 ys = .ok d 0 := by
  induction ys with
  | nil => rfl
  | cons y ys ih =>
    rw [Dev.memAll, Syl.memStage_of_plain (hplain y List.mem_cons_self)]
    simp only [ite_self]
    exact ih (fun w hw => hplain w (List.mem_cons_of_mem y hw))

/-- A legal bundle of register syllables: each computes from the registers as they stood before. -/
theorem Dev.runBundle_plain {d : Dev} {c : Nat} {ws : List W32} {ys : List Syl} (hlegal : (d.core c).illegalAt ws = none)
    (hdecode : ws.map decodeSyl = ys.map some) (hplain : ∀ y ∈ ys, y.plain = true) (b next : Nat) :
    d.runBundle c b next ws =
      .done (d.setCore c (ys.foldl (fun z y => (d.core c).apply z b next d.now 0 y) (d.core c))) none := by
  have hbranch : ys.findSome? ((d.core c).branch b) = none :=
    List.findSome?_eq_none_iff.mpr (fun y hy => Syl.branch_of_plain (hplain y hy) _ _)
  have hstore (e : Dev) : ys.foldl (fun d' y => d'.storeStage c (d.core c) 0 y) e = e :=
    foldl_unwritten id (fun y hy e => Syl.storeStage_of_plain (hplain y hy) e c 0 _) e
  have hevent (e : Dev) : ys.foldl (fun d' y => d'.eventStage c (d.core c) y) e = e :=
    foldl_unwritten id (fun y hy e => Syl.eventStage_of_plain (hplain y hy) e c _) e
  simp only [Dev.runBundle, hlegal, filterMap_decodeSyl hdecode, Dev.memAll_plain d c hplain, hbranch, hstore, hevent]
  split
  case h_1 k hfind =>
    have hpriv := List.find?_some hfind
    split at hpriv
    case h_1 y hy =>
      rw [Syl.privFault_of_plain (hplain y (List.mem_of_getElem? hy))] at hpriv
      cases hpriv
    case h_2 => cases hpriv
  case h_2 => rfl

/-- A legal bundle of register syllables that its core is about to execute. -/
theorem Dev.execBundle_plain {d : Dev} {u : Bundle} {w : W32} {ys : List Syl} (hruns : (d.core u.core).runs = true)
    (hfetch : d.fetchOk u.core (d.core u.core).pc.toNat = true) (herr : u.err = .none)
    (hlegal : (d.core u.core).illegalAt (bundleWords u w) = none) (hdecode : (bundleWords u w).map decodeSyl = ys.map some)
    (hplain : ∀ y ∈ ys, y.plain = true) (upTo : Option Nat) :
    d.execBundle u w upTo =
      (d.setCore u.core (ys.foldl (fun z y => (d.core u.core).apply z (d.core u.core).pc.toNat
        ((d.core u.core).pc.toNat + 4 * (bundleWords u w).length) d.now 0 y) (d.core u.core))).goTo u.core
          ((d.core u.core).pc.toNat + 4 * (bundleWords u w).length) := by
  have hends : ys.find? Syl.ends = none :=
    List.find?_eq_none.mpr fun y hy => Bool.eq_false_iff.mp (Syl.ends_of_plain (hplain y hy))
  simp only [Dev.execBundle, hruns, hfetch, herr, Dev.runBundle_plain hlegal hdecode hplain, filterMap_decodeSyl hdecode, hends,
    Bool.not_true, Bool.false_eq_true, if_false]
  rfl

/-- Settles O33: every syllable of the bundle makes its one write from the registers as they stood before, and no two of them
write the same register. -/
theorem bundleActsAtOnce : Obligations.BundleActsAtOnce := by
  intro s u b rd ra rb ys x ws next hruns hfetch herr hlegal hdecode hplain
  have hclash := PCore.pairwise_of_legal hdecode hlegal
  refine ⟨ys.foldl (fun z y => x.apply z x.pc.toNat next s.dev.now 0 y) x,
    Does.of rfl (Dev.execBundle_plain hruns hfetch herr hlegal hdecode hplain none),
    fun r hr => ?gKept, fun y hy r hr => ?gWritten, fun r hr => ?vKept, fun y hy r hr => ?vWritten, fun k hk => ?pKept,
    fun y hy k hk => ?pWritten, ?frame⟩
  case gKept => exact foldl_unwritten (·.gr r) (fun y hy z => PCore.gr_apply_unwritten (hplain y hy) _ _ _ _ _ (hr y hy)) x
  case gWritten =>
    exact foldl_written (·.gr r) (fun y hy h z => PCore.gr_apply_unwritten (hplain y hy) _ _ _ _ _ h)
      (fun y hy h z z' => PCore.gr_apply_written (hplain y hy) _ _ _ _ _ _ h) (hclash.imp (Syl.gDest_of_clash · r)) hy hr x x
  case vKept => exact foldl_unwritten (·.vr r) (fun y hy z => PCore.vr_apply_unwritten (hplain y hy) _ _ _ _ _ (hr y hy)) x
  case vWritten =>
    exact foldl_written (·.vr r) (fun y hy h z => PCore.vr_apply_unwritten (hplain y hy) _ _ _ _ _ h)
      (fun y hy h z z' => PCore.vr_apply_written (hplain y hy) _ _ _ _ _ _ h) (hclash.imp (Syl.vDest_of_clash · r)) hy hr x x
  case pKept => exact foldl_unwritten (·.pr k) (fun y hy z => PCore.pr_apply_unwritten (hplain y hy) _ _ _ _ _ (hk y hy)) x
  case pWritten =>
    exact foldl_written (·.pr k) (fun y hy h z => PCore.pr_apply_unwritten (hplain y hy) _ _ _ _ _ h)
      (fun y hy h z z' => PCore.pr_apply_written (hplain y hy) _ _ _ _ _ _ h) (hclash.imp (Syl.pDests_of_clash · k.toNat)) hy hk x x
  case frame =>
    exact foldl_unwritten (fun z : PCore => { z with g := x.g, v := x.v, p := x.p })
      (fun y hy z => PCore.apply_frame (hplain y hy) _ _ _ _ _ _ _ _) x

end Sys2Proof.Machine

/-! SUPPORT. Repeated bundles of one register syllable (R296 to R298), and the statement PypoizRepeats. -/
namespace Sys2Proof.Machine

/-! ## A device of which one core has moved on -/

/-- `e` differs from `d` in core `c` at most. -/
def Dev.OnlyCore (d : Dev) (c : Nat) (e : Dev) : Prop :=
  e = { d with cor.cores := e.cor.cores } ∧ ∀ k, k ≠ c → e.core k = d.core k

theorem Dev.OnlyCore.refl (d : Dev) (c : Nat) : d.OnlyCore c d := ⟨rfl, fun _ _ => rfl⟩

theorem Dev.OnlyCore.trans {d e f : Dev} {c : Nat} (hde : d.OnlyCore c e) (hef : e.OnlyCore c f) : d.OnlyCore c f := by
  obtain ⟨hsame, hcores⟩ := hde
  obtain ⟨hsame', hcores'⟩ := hef
  refine ⟨?_, fun k hk => (hcores' k hk).trans (hcores k hk)⟩
  rw [hsame', hsame]

theorem Dev.onlyCore_setCore (d : Dev) (c : Nat) (x : PCore) : d.OnlyCore c (d.setCore c x) :=
  ⟨rfl, fun k hk => by rw [Dev.core_setCore, if_neg hk]⟩

/-- Instruction space reads the same after registers of a core change. -/
theorem Dev.fetchWord_setCore {d : Dev} {c : Nat} {x : PCore} (himem : x.imem = (d.core c).imem) (a : Nat) :
    (d.setCore c x).fetchWord c a = d.fetchWord c a := by
  simp only [Dev.fetchWord, Dev.core_setCore_same, himem]
  rfl

theorem Dev.bundleAt_single {d : Dev} {c a : Nat} (hstop : stopOf (d.fetchWord c a) = true) (k : Nat) :
    d.bundleAt c a (k + 1) = [d.fetchWord c a] := by
  simp only [Dev.bundleAt, hstop, if_true]

/-! ## The loop -/

/-- One repetition (R298). -/
def PCore.once (b now : Nat) (z : Syl) (y : PCore) : PCore := { y.apply y b (b + 4) now 0 z with rc := y.rc - 1 }

section Loop
variable {z : Syl} (hz : z.plain = true) {w : W32} (hw : decodeSyl w = some z)
include hz

theorem PCore.apply_rc (x y : PCore) (b next now : Nat) : (x.apply y b next now 0 z).rc = y.rc := by
  have h := congrArg PCore.rc (PCore.apply_frame hz x y b next now [] [] 0)
  exact h

include hw

/-- While rc is not 0 the loop makes a repetition and goes on. -/
theorem Dev.repeatLoop_once {d : Dev} {c : Nat} (hlegal : (d.core c).sylLegal true z = true) (hrc : (d.core c).rc ≠ 0) (b n : Nat) :
    ∃ e, d.repeatLoop c b [w] (n + 1) = e.repeatLoop c b [w] n ∧ d.OnlyCore c e ∧
      e.core c = PCore.once b d.now z (d.core c) := by
  refine ⟨(d.setCore c ((d.core c).apply (d.core c) b (b + 4) d.now 0 z)).setCore c (PCore.once b d.now z (d.core c)), ?_,
    (d.onlyCore_setCore c _).trans (Dev.onlyCore_setCore ..), Dev.core_setCore_same ..⟩
  have hrun := Dev.runBundle_plain (ys := [z]) (PCore.illegalAt_alone _ z w hw hlegal) (by rw [List.map_singleton, hw]; rfl)
    (by simpa using hz) b (b + 4 * [w].length)
  rw [Dev.repeatLoop, if_neg hrc, hrun]
  simp only [List.foldl, Dev.core_setCore_same, PCore.apply_rc hz]
  rfl

/-- The loop makes as many repetitions as rc says, and ends with rc 0. -/
theorem Dev.repeatLoop_runs {c : Nat} (b n : Nat) (hn : n < 65536) :
    ∀ d : Dev, (d.core c).sylLegal true z = true → (d.core c).rc = BitVec.ofNat 16 n →
      ∃ e, d.repeatLoop c b [w] n = .done e ∧ d.OnlyCore c e ∧ e.core c = times (PCore.once b d.now z) n (d.core c) ∧
        (e.core c).rc = 0 := by
  induction n with
  | zero =>
    intro d _ hrc
    exact ⟨d, if_pos hrc, .refl d c, rfl, hrc⟩
  | succ n ih =>
    intro d hlegal hrc
    have hpos : (d.core c).rc ≠ 0 := by
      rw [hrc, ne_eq, ← BitVec.toNat_inj, BitVec.toNat_ofNat, Nat.mod_eq_of_lt hn]
      exact Nat.succ_ne_zero n
    obtain ⟨e, hstep, honly, hcore⟩ := Dev.repeatLoop_once hz hw hlegal hpos b n
    have hnow : e.now = d.now := by rw [honly.1]; rfl
    have hcount : (e.core c).rc = BitVec.ofNat 16 n := by
      rw [hcore]
      simp only [PCore.once, hrc]
      bv_omega
    obtain ⟨f, hloop, honly', hcore', hrc'⟩ := ih (by omega) e (Syl.sylLegal_of_plain hz _ _ _ ▸ hlegal) hcount
    exact ⟨f, hstep.trans hloop, honly.trans honly', by rw [hcore', hnow, hcore]; rfl, hrc'⟩

end Loop

/-! ## The REP syllable -/

/-- The count that a REP syllable names in a core (R296). -/
def PCore.repCount (x : PCore) : RepCount → Nat
  | .reg ra => (x.gr ra).toNat
  | .const k => k.toNat

/-- A legal count is at most 65,535, so that rc holds it (R296, R299). -/
theorem PCore.repCount_lt_of_legal {x : PCore} {i : Bool} {count : RepCount} (hlegal : x.sylLegal true (.ofRep i count) = true) :
    x.repCount count < 65536 := by
  cases count with
  | reg ra =>
    simp only [Syl.ofRep, sylLegal_rep, Bool.true_and] at hlegal
    rw [PCore.repCount]
    split at hlegal <;> have := of_decide_eq_true hlegal <;> omega
  | const k => exact k.isLt

theorem PCore.setRep_rc (x : PCore) (repa repi : Bool) : (x.setRep repa repi).rc = x.rc := rfl

section Run
variable {d : Dev} {c b n : Nat} {w : W32} {z : Syl} (hword : d.fetchWord c b = w) (hstop : stopOf w = true)
  (hw : decodeSyl w = some z) (hz : z.plain = true) (hlegal : (d.core c).sylLegal true z = true)
include hword hstop hw hz hlegal

/-- A repetition of a legal register syllable runs to its end, and the core goes on after the repeated bundle. -/
theorem Dev.repeatRun_ends (hn : n < 65536) (hrc : (d.core c).rc = BitVec.ofNat 16 n) :
    ∃ e, d.repeatRun c b none = (e.setCore c ((e.core c).setRep false false)).goTo c (b + 4) ∧ d.OnlyCore c e ∧
      e.core c = times (PCore.once b d.now z) n (d.core c) ∧ (e.core c).rc = 0 := by
  subst hword
  obtain ⟨e, hloop, honly, hcore, hend⟩ := Dev.repeatLoop_runs hz hw b n hn d hlegal hrc
  have hcount : (d.core c).rc.toNat = n := by rw [hrc, BitVec.toNat_ofNat, Nat.mod_eq_of_lt hn]
  refine ⟨e, ?_, honly, hcore, hend⟩
  simp only [Dev.repeatRun, Dev.bundleAt_single hstop, hcount, ite_self, hloop]
  rfl

/-- A REP syllable whose next bundle is one legal register syllable sets rc and the flags, and runs the repetition. -/
theorem Dev.repeatPrefix_runs (hfetch : d.fetchOk c b = true) (i : Bool) :
    ∃ e, d.repeatPrefix c b n i none = e.repeatRun c b none ∧ d.OnlyCore c e ∧ e.fetchWord c b = w ∧
      e.core c = ({ d.core c with rc := BitVec.ofNat 16 n, pc := BitVec.ofNat 32 b } : PCore).setRep true i := by
  obtain ⟨f, hf⟩ : ∃ f, f = d.setCore c { d.core c with rc := BitVec.ofNat 16 n } := ⟨_, rfl⟩
  have hcore : f.core c = { d.core c with rc := BitVec.ofNat 16 n } := by rw [hf, Dev.core_setCore_same]
  have hfword : f.fetchWord c b = w := by rw [hf, Dev.fetchWord_setCore (by rfl), hword]
  have hffetch : f.fetchOk c b = true := by rw [hf, Dev.fetchOk_setCore (by rfl), hfetch]
  have hbundle : f.bundleAt c b 5 = [w] := by rw [Dev.bundleAt_single (by rw [hfword, hstop]), hfword]
  have hflegal : (f.core c).illegalAt [w] = none :=
    PCore.illegalAt_alone _ z _ hw ((Syl.sylLegal_of_plain hz _ _ _).trans hlegal)
  have honly : d.OnlyCore c f := hf ▸ d.onlyCore_setCore c _
  refine ⟨(f.setCore c ((f.core c).setRep true i)).setPc c b, ?run,
    (honly.trans (Dev.onlyCore_setCore ..)).trans (Dev.onlyCore_setCore ..), ?word, ?core⟩
  case run =>
    simp [Dev.repeatPrefix, ← hf, hffetch, hbundle, hw, Syl.repeatable_of_plain hz, hflegal, List.range_succ]
  case word => rw [Dev.setPc, Dev.fetchWord_setCore (by rfl), Dev.fetchWord_setCore (by rfl), hfword]
  case core =>
    rw [Dev.setPc, Dev.core_setCore_same, Dev.core_setCore_same, hcore]
    rfl

end Run

/-- A REP syllable that is about to execute hands its count to the repetition of the next bundle. -/
theorem Dev.execBundle_rep {d : Dev} {u : Bundle} {i : Bool} {count : RepCount} (h : d.about u (.ofRep i count))
    (upTo : Option Nat) :
    d.execBundle u ((Syl.ofRep i count).encode false) upTo =
      (d.setCore u.core (d.core u.core)).repeatPrefix u.core ((d.core u.core).pc.toNat + 4)
        ((d.core u.core).repCount count) i upTo := by
  cases count with
  | reg ra => exact (Dev.execBundle_alone d d u (.rep i ra) 0 upTo h (decodeSyl_lastWord _) rfl).trans rfl
  | const k => exact (Dev.execBundle_alone d d u (.repc i k) 0 upTo h (decodeSyl_lastWord _) rfl).trans rfl

/-- Settles O36: the REP syllable hands its count to rc, the loop counts it down, and the end of the repetition clears its flags. -/
theorem pypoizRepeats : Obligations.PypoizRepeats := by
  intro s u i count n z c x b w once h hn hfetch hstop hw hz hlegal
  obtain ⟨d, hd⟩ : ∃ d, d = s.dev.setCore c x := ⟨_, rfl⟩
  have hvalue : x.repCount count = n := by cases count <;> exact hn.symm
  have hbound : n < 65536 := by
    obtain ⟨-, -, -, -, -, hcount, -⟩ := h
    exact hvalue ▸ PCore.repCount_lt_of_legal hcount
  have hdcore : d.core c = x := by rw [hd, Dev.core_setCore_same]
  have hdword : d.fetchWord c b = w := by rw [hd, Dev.fetchWord_setCore (by rfl)]
  have hdfetch : d.fetchOk c b = true := by rw [hd, Dev.fetchOk_setCore (by rfl), hfetch]
  have legal (y : PCore) : y.sylLegal true z = true := (Syl.sylLegal_of_plain hz y x true).trans hlegal
  obtain ⟨e, hprefix, hde, heword, hecore⟩ := Dev.repeatPrefix_runs (n := n) hdword hstop hw hz (legal _) hdfetch i
  obtain ⟨f, hrun, hef, hfcore, hrc⟩ :=
    Dev.repeatRun_ends heword hstop hw hz (legal _) hbound (by rw [hecore, PCore.setRep_rc])
  have hsd : s.dev.OnlyCore c d := hd ▸ s.dev.onlyCore_setCore c x
  have hnow : e.now = s.dev.now := by
    rw [(hsd.trans hde).1]
    rfl
  obtain ⟨hsame, hcores⟩ := ((hsd.trans hde).trans hef).trans (Dev.onlyCore_setCore f c ((f.core c).setRep false false))
  have hexec : s.dev.execBundle u ((Syl.ofRep i count).encode false) none =
      (f.setCore c ((f.core c).setRep false false)).goTo c (b + 4) := by
    rw [Dev.execBundle_rep h none, hvalue, ← hd, hprefix, hrun]
  refine ⟨f.core c, ?count, hrc, _, hsame, hcores, Dev.core_setCore_same .., ?run⟩
  case count =>
    rw [hfcore, hecore, hdcore, hnow]
    rfl
  case run =>
    cases i with
    | true => exact Does.of rfl hexec
    | false => exact Does.of rfl hexec

end Sys2Proof.Machine

/-! SUPPORT. Exception entry (R308 to R311): what it saves, and the statement ExceptionEntry. -/
namespace Sys2Proof.Machine

/-- The registers that exception entry saves a core's pc, cause, address, repetition and status in (R308). -/
def Dev.saveEntry (d : Dev) (c cause epc addr : Nat) : Dev :=
  let x := d.core c
  let d := ((d.wr .CORE_EPC epc c).wr .CORE_EXC_ECAUSE cause c).wr64 .CORE_EADDR_LO .CORE_EADDR_HI addr c
  let d := ((d.wr .CORE_ERC x.rc.toNat c).wr .CORE_EXC_EREP (b2n x.repa) c).wr .CORE_EXC_EREPI (b2n x.repi) c
  (d.wr .CORE_EXC_PSUP (b2n x.sup) c).wr .CORE_EXC_PIE (b2n x.ie) c

/-- Exception entry saves, and then only the core changes. -/
theorem Dev.enterHandler_eq (d : Dev) (c cause epc addr : Nat) : d.enterHandler c cause epc addr =
    (d.saveEntry c cause epc addr).setCore c { d.core c with
      st := 5, rc := 0, wait := none, pc := BitVec.ofNat 32 ((d.saveEntry c cause epc addr).rd .CORE_VBASE c * 64) } := rfl

/-- The core at the handler's first bundle. -/
theorem Dev.enterHandler_core (d : Dev) (c : Fin 272) (cause epc addr : Nat) :
    (d.enterHandler c cause epc addr).core c =
      { d.core c with st := 5, rc := 0, wait := none, pc := BitVec.ofNat 32 ((d.saveEntry c cause epc addr).rd .CORE_VBASE c * 64) } := by
  rw [Dev.enterHandler_eq, Dev.core_setCore_same]

theorem Dev.enterHandler_rd (d : Dev) (c cause epc addr : Nat) (f : Fld) (i : Nat) :
    (d.enterHandler c cause epc addr).rd f i = (d.saveEntry c cause epc addr).rd f i := by
  rw [Dev.enterHandler_eq, Dev.setCore_rd]

/-- An exception outside a handler, in supervisor mode, is entry alone. -/
theorem Dev.takeException_supervisor (d : Dev) (c cause epc addr : Nat) (status : Option Nat)
    (hexc : (d.core c).exc = false) (hsup : (d.core c).sup = true) :
    d.takeException c cause epc addr status = d.enterHandler c cause epc addr := by
  simp [Dev.takeException, hexc, hsup]

/-- In user mode the work item ends with it (R311). -/
theorem Dev.takeException_user (d : Dev) (c cause epc addr status : Nat) (w : WorkItem)
    (hexc : (d.core c).exc = false) (huser : (d.core c).sup = false) (hwork : (d.core c).wi = some w) :
    d.takeException c cause epc addr (some status) =
      ((d.enterHandler c cause epc addr).raiseI w.inst 0x8001
        [(2, c), (1, w.inst), (1, cause), (4, epc), (8, addr)]).endWork c status cause epc [] := by
  simp [Dev.takeException, hexc, huser, hwork]

/-! ## What each saved register reads -/

section Saved
variable (d : Dev) (c cause epc addr : Nat)

theorem Dev.saveEntry_vbase : (d.saveEntry c cause epc addr).rd .CORE_VBASE c = d.rd .CORE_VBASE c := by
  simp [Dev.saveEntry, Dev.wr64, Dev.rd_wr]

theorem Dev.saveEntry_epc : (d.saveEntry c cause epc addr).rd .CORE_EPC c = epc % 2 ^ 32 := by
  simp only [Dev.saveEntry, Dev.wr64, Dev.rd_wr, reduceCtorEq, false_and, and_self, if_true, if_false]
  rfl

theorem Dev.saveEntry_ecause : (d.saveEntry c cause epc addr).rd .CORE_EXC_ECAUSE c = cause % 2 ^ 8 := by
  simp only [Dev.saveEntry, Dev.wr64, Dev.rd_wr, reduceCtorEq, false_and, and_self, if_true, if_false]
  rfl

theorem Dev.saveEntry_eaddrLo : (d.saveEntry c cause epc addr).rd .CORE_EADDR_LO c = addr % 2 ^ 32 % 2 ^ 32 := by
  simp only [Dev.saveEntry, Dev.wr64, Dev.rd_wr, reduceCtorEq, false_and, and_self, if_true, if_false]
  rfl

theorem Dev.saveEntry_eaddrHi : (d.saveEntry c cause epc addr).rd .CORE_EADDR_HI c = (addr / 2 ^ 32) % 2 ^ 32 := by
  simp only [Dev.saveEntry, Dev.wr64, Dev.rd_wr, reduceCtorEq, false_and, and_self, if_true, if_false]
  rfl

theorem Dev.saveEntry_erc : (d.saveEntry c cause epc addr).rd .CORE_ERC c = (d.core c).rc.toNat % 2 ^ 16 := by
  simp only [Dev.saveEntry, Dev.wr64, Dev.rd_wr, reduceCtorEq, false_and, and_self, if_true, if_false]
  rfl

theorem Dev.saveEntry_erep : (d.saveEntry c cause epc addr).rd .CORE_EXC_EREP c = b2n (d.core c).repa % 2 ^ 1 := by
  simp only [Dev.saveEntry, Dev.wr64, Dev.rd_wr, reduceCtorEq, false_and, and_self, if_true, if_false]
  rfl

theorem Dev.saveEntry_erepi : (d.saveEntry c cause epc addr).rd .CORE_EXC_EREPI c = b2n (d.core c).repi % 2 ^ 1 := by
  simp only [Dev.saveEntry, Dev.wr64, Dev.rd_wr, reduceCtorEq, false_and, and_self, if_true, if_false]
  rfl

theorem Dev.saveEntry_psup : (d.saveEntry c cause epc addr).rd .CORE_EXC_PSUP c = b2n (d.core c).sup % 2 ^ 1 := by
  simp only [Dev.saveEntry, Dev.wr64, Dev.rd_wr, reduceCtorEq, false_and, and_self, if_true, if_false]
  rfl

theorem Dev.saveEntry_pie : (d.saveEntry c cause epc addr).rd .CORE_EXC_PIE c = b2n (d.core c).ie % 2 ^ 1 := by
  simp only [Dev.saveEntry, Dev.wr64, Dev.rd_wr, reduceCtorEq, false_and, and_self, if_true, if_false]
  rfl

end Saved

/-- Settles O37: the registers that entry saves in read what was written to them, and the rest is the core's own change. -/
theorem exceptionEntry : Obligations.ExceptionEntry := by
  intro s c cause epc addr hc hcause hepc haddr hexc x e
  have bit (b : Bool) : b2n b % 2 ^ 1 = b2n b := by cases b <;> rfl
  have reads (f : Fld) : e.rd f c = (s.saveEntry c cause epc addr).rd f c := Dev.enterHandler_rd ..
  refine ⟨?epc, ?cause, ?addr, ?rc, ?rep, ?repi, ?sup, ?ie, ?core, fun _ => rfl, fun hsup => ?supervisor,
    fun w huser hwork => ?user⟩
  case epc => rw [reads, Dev.saveEntry_epc, Nat.mod_eq_of_lt hepc]
  case cause => rw [reads, Dev.saveEntry_ecause, Nat.mod_eq_of_lt (hcause.trans (by decide))]
  case addr =>
    rw [reads, reads, Dev.saveEntry_eaddrLo, Dev.saveEntry_eaddrHi]
    omega
  case rc => rw [reads, Dev.saveEntry_erc, Nat.mod_eq_of_lt x.rc.isLt]
  case rep => rw [reads, Dev.saveEntry_erep, bit]
  case repi => rw [reads, Dev.saveEntry_erepi, bit]
  case sup => rw [reads, Dev.saveEntry_psup, bit]
  case ie => rw [reads, Dev.saveEntry_pie, bit]
  case core => exact (Dev.enterHandler_core s ⟨c, hc⟩ cause epc addr).trans (by rw [Dev.saveEntry_vbase])
  case supervisor => exact Dev.takeException_supervisor s c cause epc addr (some 1) hexc hsup
  case user => exact Dev.takeException_user s c cause epc addr 1 w hexc huser hwork

end Sys2Proof.Machine

/-! SUPPORT. The control syllables: targets, waits, events, traps, ENDW and ERET, and the statement PypoizControl. -/
namespace Sys2Proof.Machine

/-! ## Branches -/

section Target
variable (x : PCore)

theorem PCore.ofNat_pc : BitVec.ofNat 32 x.pc.toNat = x.pc := by simp

theorem PCore.ofNat_next : BitVec.ofNat 32 (x.pc.toNat + 4) = x.pc + 4 := by
  rw [BitVec.ofNat_add, PCore.ofNat_pc]
  rfl

/-- BR goes to its target when its predicate says so, and else to the next bundle. -/
theorem PCore.branch_br (p : BitVec 3) (n : BitVec 1) (off : BitVec 19) :
    (x.branch x.pc.toNat (.br p n off)).getD (x.pc.toNat + 4) =
      if p = 0 ∨ x.pr p = (n == 0) then (x.pc + off.signExtend 32 * 4#32).toNat else x.pc.toNat + 4 := by
  have taken : (x.pr p != (n == 1)) = true ↔ x.pr p = (n == 0) := by
    obtain rfl | rfl := n.eq_zero_or_eq_one <;> cases x.pr p <;> decide
  simp only [PCore.branch, taken, PCore.ofNat_pc]
  split <;> rfl

theorem PCore.branch_call (off : BitVec 19) :
    x.branch x.pc.toNat (.call off) = some (x.pc + off.signExtend 32 * 4#32).toNat := by
  simp only [PCore.branch, PCore.ofNat_pc]

/-- CALL and JALR leave the next bundle's address in lr. -/
theorem PCore.link_next : { x with lr := BitVec.ofNat 32 (x.pc.toNat + 4) } = { x with lr := x.pc + 4 } := by
  rw [PCore.ofNat_next]

end Target

section Branch
variable {s : State} {u : Bundle}

theorem Does.br {p : BitVec 3} {n : BitVec 1} {off : BitVec 19} (h : s.dev.about u (.br p n off)) :
    Does (.br u p n off) s ((s.dev.setCore u.core (s.dev.core u.core)).goTo u.core
      (if p = 0 ∨ (s.dev.core u.core).pr p = (n == 0) then ((s.dev.core u.core).pc + off.signExtend 32 * 4#32).toNat
        else (s.dev.core u.core).pc.toNat + 4)) := by
  rw [← PCore.branch_br]
  exact Does.of rfl (Dev.execBundle_goesOn h rfl rfl none)

theorem Does.call {off : BitVec 19} (h : s.dev.about u (.call off)) :
    Does (.call u off) s ((s.dev.setCore u.core { s.dev.core u.core with lr := (s.dev.core u.core).pc + 4 }).goTo u.core
      ((s.dev.core u.core).pc + off.signExtend 32 * 4#32).toNat) := by
  rw [← PCore.link_next]
  refine Does.of rfl ((Dev.execBundle_goesOn h rfl rfl none).trans ?_)
  rw [PCore.branch_call]
  rfl

theorem Does.jalr {ra : BitVec 6} (h : s.dev.about u (.jalr ra)) :
    Does (.jalr u ra) s ((s.dev.setCore u.core { s.dev.core u.core with lr := (s.dev.core u.core).pc + 4 }).goTo u.core
      ((s.dev.core u.core).gr ra).toNat) := by
  rw [← PCore.link_next]
  exact Does.of rfl (Dev.execBundle_goesOn h rfl rfl none)

theorem Does.jr {ra : BitVec 6} (h : s.dev.about u (.jr ra)) :
    Does (.jr u ra) s ((s.dev.setCore u.core (s.dev.core u.core)).goTo u.core ((s.dev.core u.core).gr ra).toNat) :=
  Does.of rfl (Dev.execBundle_goesOn h rfl rfl none)

theorem Does.ret (h : s.dev.about u .ret) :
    Does (.ret u) s ((s.dev.setCore u.core (s.dev.core u.core)).goTo u.core (s.dev.core u.core).lr.toNat) :=
  Does.of rfl (Dev.execBundle_goesOn h rfl rfl none)

end Branch

/-! ## Waits -/

section Wait
variable (d : Dev) (c : Nat) (x : PCore)

/-- A wait whose register is `rd` ends with ev and evm in it, at the next bundle. -/
theorem Dev.wake_eq (rd : BitVec 6) (deadline : Option Nat) (hx : d.core c = x) :
    d.wake c ⟨rd.toNat, deadline⟩ =
      (d.setCore c { x.setG rd ((x.ev &&& x.evm).setWidth 64) with wait := none }).goTo c (x.pc.toNat + 4) := by
  subst hx
  have hrd : BitVec.ofNat 6 rd.toNat = rd := by simp
  have hpc : ((d.core c).setG rd (((d.core c).ev &&& (d.core c).evm).setWidth 64)).pc = (d.core c).pc := by
    rw [PCore.setG_eq]
  simp only [Dev.wake, hrd, hpc]

theorem Dev.waitOver_iff (w : WaitState) (hx : d.core c = x) :
    d.waitOver c w = true ↔ (x.ev &&& x.evm ≠ 0 ∨ ∃ t, w.deadline = some t ∧ t ≤ d.now) := by
  subst hx
  obtain ⟨r, _ | t⟩ := w <;> simp [Dev.waitOver]

/-- WFE and WAITT, from the core as its bundle leaves it. -/
theorem Dev.startWait_eq (rd : BitVec 6) (deadline : Option Nat) {P : Prop} [Decidable P]
    (hP : P ↔ (x.ev &&& x.evm ≠ 0 ∨ ∃ t, deadline = some t ∧ t ≤ d.now)) :
    (d.setCore c x).startWait c ⟨rd.toNat, deadline⟩ =
      if P then ((d.setCore c x).setCore c { x.setG rd ((x.ev &&& x.evm).setWidth 64) with wait := none }).goTo c (x.pc.toNat + 4)
      else (d.setCore c x).setCore c { x with wait := some ⟨rd.toNat, deadline⟩ } := by
  have reached := Dev.waitOver_iff (d.setCore c x) c x ⟨rd.toNat, deadline⟩ (Dev.core_setCore_same ..)
  rw [Dev.setCore_now] at reached
  by_cases h : P
  · rw [if_pos h, Dev.startWait, if_pos (reached.2 (hP.1 h)), Dev.wake_eq _ _ x _ _ (Dev.core_setCore_same ..)]
  · rw [if_neg h, Dev.startWait, if_neg (fun k => h (hP.2 (reached.1 k))), Dev.core_setCore_same]

end Wait

section Waits
variable {s : State} {u : Bundle}

theorem Dev.execBundle_wfe {d : Dev} {rd : BitVec 6} (h : d.about u (.wfe rd)) :
    d.execBundle u ((Syl.wfe rd).encode false) none =
      (d.setCore u.core (d.core u.core)).startWait u.core ⟨rd.toNat, none⟩ :=
  Dev.execBundle_alone d d u _ 0 none h (decodeSyl_lastWord _) rfl

theorem Dev.execBundle_waitt {d : Dev} {rd ra : BitVec 6} (h : d.about u (.waitt rd ra)) :
    d.execBundle u ((Syl.waitt rd ra).encode false) none =
      (d.setCore u.core (d.core u.core)).startWait u.core ⟨rd.toNat, some ((d.core u.core).gr ra).toNat⟩ :=
  Dev.execBundle_alone d d u _ 0 none h (decodeSyl_lastWord _) rfl

theorem Dev.waitWake_eq {d : Dev} {c : Nat} {w : WaitState} (hw : (d.core c).wait = some w) (hover : d.waitOver c w = true) :
    d.waitWake c = d.wake c w := by
  rw [Dev.waitWake, hw]
  exact if_pos hover

end Waits

/-! ## Events sent to other cores (R302) -/

/-- SEV's part for core `j` of the sender's clutch. -/
def Dev.sendEvent (c mask inst : Nat) (d : Dev) (j : Nat) : Dev :=
  let t := c / 8 * 8 + j
  if bitOf j mask ∧ (d.core t).wi.map (·.inst) = some inst then
    d.setCore t { d.core t with ev := (d.core t).ev ||| (1#32 <<< (c % 8)) } else d

theorem Dev.sendEvents_eq {d : Dev} {c : Nat} {w : WorkItem} (mask : Nat) (hw : (d.core c).wi = some w) :
    d.sendEvents c mask = (List.range 8).foldl (Dev.sendEvent c mask w.inst) d := by
  rw [Dev.sendEvents, hw]
  rfl

/-- Core `k` once SEV has served the first `n` cores of the sender's clutch. -/
def Dev.withEvent (d : Dev) (c mask inst n k : Nat) : PCore :=
  if k / 8 = c / 8 ∧ k % 8 < n ∧ mask.testBit (k % 8) = true ∧ (d.core k).wi.map (·.inst) = some inst then
    { d.core k with ev := (d.core k).ev ||| 1#32 <<< (c % 8) } else d.core k

theorem bitOf_eq_testBit (i v : Nat) : bitOf i v = v.testBit i := by
  rw [Nat.testBit_eq_decide_div_mod_eq]
  rfl

theorem Dev.core_sendEvent_other (c mask inst : Nat) (d : Dev) {j k : Nat} (hk : k ≠ c / 8 * 8 + j) :
    (d.sendEvent c mask inst j).core k = d.core k := by
  simp only [Dev.sendEvent]
  split
  · rw [Dev.core_setCore, if_neg hk]
  · rfl

theorem Dev.core_sendEvent_same (c mask inst : Nat) (d : Dev) (j : Nat) :
    (d.sendEvent c mask inst j).core (c / 8 * 8 + j) =
      if mask.testBit j = true ∧ (d.core (c / 8 * 8 + j)).wi.map (·.inst) = some inst then
        { d.core (c / 8 * 8 + j) with ev := (d.core (c / 8 * 8 + j)).ev ||| 1#32 <<< (c % 8) }
      else d.core (c / 8 * 8 + j) := by
  simp only [Dev.sendEvent, bitOf_eq_testBit]
  split
  · rw [Dev.core_setCore_same]
  · rfl

/-- Each core of the clutch is served once. -/
theorem Dev.core_foldl_sendEvent (c mask inst : Nat) (d : Dev) (k : Nat) :
    ∀ n ≤ 8, ((List.range n).foldl (Dev.sendEvent c mask inst) d).core k = d.withEvent c mask inst n k := by
  intro n
  induction n with
  | zero => intro _; simp [Dev.withEvent]
  | succ n ih =>
    intro hn
    rw [List.range_succ, List.foldl_append, List.foldl_cons, List.foldl_nil]
    have before := ih (by omega)
    by_cases hk : k = c / 8 * 8 + n
    · have unserved : d.withEvent c mask inst n k = d.core k := if_neg (by omega)
      have served : k / 8 = c / 8 ∧ k % 8 = n := by omega
      rw [unserved] at before
      subst hk
      rw [Dev.core_sendEvent_same, before, Dev.withEvent]
      simp only [served, Nat.lt_succ_self, true_and]
    · rw [Dev.core_sendEvent_other _ _ _ _ hk, before, Dev.withEvent, Dev.withEvent]
      have same : (k / 8 = c / 8 ∧ k % 8 < n + 1) ↔ (k / 8 = c / 8 ∧ k % 8 < n) := by omega
      simp only [← and_assoc, same]

/-- SEV changes cores alone. -/
theorem Dev.foldl_sendEvent_cor (c mask inst : Nat) (q : CoreSt) (js : List Nat) (d : Dev) :
    { js.foldl (Dev.sendEvent c mask inst) d with cor := q } = { d with cor := q } := by
  refine foldl_keep (fun e : Dev => { e with cor := q }) _ (fun e j => ?_) js d
  simp only [Dev.sendEvent]
  split <;> rfl

/-- Writing to a core what it holds leaves every core as it is. -/
theorem Dev.core_setCore_self (d : Dev) (c k : Nat) : (d.setCore c (d.core c)).core k = d.core k := by
  rw [Dev.core_setCore]
  split
  case isTrue hk => rw [hk]
  case isFalse => rfl

theorem Does.sev {s : State} {u : Bundle} {ra : BitVec 6} {w : WorkItem} (h : s.dev.about u (.sev ra))
    (hw : (s.dev.core u.core).wi = some w) :
    Does (.sev u ra) s (((List.range 8).foldl (Dev.sendEvent u.core ((s.dev.core u.core).gr ra).toNat w.inst)
      (s.dev.setCore u.core (s.dev.core u.core))).goTo u.core ((s.dev.core u.core).pc.toNat + 4)) := by
  refine Does.of rfl ((Dev.execBundle_goesOn h rfl rfl none).trans ?_)
  rw [← Dev.sendEvents_eq _ ((congrArg PCore.wi (Dev.core_setCore_self ..)).trans hw)]
  rfl

/-! ## TRAP, ENDW and ERET -/

section Ends
variable {d : Dev} {u : Bundle}

theorem Dev.execBundle_trap {code : BitVec 8} (h : d.about u (.trap code)) :
    d.execBundle u ((Syl.trap code).encode false) none =
      ((d.setCore u.core (d.core u.core)).setPc u.core ((d.core u.core).pc.toNat + 4)).takeException u.core 0x08
        ((d.core u.core).pc.toNat + 4) code.toNat (some 1) :=
  Dev.execBundle_alone d d u _ 0 none h (decodeSyl_lastWord _) rfl

theorem Dev.execBundle_endw (h : d.about u .endw) :
    d.execBundle u (Syl.endw.encode false) none =
      ((d.setCore u.core (d.core u.core)).setPc u.core ((d.core u.core).pc.toNat + 4)).endw u.core (d.core u.core).endValue :=
  Dev.execBundle_alone d d u _ 0 none h (decodeSyl_lastWord _) rfl

theorem Dev.execBundle_eret {upTo : Option Nat} (h : d.about u .eret) :
    d.execBundle u (Syl.eret.encode false) upTo = (d.setCore u.core (d.core u.core)).eret u.core upTo :=
  Dev.execBundle_alone d d u _ 0 upTo h (decodeSyl_lastWord _) rfl

end Ends

/-- The pc is no part of what decides whether a work item's transfers still run. -/
theorem Dev.setPc_xfers (d : Dev) (c a : Nat) : ((d.setPc c a).core c).xfers = (d.core c).xfers := by
  rw [Dev.setPc, Dev.core_setCore_same]

theorem Dev.endw_eq (d : Dev) (c : Nat) (value : List Byte) : d.endw c value =
    if (d.core c).xfers = [] then d.endNow c value else d.setCore c { d.core c with ending := some value } := by
  simp only [Dev.endw, List.isEmpty_iff]

/-- ERET to a bundle that was not being repeated. -/
theorem Dev.eret_plain {d : Dev} {c : Nat} (upTo : Option Nat) (hrep : d.rd .CORE_EXC_EREP c = 0) :
    d.eret c upTo = (d.setCore c { d.core c with
      st := stOf (d.rd .CORE_EXC_PSUP c == 1) (d.rd .CORE_EXC_PIE c == 1) false false false }).goTo c (d.rd .CORE_EPC c) := by
  simp [Dev.eret, hrep]

/-- ERET into a repetition goes on with it (R300, R308). -/
theorem Dev.eret_repeat {d : Dev} {c : Nat} (upTo : Option Nat) (hrep : d.rd .CORE_EXC_EREP c = 1)
    (hcount : 0 < d.rd .CORE_ERC c) (hfetch : d.fetchOk c (d.rd .CORE_EPC c) = true) :
    d.eret c upTo = (d.setCore c { d.core c with
      st := stOf (d.rd .CORE_EXC_PSUP c == 1) (d.rd .CORE_EXC_PIE c == 1) false true (d.rd .CORE_EXC_EREPI c == 1),
      rc := BitVec.ofNat 16 (d.rd .CORE_ERC c), pc := BitVec.ofNat 32 (d.rd .CORE_EPC c) }).repeatRun c
        (d.rd .CORE_EPC c) upTo := by
  rw [Dev.eret, if_pos ⟨hrep, hcount⟩]
  exact if_pos ((Dev.fetchOk_setCore (by rfl) ..).trans hfetch)

/-- Settles O34: each control syllable goes on as its lemma above says. -/
theorem pypoizControl : Obligations.PypoizControl := by
  refine ⟨fun s u p n off => ?br, fun s u off ra => ?link, fun u fn => ?fence, fun s u rd ra => ?wait,
    fun s c rd deadline => ?wake, fun s u ra w => ?sev, fun s u code => ?trap, fun s u => ?endw, fun s u upTo => ?eret,
    fun s u upTo => ?again⟩
  case br => exact Does.br
  case link => exact ⟨Does.call, Does.jalr, Does.jr, Does.ret⟩
  case fence =>
    exact Computes.of _ u _ _ (decodeSyl_lastWord _) (fun _ => rfl) (fun _ => rfl) (fun _ _ => rfl) (fun _ _ => rfl) rfl
      (fun _ _ => rfl) (fun _ _ _ => rfl)
  case wait =>
    refine ⟨fun h => Does.of rfl ((Dev.execBundle_wfe h).trans (Dev.startWait_eq _ _ _ _ _ ?_)),
      fun h => Does.of rfl ((Dev.execBundle_waitt h).trans (Dev.startWait_eq _ _ _ _ _ ?_))⟩
    · simp
    · simp
  case wake =>
    intro x hwait hover
    exact Does.of rfl ((Dev.waitWake_eq hwait ((Dev.waitOver_iff _ _ _ _ rfl).2 hover)).trans (Dev.wake_eq _ _ _ _ _ rfl))
  case sev =>
    intro x h hw
    refine ⟨_, Does.sev h hw, _, rfl, Dev.foldl_sendEvent_cor .., fun c => ?_⟩
    have below : c % 8 < 8 := Nat.mod_lt _ (by decide)
    rw [Dev.core_foldl_sendEvent _ _ _ _ _ 8 le_rfl, Dev.withEvent, Dev.core_setCore_self]
    simp only [below, true_and]
    rfl
  case trap => exact fun h => Does.of rfl (Dev.execBundle_trap h)
  case endw =>
    intro x value at' h
    have running : (at'.core u.core).xfers = x.xfers := by
      rw [Dev.setPc_xfers, Dev.core_setCore_same]
    rw [← running]
    exact Does.of rfl ((Dev.execBundle_endw h).trans (Dev.endw_eq ..))
  case eret =>
    intro c x st h hrep
    refine Does.of rfl ((Dev.execBundle_eret h).trans ((Dev.eret_plain upTo ?_).trans ?_))
    · rw [Dev.setCore_rd]; exact hrep
    · simp only [Dev.setCore_rd, Dev.core_setCore_same]; rfl
  case again =>
    intro c x h hrep hcount hfetch st rc pc
    refine Does.of rfl ((Dev.execBundle_eret h).trans ((Dev.eret_repeat upTo ?_ ?_ ?_).trans ?_))
    · rw [Dev.setCore_rd]; exact hrep
    · rw [Dev.setCore_rd]; exact hcount
    · rw [Dev.setCore_rd]; exact (Dev.fetchOk_setCore (by rfl) ..).trans hfetch
    · simp only [Dev.setCore_rd, Dev.core_setCore_same]; rfl

end Sys2Proof.Machine

/-! SUPPORT. The commands of Eft: what a post, a write of a task's configuration, a dispatch, a due boundary and the end of an
unload come to where the rules of R317, R323, R325 to R327 and R337 let them act, and the statement EftCommands. -/
namespace Sys2Proof.Machine

/-- A descriptor that its poster may read, that is whole and that passes every check of the table Post results is queued. -/
theorem Dev.post_accepted {d : Dev} {ag : Agent} {addr64 n : Nat} (howner : d.ownerOf ag = some n)
    (hallowed : d.memAllowed n (addr64 * 64) 384 = true) (hwhole : d.poisoned (addr64 * 64) 384 = false)
    (hcode : d.postCode ag (d.readMem (addr64 * 64) 384) = 0) :
    d.post ag addr64 =
      (let bs := d.readMem (addr64 * 64) 384
       (d.enqueuePost (leAt 0 2 bs) (descPost bs (agCode ag) (d.gen n))).eftResult ag 0 (leAt 0 2 bs)) := by
  simp only [Dev.post, howner, hallowed, hwhole, hcode, Bool.not_true, Bool.or_self, Bool.false_eq_true, if_false, if_true]

/-- A write of a task that the agent reaches, with a PRIORITY its owner may have, is a plain write, after which the task is
looked at again. -/
theorem Dev.taskCfgCmd_allowed {d : Dev} {ag : Agent} {t w : Nat} (hreach : d.taskReach ag t = true)
    (hprio : d.priorityOk t (fv .EFT_TASK_CFG_PRIORITY w) = true) :
    d.taskCfgCmd ag t w = (d.plainWrite 0 (Block.eft.base + 0x100000 + 32 * t) w).refreshTask t := by
  simp only [Dev.taskCfgCmd, hreach, Dev.writeTaskCfg, hprio, if_true]

section Dispatch
/-! Eft is not stopped, and task `t` of group `g` goes next, to core `c`. -/
variable {d : Dev} {g c t : Nat} (hgoes : d.eft.stopped = false) (hpick : d.pickGroup = some (g, c, t))
include hgoes hpick

/-- A task whose event condition holds starts its event activation, and the flags that fired are cleared. -/
theorem Dev.dispatch_event (hevent : d.eventCond t = true) :
    d.dispatch =
      (let fl := d.rd .EFT_TASK_FLAGS t
       let fired := fl &&& d.rd .EFT_TASK_MASK t
       let e := (({ d with eft.lastGroup := g } : Dev).wr .EFT_TASK_FLAGS (fl - fired) t).startWork c t 0 fired none
       (e.setTask t { e.task t with readyOrd := none }).refreshTask t) := by
  have hstill : ({ d with eft.lastGroup := g } : Dev).eventCond t = true := hevent
  rw [Dev.dispatch, if_neg (Bool.eq_false_iff.mp hgoes)]
  simp only [hpick, if_pos hstill]
  rfl

/-- A task whose event condition does not hold starts its first post. -/
theorem Dev.dispatch_post {p : Post} {ps : List Post} (hquiet : d.eventCond t = false) (hposts : (d.task t).posts = p :: ps) :
    d.dispatch =
      (let e := ({ d with eft.lastGroup := g }.setTask t { d.task t with posts := ps }).startWork c t 1 0 (some p)
       (e.setTask t { e.task t with readyOrd := none }).refreshTask t) := by
  have hstill : ({ d with eft.lastGroup := g } : Dev).eventCond t = false := hquiet
  rw [Dev.dispatch, if_neg (Bool.eq_false_iff.mp hgoes)]
  simp only [hpick, hstill, hposts, Bool.false_eq_true, if_false]

end Dispatch

/-- A boundary that is due, before the next one has come, expires every deadline that stands on it. -/
theorem Dev.delayExpiry_onTime {d : Dev} {k : Nat} (hfirst : d.firstDeadline = some k) (hdue : k ≤ d.now)
    (honTime : d.now < k + d.rd .EFT_TICK) :
    d.delayExpiry = d.expireAll k ((d.eft.tasks.filter (fun p => p.2.deadline == some k)).map (·.1)) := by
  simp only [Dev.delayExpiry, hfirst, if_neg (Nat.not_lt.mpr hdue), if_neg (Nat.not_le.mpr honTime)]

section Unload
/-! Program `p`, the program `id` of instance `n`, is being unloaded, and no work item of it runs. -/
variable {d : Dev} {n id : Nat} {p : Program}
  (hfind : d.eft.programs.find? (fun q => q.inst == n && q.id == id && q.unloading) = some p)
  (hidle : ∀ t ∈ p.tasks, d.rd .EFT_TASK_INFO_RUNNING t = 0)
include hfind

/-- The program leaves the list of programs. -/
theorem Dev.length_filter_unloading :
    (d.eft.programs.filter (fun q => !(q.inst == n && q.id == id))).length < d.eft.programs.length := by
  have hmatch := List.find?_some hfind
  rw [Bool.and_eq_true] at hmatch
  refine List.length_filter_lt_length_iff_exists.mpr ⟨p, List.mem_of_find?_eq_some hfind, ?_⟩
  simp only [hmatch.1, Bool.not_true, Bool.false_eq_true, not_false_eq_true]

include hidle

/-- Its records are freed, with 0x9012. -/
theorem Dev.unloadDone_idle :
    d.unloadDone n id =
      ({ d.freeAll p.tasks with
          eft.programs := d.eft.programs.filter (fun q => !(q.inst == n && q.id == id)) } : Dev).raiseI n 0x9012
        [(1, n), (8, id)] := by
  have hall : p.tasks.all (fun t => d.rd .EFT_TASK_INFO_RUNNING t == 0) = true :=
    List.all_eq_true.mpr fun t ht => beq_iff_eq.mpr (hidle t ht)
  simp only [Dev.unloadDone, hfind, hall, if_true]

/-- The end of the unload ends the operation that asked for it. -/
theorem Dev.programUnloaded_idle :
    d.programUnloaded n id =
      (({ d.freeAll p.tasks with
          eft.programs := d.eft.programs.filter (fun q => !(q.inst == n && q.id == id)) } : Dev).raiseI n 0x9012
        [(1, n), (8, id)]).endOpOf 0x71 0 := by
  simp only [Dev.programUnloaded, Dev.unloadDone_idle hfind hidle, Dev.raiseI_eft, Dev.length_filter_unloading hfind, if_true]

end Unload

/-- Settles O41: each clause is its command where nothing refuses it. -/
theorem eftCommands : Obligations.EftCommands := by
  refine ⟨fun s ag a n howner hallowed hwhole hcode => ?post, fun s ag t v hreach hprio => ?priority,
    fun s g c t hgoes hpick hevent => ?event, fun s g c t p ps hgoes hpick hquiet hposts => ?firstPost,
    fun s k hfirst hdue honTime => ?expiry, fun s n id p hfind hidle => ?unload⟩
  case post => exact Does.of rfl (Dev.post_accepted howner hallowed hwhole hcode)
  case priority => exact Does.of rfl (Dev.taskCfgCmd_allowed hreach hprio)
  case event => exact Does.of rfl (Dev.dispatch_event hgoes hpick hevent)
  case firstPost => exact Does.of rfl (Dev.dispatch_post hgoes hpick hquiet hposts)
  case expiry => exact Does.of rfl (Dev.delayExpiry_onTime hfirst hdue honTime)
  case unload => exact Does.of rfl (Dev.programUnloaded_idle hfind hidle)

end Sys2Proof.Machine

/-! SUPPORT. A memory request of the bulk class that the protection stage lets through (R340): what serving it comes to, that
nothing before its bytes move changes what memory holds, and the statement MemoryAccess. -/
namespace Sys2Proof.Machine

/-! ## What device memory holds -/

/-- What a read of device memory depends on: its bytes, and the controller's state without the banks. -/
def Dev.contents (d : Dev) : List Host.Cell × MemSt := (d.ram, { d.mem with banks := [] })

@[simp] theorem Dev.cnt_contents (d : Dev) (f : Fld) (i n : Nat) : (d.cnt f i n).contents = d.contents := rfl
@[simp] theorem Dev.setBank_contents (d : Dev) (k : Nat) (b : Bank) : (d.setBank k b).contents = d.contents := rfl

@[simp] theorem Dev.charge_contents (d : Dev) (kind n amount : Nat) : (d.charge kind n amount).contents = d.contents := by
  rw [Dev.charge]
  split <;> rfl

/-- An activate changes counts only: the bank's open row and table, and the neighbour refreshes. -/
@[simp] theorem Dev.activate_contents (d : Dev) (pc bank row : Nat) : (d.activate pc bank row).contents = d.contents := by
  simp only [Dev.activate]
  split
  case isTrue => rfl
  case isFalse =>
    split
    case h_2 => exact Dev.setBank_contents ..
    case h_1 =>
      split
      case isTrue => rw [Dev.cnt_contents, Dev.setBank_contents]
      case isFalse => exact Dev.setBank_contents ..

section SameContents
variable {d e : Dev} (hsame : e.contents = d.contents)
include hsame

theorem Dev.ram_of_contents : e.ram = d.ram := congrArg Prod.fst hsame

theorem Dev.poison_of_contents : e.mem.poison = d.mem.poison := congrArg (·.2.poison) hsame

theorem Dev.relief_of_contents : e.mem.relief = d.mem.relief := congrArg (·.2.relief) hsame

theorem Dev.readMem_of_contents (a n : Nat) : e.readMem a n = d.readMem a n := by
  rw [Dev.readMem, Dev.readMem, Dev.ram_of_contents hsame]

/-- Where no channel is relieved, a range is poisoned by the poison codes of its lines alone. -/
theorem Dev.poisoned_of_contents (hrelief : d.mem.relief = []) (a n : Nat) : e.poisoned a n = d.poisoned a n := by
  have hline : e.linePoisoned = d.linePoisoned := by
    funext line
    simp [Dev.linePoisoned, Dev.poison_of_contents hsame, Dev.relief_of_contents hsame, hrelief]
  rw [Dev.poisoned, Dev.poisoned, hline, Dev.poison_of_contents hsame, Dev.relief_of_contents hsame]

end SameContents

/-- Where no channel is relieved, a store changes exactly the bytes it stores. -/
theorem Dev.readByte_store {d : Dev} (hrelief : d.mem.relief = []) (a k : Nat) (bs : List Byte) :
    (d.store a bs).readByte k = if a ≤ k ∧ k < a + bs.length then bs.getD (k - a) 0 else d.readByte k := by
  rw [← Dev.readByte_writeMem, Dev.readByte, Dev.store, Dev.healLines_ram, hrelief]
  rfl

/-! ## Serving a bulk request -/

/-- The bank of a line activates the line's row (R348). -/
def Dev.openLine (d : Dev) (line : Nat) : Dev :=
  match d.chanOf (line * 64) with
  | some (c, o) => d.activate (bankOf c o).1 (bankOf c o).2.1 (bankOf c o).2.2.1
  | none => d

@[simp] theorem Dev.openLine_contents (d : Dev) (line : Nat) : (d.openLine line).contents = d.contents := by
  rw [Dev.openLine]
  split
  · exact Dev.activate_contents ..
  · rfl

/-- The device when the bytes of a request are about to move: its instance is charged, and the rows of its lines are open. -/
def Dev.openReq (d : Dev) (q : MemReq) : Dev :=
  (linesOf q.addr (memReqLen q)).foldl Dev.openLine (d.charge 1 q.inst.val 1)

@[simp] theorem Dev.openReq_contents (d : Dev) (q : MemReq) : (d.openReq q).contents = d.contents := by
  rw [Dev.openReq, foldl_keep Dev.contents _ Dev.openLine_contents, Dev.charge_contents]

/-- A read that the channel's code corrected is counted (R352). -/
def Dev.countFix (d : Dev) (q : MemReq) : Dev :=
  if q.corrected then (match d.chanOf q.addr with | some (c, _) => d.cnt .MEM_CH_CNT_CORRECTED c | none => d) else d

@[simp] theorem Dev.countFix_contents (d : Dev) (q : MemReq) : (d.countFix q).contents = d.contents := by
  rw [Dev.countFix]
  split
  case isFalse => rfl
  case isTrue => split <;> rfl

theorem Dev.lineFault_none (d : Dev) (line : Nat) (readable : Bool) : d.lineFault line .none readable = d := rfl

section Bulk
/-! Request `q` is of the bulk class, of its instance's present generation, and the protection stage lets it through. -/
variable {d : Dev} {q : MemReq} (hbulk : q.cls = 2) (hgen : q.gen = d.gen q.inst.val) (hlen : memReqLen q ≠ 0)
  (hallowed : d.memAllowed q.inst.val q.addr (memReqLen q) = true)
include hbulk hgen hlen hallowed

theorem Dev.serveReq_write {bs : List Byte} (hwrite : q.write = some bs) (starved readable : Bool) :
    d.serveReq starved readable q = (d.openReq q).store q.addr bs := by
  simp only [Dev.serveReq, hbulk, hgen, hlen, hallowed, hwrite, ne_eq, not_true_eq_false, if_false, Bool.not_true,
    Bool.false_eq_true, or_self, bne_self_eq_false, Bool.false_and]
  rfl

theorem Dev.serveReq_read (hread : q.write = none) (hgood : q.fault = .none) (starved readable : Bool) :
    d.serveReq starved readable q =
      (let e := (d.openReq q).countFix q
       let p := e.poisoned q.addr (memReqLen q)
       e.send (.memRead q.port.val q.agent p (if p then [] else e.readMem q.addr (memReqLen q)))) := by
  simp only [Dev.serveReq, hbulk, hgen, hlen, hallowed, hread, hgood, Dev.lineFault_none, ne_eq, not_true_eq_false, if_false,
    Bool.not_true, Bool.false_eq_true, or_self, bne_self_eq_false, Bool.false_and]
  rfl

end Bulk

/-- A request that waits alone is served, whatever its rank. -/
theorem Ends.memRequest {s : State} {q : MemReq} {readable : Bool} {P : Dev → Prop}
    (h : ∀ starved, P (s.dev.serveReq starved readable q)) : Ends (.memRequest [] [q] readable) s P :=
  Ends.of rfl (h _)

/-- Settles O44: the bytes move in a device that holds what the device held before. -/
theorem memoryAccess : Obligations.MemoryAccess := by
  intro s q readable hbulk hgen hlen hallowed hrelief
  refine ⟨fun bs hwrite => Ends.memRequest fun _ => ?write,
    fun hread hgood hwhole => Ends.memRequest fun _ => ?read⟩
  case write =>
    intro a
    have hopen : (s.dev.openReq q).contents = s.dev.contents := Dev.openReq_contents ..
    rw [Dev.serveReq_write hbulk hgen hlen hallowed hwrite,
      Dev.readByte_store ((Dev.relief_of_contents hopen).trans hrelief),
      SameMem.of_ram (Dev.ram_of_contents hopen) a]
  case read =>
    have hopen : ((s.dev.openReq q).countFix q).contents = s.dev.contents := by simp
    have hq : memReqLen q = q.len := by rw [memReqLen, hread]
    rw [Dev.serveReq_read hbulk hgen hlen hallowed hread hgood, hq]
    simp only [Dev.poisoned_of_contents hopen hrelief, hwhole, Dev.readMem_of_contents hopen]
    exact ⟨SameMem.of_ram (Dev.ram_of_contents hopen), List.getLast?_concat⟩

end Sys2Proof.Machine

/-! SUPPORT. The queue of waiting commands: every command is an effect on the device alone, and the statement StepRunsFront. -/
namespace Sys2Proof.Machine

/-- The meaning of every command is a function of the device; the queue goes along unread. -/
theorem exec_eq_onDev (c : Instr) : ∃ f : Dev → Dev, ∀ s, exec c s = .next (onDev s f) := by
  cases c <;> exact ⟨_, fun _ => rfl⟩

/-- Settles O3: a step takes the front command off the queue, and its meaning leaves the rest of the queue as it is. -/
theorem stepRunsFront : Obligations.StepRunsFront := by
  intro c rest d
  refine ⟨rfl, fun t ht => ?_⟩
  obtain ⟨f, hf⟩ := exec_eq_onDev c
  obtain rfl : onDev ⟨rest, d⟩ f = t := Host.Outcome.next.inj ((hf _).symm.trans ht)
  exact onDev_pending ..

end Sys2Proof.Machine

/-! SUPPORT. The entries of Gecko keep their canonical form under every command of a context (R259 to R274), under the end of a
partition move (R275) and under the parity pass (R278), and the statement GeckoKeepsEntries. -/
namespace Sys2Proof.Machine

/-- The entries of Gecko are in canonical form. -/
def Dev.gkWf (d : Dev) : Prop := amWf gInit d.gk.entries = true

/-! ## Tables of entries -/

/-- Entries written one after another, each where it leaves the position's DISABLED as it is. -/
theorem amWf_foldl_write (ys : List (Nat × GEntry)) :
    ∀ t : AMap GEntry, amWf gInit t = true →
      amWf gInit (ys.foldl (fun t q => amSet gInit q.1 { q.2 with disabled := (amGet gInit q.1 t).disabled } t) t) = true := by
  induction ys with
  | nil => exact fun _ h => h
  | cons y ys ih => exact fun t h => ih _ (amWf_amSet _ _ _ _ h)

/-- What stays of a list of entries where each is dropped or keeps its index and does not become one after the build. -/
theorem amWf_filterMap {t : AMap GEntry} (h : amWf gInit t = true) {keep : Nat × GEntry → Option (Nat × GEntry)}
    (hkeep : ∀ q r, keep q = some r → r.1 = q.1 ∧ (q.2 ≠ gInit → r.2 ≠ gInit)) : amWf gInit (t.filterMap keep) = true := by
  rw [amWf_iff] at h ⊢
  obtain ⟨hrising, hlisted⟩ := h
  refine ⟨hrising.filterMap _ fun p q hpq r hr z hz => ?_, fun r hr => ?_⟩
  · rw [(hkeep p r hr).1, (hkeep q z hz).1]
    exact hpq
  · obtain ⟨q, hq, hqr⟩ := List.mem_filterMap.mp hr
    exact (hkeep q r hqr).2 (hlisted q hq)

/-- A disabled position is not an entry after the build. -/
theorem disabled_ne_gInit : { gInit with disabled := true } ≠ gInit := by decide

/-! ## What touches no entry -/

@[simp] theorem Dev.setMode_gk (d : Dev) (m : Nat) : (d.setMode m).gk = d.gk := by
  unfold Dev.setMode; dsimp only; split <;> rfl

@[simp] theorem Dev.degrade_gk (d : Dev) (bit resource : Nat) : (d.degrade bit resource).gk = d.gk := by
  unfold Dev.degrade; dsimp only
  split <;> split <;> simp

@[simp] theorem Dev.setWide_gk (d : Dev) (f : Fld) (x : Nat) (v : W128) : (d.setWide f x v).gk = d.gk := rfl

@[simp] theorem Dev.srchStatus_gk (d : Dev) (x : Nat) (hit multi handle : Bool) (code pos res : Nat) :
    (d.srchStatus x hit multi handle code pos res).gk = d.gk := rfl

@[simp] theorem Dev.updStatus_gk (d : Dev) (x code pos : Nat) (down valid dis : Bool) :
    (d.updStatus x code pos down valid dis).gk = d.gk := rfl

@[simp] theorem Dev.gkRefuse_gk (d : Dev) (ag : Agent) (x : Nat) : (d.gkRefuse ag x).gk = d.gk := rfl

/-- The steward's copy is not the entries. -/
theorem Dev.gkSync_entries (d : Dev) (x p : Nat) : (d.gkSync x p).gk.entries = d.gk.entries := by
  rw [Dev.gkSync]; split <;> rfl

namespace Dev.gkWf
variable {d e : Dev}

theorem congr (hsame : e.gk.entries = d.gk.entries) (h : d.gkWf) : e.gkWf := by
  rw [Dev.gkWf, hsame]; exact h

theorem of_gk (hsame : e.gk = d.gk) (h : d.gkWf) : e.gkWf := h.congr (by rw [hsame])

/-! ## Writes of entries -/

theorem setGent (h : d.gkWf) (i : Nat) (g : GEntry) : (d.setGent i g).gkWf := amWf_amSet _ _ _ _ h

theorem gkSync (h : d.gkWf) (x p : Nat) : (d.gkSync x p).gkWf := h.congr (d.gkSync_entries x p)

theorem updStatus (h : d.gkWf) (x code pos : Nat) (down valid dis : Bool) : (d.updStatus x code pos down valid dis).gkWf := h

theorem moveEntry (h : d.gkWf) (p a b : Nat) : (d.moveEntry p a b).gkWf :=
  ((h.setGent _ _).setGent _ _).of_gk (Dev.cnt_gk ..)

theorem moveChain (p : Nat) (chain : List Nat) : ∀ {d : Dev}, d.gkWf → (d.moveChain p chain).gkWf := by
  induction chain with
  | nil => exact fun h => h
  | cons b rest ih =>
    cases rest with
    | nil => exact fun h => h
    | cons a rest => exact fun h => ih (h.moveEntry p a b)

theorem writePos (h : d.gkWf) (p pos : Nat) (v c : W128) (r : W32) (valid : Bool) : (d.writePos p pos v c r valid).gkWf :=
  h.setGent _ _

/-! ## Parity faults (R278) -/

theorem gkLose (h : d.gkWf) (i : Nat) : (d.gkLose i).gkWf := by
  unfold Dev.gkLose; dsimp only
  split
  case h_1 => exact h
  case h_2 p _ =>
    have hlost := h.setGent i { d.gent i with valid := false }
    split
    case isTrue => split <;> exact hlost
    case isFalse => exact (hlost.setGent i _).of_gk (by rw [Dev.degrade_gk]; rfl)

theorem gkParity (h : d.gkWf) (i : Nat) (f : FaultClass) : (d.gkParity i f).gkWf := by
  cases f with
  | none => exact h
  | lasting => exact h.gkLose i
  | transient => unfold Dev.gkParity; dsimp only; split <;> exact h

theorem parityScan (found : List (Nat × FaultClass)) : ∀ {d : Dev}, d.gkWf → (d.parityScan found).gkWf := by
  induction found with
  | nil => exact fun h => h
  | cons q fs ih => exact fun h => ih (h.gkParity q.1 q.2)

theorem winner (h : d.gkWf) (ms : List Nat) (f : FaultClass) : (d.winner ms f).1.gkWf := by
  cases ms with
  | nil => exact h
  | cons i rest =>
    cases f with
    | none => exact h
    | lasting => exact h.gkLose i
    | transient => exact h.gkParity i .transient

/-! ## Updates (R268 to R272) -/

theorem runInsert (h : d.gkWf) (u : HeldUpdate) : (d.runInsert u).gkWf := by
  unfold Dev.runInsert; dsimp only
  split
  case isTrue => exact h
  split
  case isTrue => exact h
  split
  case h_1 => exact h
  case h_2 =>
    split <;> exact (moveChain _ _ h).writePos _ _ _ _ _ _

theorem runUpdate (h : d.gkWf) (u : HeldUpdate) : (d.runUpdate u).gkWf := by
  unfold Dev.runUpdate; dsimp only
  split
  case isTrue => exact (h.runInsert u).gkSync _ _
  split
  case isTrue => exact h
  split
  · exact ((h.setGent _ _).updStatus _ _ _ _ _ _).gkSync _ _
  · split
    case isTrue => exact h
    split
    case isTrue => exact h
    exact ((h.writePos _ _ _ _ _ _).updStatus _ _ _ _ _ _).gkSync _ _
  · exact ((h.setGent _ _).updStatus _ _ _ _ _ _).gkSync _ _
  · exact h
  · split
    case isTrue => exact h
    exact ((h.writePos _ _ _ _ _ _).updStatus _ _ _ _ _ _).gkSync _ _
  · exact h

theorem resumeAll (us : List HeldUpdate) : ∀ {d : Dev} (stuck : List Nat), d.gkWf → (d.resumeAll stuck us).gkWf := by
  induction us with
  | nil => exact fun _ h => h
  | cons u us ih =>
    intro d stuck h
    unfold Dev.resumeAll
    split
    · exact ih stuck (h.runUpdate u)
    · exact ih _ h

theorem gkResume (h : d.gkWf) : d.gkResume.gkWf := resumeAll _ _ h

theorem update (h : d.gkWf) (ag : Agent) (x op p pos : Nat) : (d.update ag x op p pos).gkWf := by
  unfold Dev.update; dsimp only
  split
  case isTrue => exact h
  split
  case isTrue => exact h
  split
  case isTrue => exact h
  split
  case isTrue => exact h.runUpdate _
  case isFalse => exact h

/-! ## Search and its handles (R259, R273, R274) -/

theorem srchStatus (h : d.gkWf) (x : Nat) (hit multi handle : Bool) (code pos res : Nat) :
    (d.srchStatus x hit multi handle code pos res).gkWf := h

theorem closeHandle (h : d.gkWf) (x : Nat) : (d.closeHandle x).gkWf := gkResume (d := { d with gk.handles := _ }) h

theorem expireHandle (h : d.gkWf) (x : Nat) : (d.expireHandle x).gkWf := by
  unfold Dev.expireHandle; dsimp only
  split
  case h_1 => exact h
  split
  case isTrue => exact h
  case isFalse => exact (h.congr (by rw [Dev.raise_gk])).gkResume

theorem search (h : d.gkWf) (ag : Agent) (x p : Nat) (f : FaultClass) : (d.search ag x p f).gkWf := by
  unfold Dev.search; dsimp only
  split
  case isTrue => exact h
  have hclosed := h.closeHandle x
  split
  case isTrue => exact hclosed
  have hcounted : ((d.closeHandle x).cnt64 .GKO_SEARCHES_LO .GKO_SEARCHES_HI 0 1).gkWf := hclosed
  split
  · exact hcounted.winner _ f
  · split <;> exact hcounted.winner _ f

theorem searchNext (h : d.gkWf) (ag : Agent) (x : Nat) : (d.searchNext ag x).gkWf := by
  unfold Dev.searchNext; dsimp only
  split
  case isTrue => exact h
  have hexp := h.expireHandle x
  split
  case h_1 => exact hexp
  split
  case isTrue => exact (hexp.closeHandle x).srchStatus _ _ _ _ _ _ _
  split
  case isTrue => exact (hexp.closeHandle x).srchStatus _ _ _ _ _ _ _
  have hcounted : ((d.expireHandle x).cnt64 .GKO_SEARCHES_LO .GKO_SEARCHES_HI 0 1).gkWf := hexp
  split
  case h_1 => exact (hcounted.closeHandle x).srchStatus _ _ _ _ _ _ _
  split
  case isTrue => exact (hcounted.closeHandle x).srchStatus _ _ _ _ _ _ _
  case isFalse =>
    refine srchStatus ?_ _ _ _ _ _ _ _
    exact hcounted

theorem searchEnd (h : d.gkWf) (ag : Agent) (x : Nat) : (d.searchEnd ag x).gkWf := by
  unfold Dev.searchEnd; dsimp only
  split
  case isTrue => exact h
  have hexp := h.expireHandle x
  split
  case h_1 => exact hexp
  case h_2 => exact (hexp.closeHandle x).srchStatus _ _ _ _ _ _ _

/-! ## The end of a partition move (R275) -/

theorem partMoveDone (h : d.gkWf) (p : Nat) : (d.partMoveDone p).gkWf := by
  unfold Dev.partMoveDone; dsimp only
  split
  case h_1 => exact h
  case h_2 m _ =>
    refine gkResume (of_gk (Dev.raise_gk ..) (amWf_foldl_write _ _ (amWf_filterMap h fun q r hr => ?_)))
    split at hr
    · split at hr
      · obtain rfl := Option.some.inj hr
        exact ⟨rfl, fun _ => disabled_ne_gInit⟩
      · cases hr
    · obtain rfl := Option.some.inj hr
      exact ⟨rfl, id⟩

end Dev.gkWf

/-- Settles O30: each command's effect is an operation that writes entries only by `amSet` or drops them. -/
theorem geckoKeepsEntries : Obligations.GeckoKeepsEntries := by
  intro s t ag x p pos f found c hc hwf ht
  have keeps {g : Dev → Dev} (hexec : exec c s = .next (onDev s g)) (hkeep : (g s.dev).gkWf) :
      amWf gInit t.dev.gk.entries = true := by
    obtain rfl : onDev s g = t := Host.Outcome.next.inj (hexec.symm.trans ht)
    exact hkeep
  have h : s.dev.gkWf := hwf
  simp only [List.mem_cons, List.not_mem_nil, or_false] at hc
  rcases hc with rfl | rfl | rfl | rfl | rfl | rfl | rfl | rfl | rfl | rfl | rfl | rfl
  · exact keeps rfl (h.search ag x p f)
  · exact keeps rfl (h.searchNext ag x)
  · exact keeps rfl (h.searchEnd ag x)
  · exact keeps rfl (h.update ag x 0 p pos.toNat)
  · exact keeps rfl (h.update ag x 1 p pos.toNat)
  · exact keeps rfl (h.update ag x 2 p pos.toNat)
  · exact keeps rfl (h.update ag x 3 p pos.toNat)
  · exact keeps rfl (h.update ag x 4 p pos.toNat)
  · exact keeps rfl (h.update ag x 5 p pos.toNat)
  · exact keeps rfl (h.expireHandle x)
  · exact keeps rfl (h.partMoveDone p)
  · exact keeps rfl (Dev.gkWf.parityScan found h)

end Sys2Proof.Machine

/-! SUPPORT. Management requests as such (R408, R411): what every request does with a message that is not whole and with one that
was answered before, and the statement MgmtReplay. -/
namespace Sys2Proof.Machine

/-- In state `s` the command is a management request for the messages that `mine` picks. -/
def IsRequest (c : Instr) (s : State) (via : Via) (msg : List Byte) (mine : Nat → List Byte → Bool) : Prop :=
  ∃ run after, exec c s = .next { s with dev := s.dev.request via msg mine run after }

namespace IsRequest
variable {c : Instr} {s : State} {via : Via} {msg : List Byte}

theorem short {type : Nat} {run : Dev → List Byte → Dev × Reply}
    (hexec : exec c s = .next { s with dev := s.dev.short via msg type run }) : IsRequest c s via msg (fun t _ => t == type) :=
  ⟨_, _, hexec⟩

theorem long {type : Nat} {mine : List Byte → Bool} {check : Dev → List Byte → Nat} {go : Dev → Nat → List Byte → Dev}
    (hexec : exec c s = .next { s with dev := s.dev.long via msg type mine check go }) :
    IsRequest c s via msg (fun t b => t == type && mine b) := ⟨_, _, hexec⟩

theorem mode {target : Nat} {go : Dev → Nat → Dev}
    (hexec : exec c s = .next { s with dev := s.dev.modeRequest via msg target go }) :
    IsRequest c s via msg (fun t b => t == 0x40 && (leAt 0 1 b == target || (target == 0 && decide (4 < leAt 0 1 b)))) :=
  long hexec

variable {mine : Nat → List Byte → Bool} (hreq : IsRequest c s via msg mine) (hlistens : s.dev.listens via = true)
include hreq hlistens

/-- A message that is not whole is counted, whatever it asks (R408). -/
theorem notWhole (hbad : msgGood msg = false) : Does c s ((s.dev.submit via).cnt .MGT_CNT_BAD_MSG) := by
  obtain ⟨run, after, hexec⟩ := hreq
  exact Does.of hexec (by simp [Dev.request, hlistens, hbad])

/-- A message whose SEQ was answered is answered with that answer and not executed: `run` and `after` are not reached (R411). -/
theorem replayed {old : Nat × List Byte} (hgood : msgGood msg = true)
    (hkept : s.dev.mgt.replay.find? (fun p => p.1 == msgSeq msg) = some old) (hmine : mine (msgType msg) (msgBody msg) = true) :
    Does c s (((s.dev.submit via).cnt .MGT_CNT_REPLAYED).sendAnswer via old.2) := by
  obtain ⟨run, after, hexec⟩ := hreq
  have hsame : (s.dev.submit via).mgt.replay = s.dev.mgt.replay := by cases via <;> rfl
  exact Does.of hexec (by simp [Dev.request, hlistens, hgood, hmine, hsame, hkept])

end IsRequest

/-- Sending an answer leaves the answers kept as they are. -/
theorem Dev.sendAnswer_replay (d : Dev) (via : Via) (m : List Byte) : (d.sendAnswer via m).mgt.replay = d.mgt.replay := by
  cases via <;> rfl

/-- Settles O52: every command of the lists is a request, so the one argument about requests holds for it. -/
theorem mgmtReplay : Obligations.MgmtReplay := by
  intro s via msg hlistens
  refine ⟨fun hbad => ?notWhole, fun old hgood hkept => ⟨?ofType, fun f fl sw bad mid k => ?ofArgument, fun htype hnew => ?unsupported⟩,
    fun r => ⟨_, Dev.sendAnswer_replay .., rfl⟩⟩
  case notWhole =>
    have short {c : Instr} {type run} (hexec : exec c s = .next { s with dev := s.dev.short via msg type run }) :=
      (IsRequest.short hexec).notWhole hlistens hbad
    have long {c : Instr} {type mine check go}
        (hexec : exec c s = .next { s with dev := s.dev.long via msg type mine check go }) :=
      (IsRequest.long hexec).notWhole hlistens hbad
    have mode {c : Instr} {target go} (hexec : exec c s = .next { s with dev := s.dev.modeRequest via msg target go }) :=
      (IsRequest.mode hexec).notWhole hlistens hbad
    simp only [List.forall_mem_cons, List.not_mem_nil, false_imp_iff, implies_true, and_true]
    exact ⟨short rfl, short rfl, short rfl, short rfl, short rfl, short rfl, short rfl, short rfl, short rfl, long rfl, long rfl,
      long rfl, long rfl, short rfl, long rfl, long rfl, short rfl, short rfl, short rfl, short rfl, short rfl, short rfl,
      short rfl, mode rfl, mode rfl⟩
  case ofType =>
    have short {c : Instr} {type run} (hexec : exec c s = .next { s with dev := s.dev.short via msg type run })
        (htype : msgType msg = type) := (IsRequest.short hexec).replayed hlistens hgood hkept (by simp [htype])
    have long {c : Instr} {type check go}
        (hexec : exec c s = .next { s with dev := s.dev.long via msg type (fun _ => true) check go })
        (htype : msgType msg = type) := (IsRequest.long hexec).replayed hlistens hgood hkept (by simp [htype])
    simp only [List.forall_mem_cons, List.not_mem_nil, false_imp_iff, implies_true, and_true]
    exact ⟨short rfl, short rfl, short rfl, short rfl, short rfl, short rfl, short rfl, short rfl, short rfl, long rfl, long rfl,
      long rfl, long rfl, short rfl, long rfl, long rfl, short rfl, short rfl, short rfl, short rfl, short rfl, short rfl,
      short rfl⟩
  case ofArgument =>
    have mode {c : Instr} {target go} (hexec : exec c s = .next { s with dev := s.dev.modeRequest via msg target go })
        (htype : msgType msg = 0x40) (harg : leAt 0 1 (msgBody msg) = target) :=
      (IsRequest.mode hexec).replayed hlistens hgood hkept (by simp [htype, harg])
    have reset {c : Instr} {arg : Nat} {cold go} (hexec : exec c s = .next { s with dev := s.dev.resetRequest via msg cold go })
        (hcold : ((arg == 0) != cold) = true) (htype : msgType msg = 0x41) (harg : leAt 0 1 (msgBody msg) = arg) :=
      IsRequest.replayed ⟨_, _, hexec⟩ hlistens hgood hkept (by simp [htype, harg, hcold])
    have activate {c : Instr} {arg : Nat} {mine : List Byte → Bool} {go}
        (hexec : exec c s = .next { s with dev := s.dev.long via msg 0x51 mine Dev.activateCheck go })
        (hmine : ∀ b, leAt 0 1 b = arg → mine b = true) (htype : msgType msg = 0x51) (harg : leAt 0 1 (msgBody msg) = arg) :=
      (IsRequest.long hexec).replayed hlistens hgood hkept (by simp [htype, hmine _ harg])
    have sanitize {c : Instr} {arg : Nat} {device steps}
        (hexec : exec c s = .next { s with dev := s.dev.sanitizeRequest via msg device steps })
        (hdevice : ((arg == 1) == device) = true) (htype : msgType msg = 0x95) (harg : leAt 0 1 (msgBody msg) = arg) :=
      (IsRequest.long hexec).replayed hlistens hgood hkept (by simpa [htype, harg] using hdevice)
    simp only [List.forall_mem_cons, List.not_mem_nil, false_imp_iff, implies_true, and_true]
    exact ⟨mode rfl, mode rfl, mode rfl, mode rfl, mode rfl, reset rfl rfl, reset rfl rfl, activate rfl (by simp +contextual),
      activate rfl (by simp +contextual), activate rfl (by simp +contextual), sanitize rfl rfl, sanitize rfl rfl⟩
  case unsupported =>
    exact IsRequest.replayed ⟨_, _, rfl⟩ hlistens hgood hkept (by simp [htype, hnew])

end Sys2Proof.Machine

/-! SUPPORT. MODE and RESET (R410, R434, R436 to R438, R440, R443, R444): when each is taken, and the statement ModeRequests. -/
namespace Sys2Proof.Machine

variable {d : Dev} {via : Via} {msg b : List Byte}

theorem leAt_singleton (t : Byte) : leAt 0 1 [t] = t.toNat := by simp [leAt, sliceB, zeros, ofLe]

/-- A request that is asked runs, is answered, and is followed up where the answer's status is 0 or 1 (R410). -/
theorem Dev.request_asks {type : Nat} (hasks : d.asks via msg type b) {mine : Nat → List Byte → Bool} (hmine : mine type b = true)
    {run : Dev → List Byte → Dev × Reply} {e : Dev} {r : Reply} (hrun : run (d.submit via) b = (e, r)) (hok : r.status ≤ 1)
    (after : Dev → Nat → List Byte → Dev) :
    d.request via msg mine run after = after (e.answerReq via msg r) r.op b := by
  obtain ⟨hlistens, hgood, rfl, rfl, hnew, haccepted⟩ := hasks
  have hreplay : (d.submit via).mgt.replay = d.mgt.replay := by cases via <;> rfl
  have hrefusal : (d.submit via).refusal msg = d.refusal msg := by cases via <;> rfl
  simp [Dev.request, hlistens, hgood, hmine, hreplay, hnew, hrefusal, haccepted, hrun, hok]

/-- A mode that the table of MODE requests allows for a TARGET; TARGET 3 is busy during an activation (R434). -/
theorem Dev.modeRequest_begins {target : Byte} (hasks : d.asksLong via msg 0x40 [target]) (htarget : target.toNat ≤ 4)
    (hidle : target.toNat = 3 → d.rd .AVL_STATUS_MODE ≠ 4) (hallowed : d.modeAllowed target.toNat = true)
    (go : Dev → Nat → Dev) :
    d.modeRequest via msg target.toNat go = go (d.begins via msg 0x40) (d.opOf via 0x40) := by
  have hsame : (d.submit via).modeAllowed target.toNat = d.modeAllowed target.toNat := by
    simp only [Dev.modeAllowed, Dev.submit_rd]
  have hbody : ¬([target].length ≠ 1 ∨ 4 < target.toNat) := by simp; omega
  have hfree : ¬(target.toNat = 3 ∧ d.rd .AVL_STATUS_MODE = 4) := fun h => hidle h.1 h.2
  refine Dev.long_asks hasks _ _ _ (by simp [leAt_singleton]) ?_
  rw [Dev.modeCheck]
  simp only [leAt_singleton, if_neg hbody, Dev.submit_rd, if_neg hfree, hsame, hallowed, if_true]

/-- A RESET whose KIND is this command's, and that no mode refuses, is answered and then happens. -/
theorem Dev.resetRequest_happens {kind : Byte} {cold : Bool} (hasks : d.asks via msg 0x41 [kind]) (hkind : kind.toNat = b2n cold)
    (hmode : cold = true ∨ d.rd .AVL_STATUS_MODE ≠ 0 ∧ d.rd .AVL_STATUS_MODE ≠ 6) (go : Dev → Dev) :
    d.resetRequest via msg cold go = go ((d.submit via).says via msg []) := by
  have hbody : ¬([kind].length ≠ 1 ∨ 1 < leAt 0 1 [kind]) := by
    rw [leAt_singleton, hkind]
    cases cold <;> simp [b2n]
  have hrefused : ¬((!cold) = true ∧ ((d.submit via).rd .AVL_STATUS_MODE = 0 ∨ (d.submit via).rd .AVL_STATUS_MODE = 6)) := by
    rw [Dev.submit_rd]
    rintro ⟨hwarm, hbad⟩
    obtain rfl | ⟨hnot0, hnot6⟩ := hmode
    · cases hwarm
    · exact hbad.elim hnot0 hnot6
  exact Dev.request_asks hasks (by rw [leAt_singleton, hkind]; cases cold <;> rfl)
    (by simp only [if_neg hbody, if_neg hrefused]; rfl) (Nat.zero_le 1) _

/-- Settles O53: each TARGET from the modes that the table of MODE requests gives it, and each KIND of reset. -/
theorem modeRequests : Obligations.ModeRequests := by
  refine ⟨fun s via msg => ⟨fun hasks hmode hstate => ?service, fun hasks hmin hmax hpower => ?enterMaintenance,
      fun hasks hmode => ?leaveMaintenance, fun hasks hmin hmax hpower => ?enterStandby, fun f hasks hpower => ?leaveStandby⟩,
    fun s via msg f fl => ⟨fun hasks hnot0 hnot6 => ?warm, fun hasks => ?cold⟩⟩
  case service =>
    exact Does.of rfl (Dev.modeRequest_begins hasks (by decide) (fun h => absurd h (by decide))
      (by simp [Dev.modeAllowed, hmode, hstate]) (fun d _ => d.setMode 5))
  case enterMaintenance =>
    have hin : s.dev.rd .AVL_STATUS_MODE ∈ [1, 2, 3] := by simp; omega
    exact Does.of rfl (Dev.modeRequest_begins hasks (by decide) (fun h => absurd h (by decide))
      (by simp [Dev.modeAllowed, -List.mem_cons, hin, hpower]) Dev.enterMaintenance)
  case leaveMaintenance =>
    exact Does.of rfl (Dev.modeRequest_begins hasks (by decide) (fun h => absurd h (by decide))
      (by simp [Dev.modeAllowed, hmode]) Dev.leaveMaintenance)
  case enterStandby =>
    have hin : s.dev.rd .AVL_STATUS_MODE ∈ [2, 3] := by simp; omega
    exact Does.of rfl (Dev.modeRequest_begins hasks (by decide) (fun _ => by omega)
      (by simp [Dev.modeAllowed, -List.mem_cons, hin, hpower]) Dev.enterStandby)
  case leaveStandby =>
    exact Does.of rfl (Dev.modeRequest_begins hasks (by decide) (fun h => absurd h (by decide))
      (by simp [Dev.modeAllowed, hpower]) (fun d op => d.leaveStandby op f))
  case warm =>
    exact Does.of rfl (Dev.resetRequest_happens hasks rfl (.inr ⟨hnot0, hnot6⟩) (fun d => d.warmReset 1 f))
  case cold => exact Does.of rfl (Dev.resetRequest_happens hasks rfl (.inl rfl) (fun d => d.coldRequest 1 f fl))

end Sys2Proof.Machine

/-! SUPPORT. The lock, the keys and the security version (R415, R427 to R430): what each request does where it is taken, and the
statement LockAndKeys. -/
namespace Sys2Proof.Machine

/-! ## A submission changes the ready flag of the mailbox alone -/

@[simp] theorem Dev.submit_now (d : Dev) (via : Via) : (d.submit via).now = d.now := by cases via <;> rfl
@[simp] theorem Dev.submit_lock (d : Dev) (via : Via) : (d.submit via).mgt.lock = d.mgt.lock := by cases via <;> rfl
@[simp] theorem Dev.submit_mgrKey (d : Dev) (via : Via) : (d.submit via).mgt.mgrKey = d.mgt.mgrKey := by cases via <;> rfl
@[simp] theorem Dev.submit_boot (d : Dev) (via : Via) : (d.submit via).mgt.boot = d.mgt.boot := by cases via <;> rfl
@[simp] theorem Dev.submit_slots (d : Dev) (via : Via) : (d.submit via).mgt.slots = d.mgt.slots := by cases via <;> rfl
@[simp] theorem Dev.submit_sanitize (d : Dev) (via : Via) : (d.submit via).mgt.sanitize = d.mgt.sanitize := by cases via <;> rfl
@[simp] theorem Dev.submit_fwSlot (d : Dev) (via : Via) (k : Nat) : (d.submit via).fwSlot k = d.fwSlot k := by cases via <;> rfl

/-- A request that is asked and answers with status 0 says its data. -/
theorem Dev.short_says {d e : Dev} {via : Via} {msg b data : List Byte} {type : Nat} {run : Dev → List Byte → Dev × Reply}
    (hasks : d.asks via msg type b) (hrun : run (d.submit via) b = (e, ⟨0, data, 0⟩)) :
    d.short via msg type run = e.says via msg data := by
  rw [Dev.short_asks hasks, hrun]
  rfl

variable {d : Dev} {via : Via} {msg b : List Byte}

/-! ## The lock (R415) -/

theorem Dev.lock_free (hasks : d.asks via msg 0x80 b) (hlen : b.length = 6) (hmin : 1 ≤ leAt 4 2 b) (hmax : leAt 4 2 b ≤ 3600)
    (hfree : d.mgt.lock = none) :
    d.lock via msg = (({ d.submit via with mgt.lock := some (leAt 0 4 b, d.now + leAt 4 2 b * 1000000000) } : Dev).wr
      .MGT_STATUS_LOCK_HELD 1).says via msg [] := by
  have hbody : ¬(b.length ≠ 6 ∨ leAt 4 2 b = 0 ∨ 3600 < leAt 4 2 b) := by omega
  exact Dev.short_says hasks (by simp only [if_neg hbody, Dev.submit_lock, hfree, Dev.submit_now]; rfl)

section Unlock
variable {tag t : Nat} (hasks : d.asks via msg 0x81 b) (hlen : b.length = 4) (hheld : d.mgt.lock = some (tag, t))
include hasks hlen hheld

theorem Dev.unlock_own (hown : tag = leAt 0 4 b) : d.unlock via msg = (d.submit via).lockFree.says via msg [] :=
  Dev.short_says hasks (by simp [hlen, hheld, hown]; rfl)

theorem Dev.unlock_other (hother : tag ≠ leAt 0 4 b) : d.unlock via msg = (d.submit via).says via msg [] :=
  Dev.short_says hasks (by simp [hlen, hheld, hother]; rfl)

end Unlock

theorem Dev.lockExpiry_over {tag t : Nat} (hheld : d.mgt.lock = some (tag, t)) (hover : t ≤ d.now) :
    d.lockExpiry = d.lockFree := by
  simp only [Dev.lockExpiry, hheld, if_pos hover]

/-! ## The manager's key (R429) -/

section ManagerKey
variable (hmode : leAt 0 1 b ≤ 1) (hrsvd : allZero (sliceB 1 3 b) = true)
include hmode hrsvd

theorem Dev.keyMgrSet_first (hasks : d.asks via msg 0x90 b) (hnone : d.rd .SEC_STATUS_MK_STATE = 0) (hlen : b.length = 36) :
    d.keyMgrSet via msg = ((d.submit via).setMk (leAt 0 1 b) (b.drop 4)).says via msg [] :=
  Dev.short_says hasks (by simp [hnone, hlen, hrsvd, Nat.not_lt.mpr hmode]; rfl)

/-- A new key comes wrapped under the old one. -/
theorem Dev.keyMgrSet_change {old : List Byte} (hasks : d.asks via msg 0x90 b) (hset : d.rd .SEC_STATUS_MK_STATE ≠ 0)
    (hlen : b.length = 44) (hold : d.mgt.mgrKey = some old) :
    d.keyMgrSet via msg = match Config.kwOpen old (b.drop 4) with
      | some new => ((d.submit via).setMk (leAt 0 1 b) new).says via msg []
      | none => (d.submit via).answerReq via msg ⟨0x0B, [], 0⟩ := by
  rw [Dev.keyMgrSet, Dev.short_asks hasks]
  simp only [Dev.submit_rd, if_neg hset, hlen, hrsvd, Nat.not_lt.mpr hmode, Dev.submit_mgrKey, hold, Option.bind_some]
  cases Config.kwOpen old (b.drop 4) <;> rfl

end ManagerKey

/-- After a reset in MODE 1 the key that opens every entry of the key area is taken. -/
theorem Dev.keyUnlock_opens (hasks : d.asks via msg 0x91 b) (hlen : b.length = 32) (hlocked : d.rd .SEC_STATUS_MK_STATE = 2)
    (hopens : ∀ p ∈ d.mgt.boot.keys, (Config.kwOpen b p.2).isSome = true) :
    d.keyUnlock via msg = (((({ d.submit via with mgt.mgrKey := some b } : Dev).wr .SEC_STATUS_MK_STATE 1).loadKeys).says via msg
      []) := by
  have hall : (d.submit via).mgt.boot.keys.any (fun p => (Config.kwOpen b p.2).isNone) = false := by
    rw [Dev.submit_boot, List.any_eq_false]
    intro p hp
    simpa [Option.isSome_iff_ne_none] using hopens p hp
  exact Dev.short_says hasks (by simp only [hlen, Dev.submit_rd, hlocked, hall]; rfl)

/-! ## Key slots (R430) -/

/-- A key enters slot `n`, and its wrapped form the key area. -/
def Dev.keepKey (d : Dev) (n : Nat) (key wrapped : List Byte) (own : Bool) : Dev :=
  let e : Dev := { d with
    mgt.boot.keys := amPut n wrapped d.mgt.boot.keys
    mgt.boot.generated := if own then n :: d.mgt.boot.generated else d.mgt.boot.generated }
  (((e.setKey n key).wr .SEC_KEY_STATE_STORED 1 n).wr .SEC_KEY_STATE_GENERATED (b2n own) n).raiseI n 0xD030
    [(1, n), (4, leAt 0 4 (kcv key))]

theorem Dev.storeKey_empty {n : Nat} (hslot : amFind n d.mgt.slots = none) (harea : amFind n d.mgt.boot.keys = none)
    (key wrapped : List Byte) (own : Bool) :
    d.storeKey n key wrapped own = if key.take 32 = key.drop 32 then (d, 4) else (d.keepKey n key wrapped own, 0) := by
  simp [Dev.storeKey, hslot, harea, Dev.keepKey]

theorem Dev.sanitizing_false {n : Nat} (h : ∀ z ∈ d.mgt.sanitize, z.device = false ∧ z.inst ≠ n) : d.sanitizing n = false := by
  simpa [Dev.sanitizing] using h

section Slot
/-! One of the enabled instances, which no sanitize touches, and whose slot is empty; the manager's key is there. -/
variable {mk : List Byte} (hon : (d.submit via).insOn (leAt 0 1 b) = true)
  (hclean : ∀ z ∈ d.mgt.sanitize, z.device = false ∧ z.inst ≠ leAt 0 1 b) (hmk : d.mgt.mgrKey = some mk)
  (hslot : amFind (leAt 0 1 b) d.mgt.slots = none) (harea : amFind (leAt 0 1 b) d.mgt.boot.keys = none)
include hon hclean hmk hslot harea

theorem Dev.keyLoad_emptySlot (hasks : d.asks via msg 0x92 b) (hlen : b.length = 74) (hrsvd : leAt 1 1 b = 0) :
    d.keyLoad via msg = match Config.kwOpen mk (b.drop 2) with
      | some key => if key.take 32 = key.drop 32 then (d.submit via).answerReq via msg ⟨4, [], 0⟩ else
          ((d.submit via).keepKey (leAt 0 1 b) key (b.drop 2) false).says via msg (kcv key)
      | none => (d.submit via).answerReq via msg ⟨0x0B, [], 0⟩ := by
  have hquiet : (d.submit via).sanitizing (leAt 0 1 b) = false := Dev.sanitizing_false (by simpa using hclean)
  rw [Dev.keyLoad, Dev.short_asks hasks]
  simp only [hlen, hrsvd, hon, hquiet, Dev.submit_mgrKey, hmk, Option.bind_some]
  cases Config.kwOpen mk (b.drop 2) with
  | none => rfl
  | some key =>
    simp only [Dev.storeKey_empty (d := d.submit via) (by simpa using hslot) (by simpa using harea), ne_eq, not_true_eq_false,
      or_self, if_false, Bool.not_true, Bool.false_eq_true]
    split <;> rfl

theorem Dev.keyGenerate_emptySlot (hasks : d.asks via msg 0x93 b) (hlen : b.length = 1) :
    d.keyGenerate via msg =
      let key := ((d.submit via).drawBytes 64).1
      let e := ((d.submit via).drawBytes 64).2
      if key.take 32 = key.drop 32 then e.answerReq via msg ⟨4, [], 0⟩ else
        (e.keepKey (leAt 0 1 b) key (Config.kw mk key) true).says via msg (Config.kw mk key ++ kcv key) := by
  have hquiet : (d.submit via).sanitizing (leAt 0 1 b) = false := Dev.sanitizing_false (by simpa using hclean)
  rw [Dev.keyGenerate, Dev.short_asks hasks]
  simp only [hlen, hon, hquiet, Dev.submit_mgrKey, hmk,
    Dev.storeKey_empty (d := ((d.submit via).drawBytes 64).2) (by simpa using hslot) (by simpa using harea)]
  simp only [ne_eq, not_true_eq_false, if_false, Bool.not_true, Bool.false_eq_true]
  split <;> rfl

end Slot

/-! ## The security version (R427) -/

theorem Dev.svnCommit_rises (hasks : d.asks via msg 0xA0 b) (hlen : b.length = 1) (hmax : leAt 0 1 b ≤ 63)
    (hrises : d.rd .SEC_STATUS_SVN_MIN < leAt 0 1 b)
    (hruns : leAt 0 1 b ≤ fwSvn (d.fwSlot (d.rd .MGT_ACT_FW_SLOT)))
    (hslotA : fwEnvelope d.mgt.boot.fwA = none ∧ leAt 0 1 b ≤ fwSvn d.mgt.boot.fwA)
    (hslotB : fwEnvelope d.mgt.boot.fwB = none ∧ leAt 0 1 b ≤ fwSvn d.mgt.boot.fwB) :
    d.svnCommit via msg =
      (((d.submit via).wr .SEC_STATUS_SVN_MIN (leAt 0 1 b)).raise 0xD040 [(1, leAt 0 1 b)]).says via msg [] := by
  refine Dev.short_says hasks ?_
  simp [hlen, Nat.not_lt.mpr hmax, Nat.not_lt.mpr hruns, Nat.not_le.mpr hrises, hslotA, hslotB]
  rfl

/-- Settles O56: each clause is its request where it is taken. -/
theorem lockAndKeys : Obligations.LockAndKeys := by
  refine ⟨fun s via msg b => ⟨fun hasks hlen hmin hmax hfree => ?lock, fun t hasks hlen hheld => ?unlock,
      fun t tag hasks hlen hheld hother => ?ignored⟩,
    fun s tag t hheld hover => ?expiry,
    fun s via msg b => ⟨fun hasks hnone hlen hmode hrsvd => ?firstKey, fun old hasks hset hlen hmode hrsvd hold => ?newKey,
      fun hasks hlen hlocked hopens => ?unlockKey⟩,
    fun s via msg b n mk hn hon hclean hmk hslot harea => ?slots,
    fun s via msg b svn hasks hlen hsvn hmax hrises hruns hslotA hslotB => ?version⟩
  case lock => exact Does.of rfl (Dev.lock_free hasks hlen hmin hmax hfree)
  case unlock => exact Does.of rfl (Dev.unlock_own hasks hlen hheld rfl)
  case ignored => exact Does.of rfl (Dev.unlock_other hasks hlen hheld hother)
  case expiry => exact Does.of rfl (Dev.lockExpiry_over hheld hover)
  case firstKey => exact Does.of rfl (Dev.keyMgrSet_first hmode hrsvd hasks hnone hlen)
  case newKey => exact Does.of rfl (Dev.keyMgrSet_change hmode hrsvd hasks hset hlen hold)
  case unlockKey => exact Does.of rfl (Dev.keyUnlock_opens hasks hlen hlocked hopens)
  case slots =>
    subst hn
    exact ⟨fun hasks hlen hrsvd => Does.of rfl (Dev.keyLoad_emptySlot hon hclean hmk hslot harea hasks hlen hrsvd),
      fun hasks hlen => Does.of rfl (Dev.keyGenerate_emptySlot hon hclean hmk hslot harea hasks hlen)⟩
  case version =>
    subst hsvn
    exact Does.of rfl (Dev.svnCommit_rises hasks hlen hmax hrises hruns hslotA hslotB)

end Sys2Proof.Machine

/-! SUPPORT. The short management requests (R409, R410, R412, R413, R416 to R419): what each does and answers where it is taken,
and the statement MgmtRequests. -/
namespace Sys2Proof.Machine

@[simp] theorem Dev.submit_ops (d : Dev) (via : Via) : (d.submit via).mgt.ops = d.mgt.ops := by cases via <;> rfl
@[simp] theorem Dev.submit_ev (d : Dev) (via : Via) : (d.submit via).ev = d.ev := by cases via <;> rfl
@[simp] theorem Dev.submit_replay (d : Dev) (via : Via) : (d.submit via).mgt.replay = d.mgt.replay := by cases via <;> rfl

variable {d : Dev} {via : Via} {msg b : List Byte}

/-! ## HELLO (R409) -/

/-- Of a falling list the first element that fits is the highest. -/
theorem find_highest {p : Nat → Bool} {v : Nat} {l : List Nat} (hfalling : l.Pairwise (fun w u => u < w)) (hv : v ∈ l)
    (hp : p v = true) (hhighest : ∀ w ∈ l, p w = true → w ≤ v) : l.find? p = some v := by
  induction l with
  | nil => cases hv
  | cons w l ih =>
    obtain ⟨hbelow, hrest⟩ := List.pairwise_cons.mp hfalling
    by_cases hw : p w = true
    · have hle : w ≤ v := hhighest w List.mem_cons_self hw
      obtain rfl : v = w := by
        rcases List.mem_cons.mp hv with h | h
        · exact h
        · exact absurd (hbelow v h) (by omega)
      exact List.find?_cons_of_pos hw
    · have hne : v ≠ w := fun h => hw (h ▸ hp)
      rw [List.find?_cons_of_neg hw]
      exact ih hrest ((List.mem_cons.mp hv).resolve_left hne) (fun u hu => hhighest u (List.mem_cons_of_mem w hu))

theorem Dev.mgtHello_highest {v : Nat} (hasks : d.asks via msg 1 b) (hlen : b.length = 4) (hv : v ∈ [0x201, 0x200, 0x101, 0x100])
    (hmin : leAt 0 2 b ≤ v) (hmax : v ≤ leAt 2 2 b)
    (hhighest : ∀ w ∈ [0x201, 0x200, 0x101, 0x100], leAt 0 2 b ≤ w → w ≤ leAt 2 2 b → w ≤ v) :
    d.mgtHello via msg = ((d.submit via).wr .MGT_STATUS_VERSION v).says via msg
      (leBytes 2 v ++ leBytes 4 (d.rd .SYS_DEV_ID) ++ leBytes 4 (d.rd .MGT_FW_VERSION)) := by
  have hfind : [0x201, 0x200, 0x101, 0x100].find? (fun v => decide (leAt 0 2 b ≤ v ∧ v ≤ leAt 2 2 b)) = some v :=
    find_highest (by decide) hv (by simp [hmin, hmax]) (fun w hw hfits => by
      obtain ⟨hlow, hhigh⟩ := of_decide_eq_true hfits
      exact hhighest w hw hlow hhigh)
  exact Dev.short_says hasks (by simp only [hlen, hfind, Dev.submit_rd]; rfl)

/-! ## OP_STATUS (R410) -/

section OpStatus
variable (hasks : d.asks via msg 2 b) (hlen : b.length = 8)
include hasks hlen

theorem Dev.opStatus_known {o : LongOp} (hop : d.mgt.ops.find? (fun o => o.id == leAt 0 8 b) = some o) :
    d.opStatus via msg = (d.submit via).says via msg
      (leBytes 1 o.state ++ leBytes 1 o.status ++ leBytes 2 o.step ++ leBytes 4 o.cause ++ o.data) :=
  Dev.short_says hasks (by simp only [hlen, Dev.submit_ops, hop]; rfl)

theorem Dev.opStatus_unknown (hnone : ∀ o ∈ d.mgt.ops, o.id ≠ leAt 0 8 b) :
    d.opStatus via msg = (d.submit via).says via msg (2 :: zeros 7) := by
  have hop : d.mgt.ops.find? (fun o => o.id == leAt 0 8 b) = none := by simpa using hnone
  exact Dev.short_says hasks (by simp only [hlen, Dev.submit_ops, hop]; rfl)

end OpStatus

/-! ## Register messages (R412, R413) -/

theorem regReach_of {a n : Nat} (hmin : 1 ≤ n) (hmax : n ≤ 256) (haligned : a % 4 = 0)
    (hblocks : ∀ k < n, (blockOf (a + 4 * k)).isSome = true) : regReach a n = true := by
  simpa [regReach, regAddrs, hmin, hmax, haligned] using hblocks

theorem leAt_drop (m o n : Nat) (bs : List Byte) : leAt o n (bs.drop m) = leAt (m + o) n bs := by
  simp only [leAt, sliceB, List.drop_drop]

/-- The words of a register write, one after another from offset `o`, go to ascending registers. -/
theorem writeRegs_eq_foldl (bs : List Byte) (o a : Nat) (n : Nat) :
    ∀ (j : Nat) (d : Dev), writeRegs d (bs.drop (o + 4 * j)) ((List.range' j n).map (fun k => a + 4 * k)) =
      (List.range' j n).foldl (fun d k => ioWrite d .manager 0 (a + 4 * k) (leAt (o + 4 * k) 4 bs)) d := by
  induction n with
  | zero => exact fun _ _ => rfl
  | succ n ih =>
    intro j d
    have hnext : o + 4 * j + 4 = o + 4 * (j + 1) := by omega
    rw [List.range'_succ, List.map_cons, writeRegs, leAt_drop, List.drop_drop, hnext, ih, List.foldl_cons]
    rfl

section Registers
variable (hmin : 1 ≤ leAt 4 2 b) (hmax : leAt 4 2 b ≤ 256) (haligned : leAt 0 4 b % 4 = 0)
  (hblocks : ∀ k < leAt 4 2 b, (blockOf (leAt 0 4 b + 4 * k)).isSome = true)
include hmin hmax haligned hblocks

theorem Dev.regRead_inBlocks (hasks : d.asks via msg 0x10 b) (hlen : b.length = 6) :
    d.regRead via msg =
      let r := readRegs (d.submit via) ((List.range (leAt 4 2 b)).map (fun k => leAt 0 4 b + 4 * k))
      r.1.says via msg r.2 := by
  refine Dev.short_says hasks ?_
  simp only [hlen, regReach_of hmin hmax haligned hblocks]
  rfl

theorem Dev.regWrite_inBlocks (hasks : d.asks via msg 0x11 b) (hlen : b.length = 6 + 4 * leAt 4 2 b) :
    d.regWrite via msg =
      ((List.range (leAt 4 2 b)).foldl (fun d k => ioWrite d .manager 0 (leAt 0 4 b + 4 * k) (leAt (6 + 4 * k) 4 b))
        (d.submit via)).says via msg [] := by
  have hwrites := writeRegs_eq_foldl b 6 (leAt 0 4 b) (leAt 4 2 b) 0 (d.submit via)
  have hbody : ¬(b.length ≠ 6 + 4 * leAt 4 2 b ∨ (!regReach (leAt 0 4 b) (leAt 4 2 b)) = true) := by
    simp [hlen, regReach_of hmin hmax haligned hblocks]
  rw [← List.range_eq_range'] at hwrites
  exact Dev.short_says hasks (by simp only [if_neg hbody, ← hwrites]; rfl)

end Registers

/-! ## Records by a cursor (R416, R417) -/

theorem leAt_lt (o n : Nat) (bs : List Byte) : leAt o n bs < 256 ^ n := by
  have hlen : (sliceB o n bs).length = n := by simp [sliceB, zeros]
  calc leAt o n bs < 256 ^ (sliceB o n bs).length := ofLe_lt _
    _ = 256 ^ n := by rw [hlen]

/-- The records from the cursor on are `left`, and `lost` of those that it asks for are gone: either all that is kept is asked
for, or nothing is lost. -/
theorem cursorRead_left {kept left : List EvRec} {lost next cursor : Nat} (n : Nat) (hgone : kept = [] ∨ lost = 0)
    (hcursor : cursor < 2 ^ 32) (hnext : next < 2 ^ 32) (hspan : left.length + lost ≤ 2 ^ 31)
    (hends : next % 2 ^ 32 = (cursor + lost + left.length) % 2 ^ 32) :
    cursorRead (kept ++ left) next cursor n = some (leBytes 2 (b2n (lost != 0)) ++ leBytes 4 lost ++
      leBytes 4 ((cursor + lost + (left.take n).length) % 2 ^ 32) ++ (left.take n).flatMap EvRec.bytes) := by
  have hwant : (next + 2 ^ 32 - cursor) % 2 ^ 32 = lost + left.length := by omega
  have hlost : lost + left.length - (kept ++ left).length = lost := by
    rcases hgone with rfl | rfl <;> simp
  have hleft : (kept ++ left).drop ((kept ++ left).length - (lost + left.length)) = left := by
    rcases hgone with rfl | rfl <;> simp
  have htake : (left.take n).length ≤ left.length := by simp
  have hafter : (next + 2 ^ 32 - (left.length - (left.take n).length)) % 2 ^ 32 =
      (cursor + lost + (left.take n).length) % 2 ^ 32 := by omega
  simp only [cursorRead, hwant, hlost, hleft, hafter]
  rw [if_neg (by omega)]

theorem Dev.readRecords_left {kept left : List EvRec} {lost next : Nat} (hlen : b.length = 6) (hmin : 1 ≤ leAt 4 2 b)
    (hmax : leAt 4 2 b ≤ 40) (hgone : kept = [] ∨ lost = 0) (hnext : next < 2 ^ 32) (hspan : left.length + lost ≤ 2 ^ 31)
    (hends : next % 2 ^ 32 = (leAt 0 4 b + lost + left.length) % 2 ^ 32) :
    d.readRecords b (kept ++ left) next = (d, ⟨0, leBytes 2 (b2n (lost != 0)) ++ leBytes 4 lost ++
      leBytes 4 ((leAt 0 4 b + lost + (left.take (leAt 4 2 b)).length) % 2 ^ 32) ++
        (left.take (leAt 4 2 b)).flatMap EvRec.bytes, 0⟩) := by
  have hbody : ¬(b.length ≠ 6 ∨ leAt 4 2 b = 0 ∨ 40 < leAt 4 2 b) := by omega
  simp only [Dev.readRecords, if_neg hbody, cursorRead_left _ hgone (leAt_lt 0 4 b) hnext hspan hends]

/-! ## Subscription, telemetry, names and types that no version has (R409, R416, R418, R419) -/

theorem Dev.eventSubscribe_kept (hasks : d.asks via msg 0x21 b) (hlen : b.length = 20) (hsev : leAt 0 1 b ≤ 4)
    (hrsvd : leAt 1 1 b = 0) :
    d.eventSubscribe via msg =
      ({ d.submit via with
        ev.sub := if beAt 4 16 b = 0 then none else some ⟨beAt 4 16 b, leAt 2 2 b, leAt 0 1 b⟩ } : Dev).says via msg [] := by
  have hbody : ¬(b.length ≠ 20 ∨ 4 < leAt 0 1 b ∨ leAt 1 1 b ≠ 0) := by omega
  exact Dev.short_says hasks (by simp only [if_neg hbody]; rfl)

theorem Dev.telemetry_ofInstance {n : Nat} (hasks : d.asks via msg 0x30 b) (hlen : b.length = 4) (hpage : leAt 0 2 b = n + 1)
    (hn : n < 256) (haligned : leAt 2 2 b % 1024 = 0) (hoff : leAt 2 2 b < 4096) (hon : (d.submit via).insOn n = true) :
    d.telemetry via msg = (d.submit via).says via msg (sliceB (leAt 2 2 b) 1024 ((d.submit via).telemetryPage n)) := by
  have hbody : ¬(b.length ≠ 4 ∨ 256 < leAt 0 2 b ∨ leAt 2 2 b % 1024 ≠ 0 ∨ 4096 ≤ leAt 2 2 b) := by omega
  refine Dev.short_says hasks ?_
  simp only [if_neg hbody]
  simp [hpage, hon]

theorem Dev.nqnSet_free (hasks : d.asks via msg 0x63 b) (hmin : 2 ≤ b.length) (hlen : leAt 1 1 b = (b.drop 2).length)
    (hmax : (b.drop 2).length ≤ 223) (hon : (d.submit via).insOn (leAt 0 1 b) = true)
    (hfree : ∀ p ∈ d.hq.nqns, p.1 ≠ leAt 0 1 b → p.2 ≠ b.drop 2) :
    d.nqnSet via msg =
      ({ d.submit via with hq.nqns := amPut (leAt 0 1 b) (b.drop 2) (d.submit via).hq.nqns } : Dev).says via msg [] := by
  have hbody : ¬(b.length < 2 ∨ leAt 1 1 b ≠ (b.drop 2).length ∨ 223 < (b.drop 2).length) := by omega
  have hnone : d.hq.nqns.any (fun p => p.1 != leAt 0 1 b && p.2 == b.drop 2) = false := by simpa using hfree
  exact Dev.short_says hasks (by simp only [if_neg hbody, hon, Dev.submit_hq, hnone]; rfl)

/-- The TYPE is refused for the version before the request's fields are looked at. -/
theorem Dev.unsupportedType_refused (hlistens : d.listens via = true) (hgood : msgGood msg = true) (htype : msgType msg ≠ 1)
    (hundefined : mgtDefines (d.rd .MGT_STATUS_VERSION) (msgType msg) = false) (hsession : d.rd .MGT_STATUS_VERSION ≠ 0)
    (hnew : ∀ p ∈ d.mgt.replay, p.1 ≠ msgSeq msg) :
    d.unsupportedType via msg = (d.submit via).answerReq via msg ⟨3, [], 0⟩ := by
  have hkept : d.mgt.replay.find? (fun p => p.1 == msgSeq msg) = none := by simpa using hnew
  have hrefusal : (d.submit via).refusal msg = some 3 := by simp [Dev.refusal, hsession, htype, hundefined]
  simp [Dev.unsupportedType, Dev.request, hlistens, hgood, htype, hundefined, hkept, hrefusal, Reply.of]

/-- Settles O51: each clause is its request where it is taken. -/
theorem mgmtRequests : Obligations.MgmtRequests := by
  refine ⟨fun s via msg b v hasks hlen hv hmin hmax hhighest => ?hello,
    fun s via msg b hasks hlen => ⟨fun o hop => ?opKnown, fun hnone => ?opUnknown⟩,
    fun s via msg b n hasks hlen hn hmin hmax haligned hblocks => ?regRead,
    fun s via msg b n hasks hlen hn hmin hmax haligned hblocks => ?regWrite,
    fun s via msg b lost kept left hlen hmin hmax hspan => ⟨fun hasks hqueue hgone hends hnext => ?events,
      fun hasks hlog hgone hends hnext => ?log⟩,
    fun s via msg b hasks hlen hsev hrsvd => ?subscribe,
    fun s via msg b n off hasks hlen hpage hoff hn haligned hrange hon => ?telemetry,
    fun s via msg hlistens hgood htype hundefined hsession hnew => ?unsupported,
    fun s via msg b n hasks hmin hinst hlen hmax hon hfree => ?nqn⟩
  case hello => exact Does.of rfl (Dev.mgtHello_highest hasks hlen hv hmin hmax hhighest)
  case opKnown => exact Does.of rfl (Dev.opStatus_known hasks hlen hop)
  case opUnknown => exact Does.of rfl (Dev.opStatus_unknown hasks hlen hnone)
  case regRead =>
    subst hn
    exact Does.of rfl (Dev.regRead_inBlocks hmin hmax haligned hblocks hasks hlen)
  case regWrite =>
    subst hn
    exact Does.of rfl (Dev.regWrite_inBlocks hmin hmax haligned hblocks hasks hlen)
  case events =>
    exact Does.of rfl (Dev.short_says hasks (by
      rw [Dev.submit_ev, hqueue]
      exact Dev.readRecords_left hlen hmin hmax hgone hnext hspan hends))
  case log =>
    exact Does.of rfl (Dev.short_says hasks (by
      rw [Dev.submit_ev, hlog]
      exact Dev.readRecords_left hlen hmin hmax hgone hnext hspan hends))
  case subscribe => exact Does.of rfl (Dev.eventSubscribe_kept hasks hlen hsev hrsvd)
  case telemetry =>
    subst hoff
    exact Does.of rfl (Dev.telemetry_ofInstance hasks hlen hpage hn haligned hrange hon)
  case unsupported =>
    exact Does.of rfl (Dev.unsupportedType_refused hlistens hgood htype hundefined hsession hnew)
  case nqn =>
    subst hinst
    exact Does.of rfl (Dev.nqnSet_free hasks hmin hlen hmax hon hfree)

end Sys2Proof.Machine

/-! SUPPORT. Check contexts (R379 to R381, R383, R384): what a GO does, how a FEED ends and what an engine reset leaves, and the
statement CheckCommands. -/
namespace Sys2Proof.Machine

/-! ## A GO on a context (R379, R383) -/

section Go
variable {d : Dev} {ag : Agent} {x : Nat} {f : Dev → Dev}

theorem Dev.ctxGo_refused (hforeign : d.ctxReach ag x = false) : d.ctxGo ag x f = d.ctxRefuse ag x := by
  simp [Dev.ctxGo, hforeign]

variable (hreach : d.ctxReach ag x = true)
include hreach

theorem Dev.ctxGo_idle (hidle : d.rd .CHK_CTX_CFG_STATE x = 0) : d.ctxGo ag x f = f d := by
  simp [Dev.ctxGo, hreach, hidle]

theorem Dev.ctxGo_busy (hbusy : d.rd .CHK_CTX_CFG_STATE x = 1) : d.ctxGo ag x f = d.cnt .CHK_CTX_BUSY_CNT x := by
  simp [Dev.ctxGo, hreach, hbusy]

theorem Dev.ctxGo_retired (hretired : d.rd .CHK_CTX_CFG_STATE x = 3) : d.ctxGo ag x f = d := by
  simp [Dev.ctxGo, hreach, hretired]

end Go

/-! ## The end of a FEED (R381) -/

theorem Dev.feedDone_good {d : Dev} {x : Nat} {f : Feed} (hfeed : amFind x d.chk.feeds = some f) (hquiet : f.notify = false)
    (hallowed : d.memAllowed f.inst f.src f.len = true) (hgood : d.poisoned f.src f.len = false) (hgen : d.gen f.inst = f.gen) :
    d.feedDone x .none =
      (({ d with chk.feeds := amDel x d.chk.feeds } : Dev).wr64 .CHK_CTX_VAL_LO .CHK_CTX_VAL_HI
        ((d.ctxAlg x).feed f.saved (d.readMem f.src f.len)) x).wr .CHK_CTX_CFG_STATE 0 x := by
  let e : Dev := { d with chk.feeds := amDel x d.chk.feeds }
  have hends : (!e.memAllowed f.inst f.src f.len || e.poisoned f.src f.len || e.gen f.inst != f.gen) = false := by
    rw [show e.memAllowed f.inst f.src f.len = true from hallowed, show e.poisoned f.src f.len = false from hgood,
      show e.gen f.inst = f.gen from hgen]
    simp
  simp only [Dev.feedDone, hfeed, reduceCtorEq, if_false]
  rw [if_neg (by simpa using hends)]
  simp only [hquiet]
  rfl

/-! ## Engine reset (R384) -/

theorem amFind_filter {α : Type} (j : Nat) (keep : Nat → Bool) (m : AMap α) :
    amFind j (m.filter (fun p => keep p.1)) = if keep j then amFind j m else none := by
  induction m with
  | nil => simp [amFind]
  | cons p m ih =>
    obtain ⟨i, v⟩ := p
    by_cases hij : i = j
    · subst hij
      cases hk : keep i <;> simp [amFind, hk, ih]
    · cases hk : keep i <;> simp [amFind, hk, ih, hij]

@[simp] theorem Dev.wrAll_ram (f : Fld) (v : Nat) (is : List Nat) : ∀ d : Dev, (d.wrAll f v is).ram = d.ram := by
  induction is with
  | nil => exact fun _ => rfl
  | cons i is ih => exact fun d => ih (d.wr f v i)

@[simp] theorem Dev.wrAll_chk (f : Fld) (v : Nat) (is : List Nat) : ∀ d : Dev, (d.wrAll f v is).chk = d.chk := by
  induction is with
  | nil => exact fun _ => rfl
  | cons i is ih => exact fun d => ih (d.wr f v i)

theorem Dev.rd_wrAll (f g : Fld) (v j : Nat) (is : List Nat) :
    ∀ d : Dev, (d.wrAll f v is).rd g j = if g = f ∧ j ∈ is then v % 2 ^ f.width else d.rd g j := by
  induction is with
  | nil => intro d; simp [Dev.wrAll]
  | cons i is ih =>
    intro d
    rw [Dev.wrAll, ih, Dev.rd_wr]
    by_cases hg : g = f <;> by_cases hi : j = i <;> by_cases his : j ∈ is <;> simp [hg, hi, his]

theorem mem_ctxsOf {e x : Nat} : x ∈ ctxsOf e ↔ x / 64 = e := by
  simp only [ctxsOf, List.mem_map, List.mem_range]
  constructor
  · rintro ⟨c, hc, rfl⟩; omega
  · intro h; exact ⟨x % 64, by omega, by omega⟩

/-- Fields cleared one after another at the same indices. -/
def Dev.clearAll (d : Dev) (fs : List Fld) (is : List Nat) : Dev := fs.foldl (fun d f => d.wrAll f 0 is) d

@[simp] theorem Dev.clearAll_ram (d : Dev) (fs : List Fld) (is : List Nat) : (d.clearAll fs is).ram = d.ram :=
  foldl_keep Dev.ram _ (fun d f => Dev.wrAll_ram f 0 is d) fs d

@[simp] theorem Dev.clearAll_chk (d : Dev) (fs : List Fld) (is : List Nat) : (d.clearAll fs is).chk = d.chk :=
  foldl_keep Dev.chk _ (fun d f => Dev.wrAll_chk f 0 is d) fs d

theorem Dev.rd_clearAll (g : Fld) {j : Nat} {is : List Nat} (hj : j ∈ is) (fs : List Fld) :
    ∀ d : Dev, (d.clearAll fs is).rd g j = if g ∈ fs then 0 else d.rd g j := by
  induction fs with
  | nil => intro d; simp [Dev.clearAll]
  | cons f fs ih =>
    intro d
    show ((d.wrAll f 0 is).clearAll fs is).rd g j = _
    rw [ih, Dev.rd_wrAll]
    by_cases hg : g = f <;> by_cases hgs : g ∈ fs <;> simp [hg, hgs, hj]

@[simp] theorem Dev.dropPairs_ram (d : Dev) (lost : Fld → Nat → Bool) : (d.dropPairs lost).ram = d.ram := rfl
@[simp] theorem Dev.dropPairs_chk (d : Dev) (lost : Fld → Nat → Bool) : (d.dropPairs lost).chk = d.chk := rfl
@[simp] theorem Dev.dropPairs_rd (d : Dev) (lost : Fld → Nat → Bool) (f : Fld) (i : Nat) : (d.dropPairs lost).rd f i = d.rd f i :=
  rfl

/-- What the contexts of a check engine feed is forgotten, and the operands of their SETs. -/
def Dev.dropFeeds (d : Dev) (e : Nat) : Dev :=
  { d with chk.feeds := d.chk.feeds.filter (fun p => p.1 / 64 != e)
           chk.operand := d.chk.operand.filter (fun p => p.1 / 64 != e) }

/-- The fields of a check context that an engine reset clears. -/
def checkFields : List Fld :=
  [.CHK_CTX_CFG_INSTANCE, .CHK_CTX_CFG_ALG, .CHK_CTX_CFG_MODE, .CHK_CTX_CFG_STATE, .CHK_CTX_SRC_LO, .CHK_CTX_SRC_HI, .CHK_CTX_LEN,
    .CHK_CTX_VAL_LO, .CHK_CTX_VAL_HI, .CHK_CTX_RES_LO, .CHK_CTX_RES_HI, .CHK_CTX_BUSY_CNT]

section Reset
variable {d : Dev} {e : Nat} (hlive : d.rd .CHK_CTX_CFG_STATE (e * 64) ≠ 3)
include hlive

/-- The engine is not retired. -/
theorem Dev.checkReset_live :
    d.checkReset e = ((d.dropFeeds e).clearAll checkFields (ctxsOf e)).dropPairs (fun f i => checkFields.contains f && i / 64 == e) := by
  rw [Dev.checkReset]
  exact if_neg (by simpa using hlive)

theorem Dev.checkReset_context {x : Nat} (hx : x / 64 = e) :
    amFind x (d.checkReset e).chk.feeds = none ∧ (d.checkReset e).rd .CHK_CTX_CFG_STATE x = 0 ∧ (d.checkReset e).ctxVal x = 0 := by
  have hcleared {f : Fld} (hf : f ∈ checkFields) : (d.checkReset e).rd f x = 0 := by
    rw [Dev.checkReset_live hlive, Dev.dropPairs_rd, Dev.rd_clearAll f (mem_ctxsOf.mpr hx), if_pos hf]
  have hdropped : amFind x (d.dropFeeds e).chk.feeds = none := by
    rw [Dev.dropFeeds, amFind_filter x (fun k => k / 64 != e), hx]
    simp
  refine ⟨?_, hcleared (by decide), ?_⟩
  · rw [Dev.checkReset_live hlive, Dev.dropPairs_chk, Dev.clearAll_chk, hdropped]
  · rw [Dev.ctxVal, Dev.rd64, hcleared (by decide), hcleared (by decide), Nat.mul_zero]

theorem Dev.checkReset_ram : (d.checkReset e).ram = d.ram := by
  rw [Dev.checkReset_live hlive, Dev.dropPairs_ram, Dev.clearAll_ram]
  rfl

end Reset

/-- Settles O46: a GO by what stands in its way, the end of a FEED, and an engine reset. -/
theorem checkCommands : Obligations.CheckCommands := by
  refine ⟨⟨fun s ag x f t hreach hidle => ⟨?init, ?set, ?feed⟩, fun s x f hfeed hquiet hallowed hgood hgen => ?feedDone,
    fun s g hlive => ?reset⟩, fun s ag x n f t c hc => ?refusals⟩
  case init => exact Does.of rfl (Dev.ctxGo_idle hreach hidle)
  case set => exact Does.of rfl (Dev.ctxGo_idle hreach hidle)
  case feed =>
    refine ⟨_, Does.of rfl (Dev.ctxGo_idle hreach hidle), ?_, fun _ => rfl, ?_⟩
    · exact Dev.rd_wr_same ..
    · exact (amFind_amPut ..).trans (if_pos rfl)
  case feedDone => exact Does.of rfl (Dev.feedDone_good hfeed hquiet hallowed hgood hgen)
  case reset =>
    exact Ends.of rfl ⟨fun x hx => Dev.checkReset_context hlive hx, SameMem.of_ram (Dev.checkReset_ram hlive)⟩
  case refusals =>
    obtain ⟨go, hgo⟩ : ∃ go : Dev → Dev, exec c s = .next { s with dev := s.dev.ctxGo ag x go } := by
      simp only [List.mem_cons, List.not_mem_nil, or_false] at hc
      rcases hc with rfl | rfl | rfl <;> exact ⟨_, rfl⟩
    exact ⟨fun hforeign => Does.of hgo (Dev.ctxGo_refused hforeign), fun hreach hbusy => Does.of hgo (Dev.ctxGo_busy hreach hbusy),
      fun hreach hretired => Does.of hgo (Dev.ctxGo_retired hreach hretired)⟩

end Sys2Proof.Machine

/-! SUPPORT. Share writes, epochs and the end of a second (R387, R391, R487), and the statement ShareCommands. -/
namespace Sys2Proof.Machine

/-! ## The register at an address of an instance's copy (R8, R9) -/

/-- Blocks do not overlap: the block that an address lies in is the one that a search finds. -/
theorem blockOf_eq_some {a : Nat} {b : Block} (hb : b ∈ Block.all) (hlow : b.base ≤ a) (hhigh : a < b.limit) :
    blockOf a = some b := by
  have hapart : Block.all.Pairwise (fun x y => x.limit ≤ y.base) := by decide
  obtain ⟨before, after, hall⟩ := List.append_of_mem hb
  rw [hall] at hapart
  refine List.find?_eq_some_iff_append.mpr ⟨by simp [hlow, hhigh], before, after, hall, fun c hc => ?_⟩
  have hbelow : c.limit ≤ b.base := (List.pairwise_append.mp hapart).2.2 c hc b List.mem_cons_self
  simp only [Bool.not_eq_true', decide_eq_false_iff_not]
  omega

theorem resolve_eq_reg {a o i : Nat} {b : Block} {r : RegDef} (hblock : blockOf a = some b) (hio : b ≠ .core)
    (hoffset : a - b.base = o) (hfound : findReg o b.regs = some (r, i)) : ∃ copy, resolve 0 a = .reg b copy r i :=
  ⟨_, by simp only [resolve, hblock, hoffset, hfound, hio, if_false]; rfl⟩

/-- One word in each copy of 4 KiB: an offset in copy `k` meets it where the offset in the copy is the register's. -/
theorem RegDef.hit_inCopy {r : RegDef} {k o : Nat} (hcopies : r.cstride = 0x1000) (hone : r.n = 1) (hflat : r.stride = 0)
    (hoff : r.off < 0x1000) (ho : o < 0x1000) (hk : k < r.copies) :
    r.hit (k * 0x1000 + o) = if o = r.off then some k else none := by
  simp only [RegDef.hit, hcopies, hone, hflat]
  by_cases heq : o = r.off
  · have hcopy : (k * 0x1000 + o - r.off) / 0x1000 = k := by omega
    have hrest : k * 0x1000 + o - r.off - k * 0x1000 = 0 := by omega
    simp [heq]
    omega
  · have hrest : ¬ k * 0x1000 + o < r.off → ¬ k * 0x1000 + o - r.off - (k * 0x1000 + o - r.off) / 0x1000 * 0x1000 = 0 := by omega
    simp [heq]
    omega

/-- The register CORES. -/
def coresReg : RegDef := ⟨.ins, 0x14, 256, 0x1000, 1, 0, [.INS_CORES_CORES_NOW, .INS_CORES_CORES_MIN]⟩

theorem findReg_cores {n : Nat} (hn : n < 256) : findReg (n * 0x1000 + 0x14) Block.ins.regs = some (coresReg, n) := by
  have hhit {r : RegDef} (hcopies : r.copies = 256) (hcstride : r.cstride = 0x1000) (hone : r.n = 1) (hflat : r.stride = 0)
      (hoff : r.off < 0x1000) := RegDef.hit_inCopy (o := 0x14) hcstride hone hflat hoff (by decide) (hcopies ▸ hn)
  have hmiss {r : RegDef} (rs : List RegDef) (h : r.hit (n * 0x1000 + 0x14) = none) :
      findReg (n * 0x1000 + 0x14) (r :: rs) = findReg (n * 0x1000 + 0x14) rs := by rw [findReg, h]
  rw [show Block.ins.regs = regs_ins from rfl, regs_ins, hmiss _ (hhit rfl rfl rfl rfl (by decide)),
    hmiss _ (hhit rfl rfl rfl rfl (by decide)), hmiss _ (hhit rfl rfl rfl rfl (by decide)), findReg,
    show RegDef.hit _ _ = some n from hhit rfl rfl rfl rfl (by decide)]
  rfl

theorem resolve_cores {n : Nat} (hn : n < 256) :
    ∃ copy, resolve 0 (Block.ins.base + n * 0x1000 + 0x14) = .reg .ins copy coresReg n := by
  refine resolve_eq_reg (blockOf_eq_some (by decide) (by omega) ?_) (by decide) ?_ (findReg_cores hn)
  · simp only [Block.base, Block.limit]
    omega
  · omega

/-! ## Share writes (R391) -/

/-- Where no write waits, a field will hold what it holds. -/
theorem Dev.shareNext_noneWaits {d : Dev} (hnone : d.shr.waiting = []) (n : Nat) (f : Fld) : d.shareNext n f = d.rd f n := by
  simp [Dev.shareNext, hnone]

section CoresMin
variable {d : Dev} {n w : Nat} (hn : n < 256) (hreserved : reservedBits [.INS_CORES_CORES_NOW, .INS_CORES_CORES_MIN] w = false)
  (hlegal : d.legal .INS_CORES_CORES_MIN n w (bitsOf Fld.INS_CORES_CORES_MIN.info.hi Fld.INS_CORES_CORES_MIN.info.lo w) = true)
include hn hreserved hlegal

/-- A word for CORES that sets no reserved bit and gives CORES_MIN a legal value is a write of that one field. -/
theorem Dev.shareWrite_coresMin :
    d.shareWrite n 0x14 w =
      d.shareField n 0x14 .INS_CORES_CORES_MIN (bitsOf Fld.INS_CORES_CORES_MIN.info.hi Fld.INS_CORES_CORES_MIN.info.lo w) := by
  obtain ⟨copy, hresolve⟩ := resolve_cores hn
  simp [Dev.shareWrite, shareFlds, hresolve, coresReg, hreserved, hlegal]

end CoresMin

section Field
variable {d : Dev} {n off v : Nat} {f : Fld} (hnone : d.shr.waiting = []) (hchange : v ≠ d.rd f n)
include hnone hchange

theorem Dev.shareField_accepted (hok : d.shareRejects n f v = false) :
    d.shareField n off f v =
      ({ d with shr.waiting := [⟨n, f, v⟩] } : Dev).raiseI n 0xC003
        [(1, n), (2, off), (4, d.rd f n), (4, v), (4, d.now / 10000 + 1)] := by
  simp [Dev.shareField, Dev.shareNext_noneWaits hnone, hchange, hok, hnone]

theorem Dev.shareField_rejected (hbreaks : d.shareRejects n f v = true) :
    d.shareField n off f v = d.raiseI n 0xC002 [(1, n), (2, off)] := by
  simp [Dev.shareField, Dev.shareNext_noneWaits hnone, hchange, hbreaks]

end Field

/-! ## The boundary of an epoch (R387, R391) -/

/-- Showing the epoch's use writes registers only. -/
def Dev.showUse (d : Dev) (n : Nat) : Dev :=
  ((d.wr .INS_EPOCH_USE_CODEC_USE_PM (d.epochUse 0 n) n).wr .INS_EPOCH_USE_MEM_USE_PM (d.epochUse 1 n) n).wr
    .INS_EPOCH_USE_FLASH_USE_PM (d.epochUse 2 n) n

/-- An epoch begins anew, with the instances' use shown and added to that of the second. -/
def Dev.newEpoch (d : Dev) : Dev :=
  let e := ((List.range 256).filter d.insOn).foldl Dev.showUse d
  let add := fun (m : AMap Nat) (p : Nat × Nat) => amMod 0 p.1 (· + p.2) m
  { e with shr.used := [], shr.extra := [], shr.epoch := d.now / 10000
           shr.secUse := e.shr.extra.foldl add (e.shr.used.foldl add e.shr.secUse) }

theorem Dev.newEpoch_waiting (d : Dev) : d.newEpoch.shr.waiting = d.shr.waiting :=
  congrArg (·.waiting) (foldl_keep Dev.shr Dev.showUse (fun _ _ => rfl) _ d)

theorem Dev.newEpoch_ram (d : Dev) : d.newEpoch.ram = d.ram := foldl_keep Dev.ram Dev.showUse (fun _ _ => rfl) _ d

theorem Dev.epochBoundary_past {d : Dev} (hpast : d.shr.epoch < d.now / 10000) :
    d.epochBoundary = d.newEpoch.applyShares (fun w => decide (w.fld ≠ .INS_SLUICE)) :=
  if_neg (Nat.not_le.mpr hpast)

/-- The one write that waits, to neither the capacity nor the sluice. -/
theorem Dev.applyShares_one {d : Dev} {w : ShareWrite} (hone : d.shr.waiting = [w]) (hcores : w.fld = .INS_CORES_CORES_MIN) :
    d.applyShares (fun w => decide (w.fld ≠ .INS_SLUICE)) =
      ({ d with shr.waiting := [] } : Dev).wr .INS_CORES_CORES_MIN w.value w.inst := by
  simp [Dev.applyShares, hone, hcores]

/-! ## The end of a second (R487) -/

/-- The key under which yields of instance `n` at a point are counted. -/
theorem Dev.raiseCount_yield {d : Dev} {n point t k : Nat} (hn : n < 256) (hpoint : point < 16) :
    d.raiseCount (0xC201 * 2 ^ 24 + n * 16 + point, t, k) = d.raiseI n 0xC201 [(1, n), (2, point), (4, k)] := by
  have hitem : (0xC201 * 2 ^ 24 + n * 16 + point) % 2 ^ 24 = n * 16 + point := by omega
  have hcode : (0xC201 * 2 ^ 24 + n * 16 + point) / 2 ^ 24 = 0xC201 := by omega
  have hinst : (n * 16 + point) / 16 = n := by omega
  have hat : (n * 16 + point) % 16 = point := by omega
  simp only [Dev.raiseCount, hitem, hcode, hinst, hat, if_true]

theorem Dev.secondEnd_one {d : Dev} {key t k : Nat} (hone : d.ev.counts = [(key, (t, k))]) (hended : t < d.second)
    (hshown : d.second ≤ d.shr.second) (hkeeps : ∀ e : Dev, (e.raiseCount (key, t, k)).shr = e.shr) :
    d.secondEnd = ({ d with ev.counts := [] } : Dev).raiseCount (key, t, k) := by
  simp [Dev.secondEnd, hone, hended, hkeeps, hshown]

/-- Settles O48: a share write is one field's, an epoch boundary lets it take effect, and the end of a second raises a count. -/
theorem shareCommands : Obligations.ShareCommands := by
  refine ⟨⟨fun s n v hmin hmax hnone hreserved hlegal hchange => ⟨fun hok => ?accepted, fun hbreaks => ?rejected⟩,
    fun s w hpast hone hcores hvalue => ?boundary⟩, fun s n point t k hn hpoint hone hended hshown => ?second⟩
  case accepted =>
    exact Does.of rfl ((Dev.shareWrite_coresMin n.isLt hreserved hlegal).trans (Dev.shareField_accepted hnone hchange hok))
  case rejected =>
    exact Does.of rfl ((Dev.shareWrite_coresMin n.isLt hreserved hlegal).trans (Dev.shareField_rejected hnone hchange hbreaks))
  case boundary =>
    have hwaiting := (Dev.newEpoch_waiting s.dev).trans hone
    refine ⟨_, Does.of rfl ((Dev.epochBoundary_past hpast).trans (Dev.applyShares_one hwaiting hcores)), rfl, rfl, rfl, rfl, ?_,
      SameMem.of_ram (Dev.newEpoch_ram s.dev)⟩
    rw [Dev.rd_wr_same]
    exact Nat.mod_eq_of_lt hvalue
  case second =>
    refine Does.of rfl ((Dev.secondEnd_one hone hended hshown fun e => ?_).trans (Dev.raiseCount_yield hn hpoint))
    rw [Dev.raiseCount_yield hn hpoint, Dev.raiseI_shr]

end Sys2Proof.Machine

/-! SUPPORT. Mailboxes and telemetry of instances (R396 to R401), and the statement MailboxCommands. -/
namespace Sys2Proof.Machine

variable {d : Dev}

/-! ## The two queues of an instance -/

@[simp] theorem Dev.mbxIn_setIn (d : Dev) (n : Nat) (ms : List (List Byte)) : (d.setIn n ms).mbxIn n = ms := amGet_amSet_same ..
@[simp] theorem Dev.mbxOut_setIn (d : Dev) (n k : Nat) (ms : List (List Byte)) : (d.setIn n ms).mbxOut k = d.mbxOut k := rfl
@[simp] theorem Dev.setIn_ram (d : Dev) (n : Nat) (ms : List (List Byte)) : (d.setIn n ms).ram = d.ram := rfl
@[simp] theorem Dev.mbxOut_setOut (d : Dev) (n : Nat) (ms : List (List Byte)) : (d.setOut n ms).mbxOut n = ms := amGet_amSet_same ..
@[simp] theorem Dev.mbxIn_setOut (d : Dev) (n k : Nat) (ms : List (List Byte)) : (d.setOut n ms).mbxIn k = d.mbxIn k := rfl
@[simp] theorem Dev.setOut_ram (d : Dev) (n : Nat) (ms : List (List Byte)) : (d.setOut n ms).ram = d.ram := rfl

theorem SameRegs.setIn (d : Dev) (n : Nat) (ms : List (List Byte)) :
    SameRegs (fun f i => f == .INS_MBX_STATUS_IN_COUNT && i == n) d (d.setIn n ms) := by
  intro f i hother
  have hne : ¬(f = .INS_MBX_STATUS_IN_COUNT ∧ i = n) := by simpa using hother
  rw [Dev.setIn, Dev.rd_wr, if_neg hne]
  rfl

/-! ## POP and PUSH (R399) -/

theorem Dev.mbxPop_oldest {n : Nat} {m : List Byte} {ms : List (List Byte)} (hin : d.mbxIn n = m :: ms) :
    d.mbxPop n = d.setIn n ms := by
  simp only [Dev.mbxPop, hin]

/-- What PUSH sends: the next sequence number, the device time and the bytes of the buffer. -/
def Dev.outMessage (d : Dev) (n len type : Nat) : List Byte :=
  mbxMsg type (amGet 0 n d.ins.outSeq + 1) d.now
    (((List.range 252).flatMap (fun k => leBytes 4 (d.rd .INS_MBX_OUT (n * 256 + k)))).take len)

section Push
variable {n len : Nat} (hn : n ≠ 0) (hlen : len ≤ 1008) (type : Nat)
include hn hlen

theorem Dev.mbxPush_full (hfull : 16 ≤ (d.mbxOut n).length) : d.mbxPushCmd n len type = d.raiseI n 0xC103 [(1, n)] := by
  simp [Dev.mbxPushCmd, Dev.mbxPush, hn, Nat.not_lt.mpr hlen, hfull]

/-- A queue that holds messages already: no host is told. -/
theorem Dev.mbxPush_behind (hheld : d.mbxOut n ≠ []) (hroom : (d.mbxOut n).length < 16) :
    d.mbxPushCmd n len type =
      ({ d with ins.outSeq := amSet 0 n ((amGet 0 n d.ins.outSeq + 1) % 2 ^ 32) d.ins.outSeq } : Dev).setOut n
        (d.mbxOut n ++ [d.outMessage n len type]) := by
  simp [Dev.mbxPushCmd, Dev.mbxPush, hn, Nat.not_lt.mpr hlen, Nat.not_le.mpr hroom, hheld]
  rfl

end Push

/-! ## The host's end (R397, R398, R401) -/

section Host
variable {h : Nat} {c : HCmd} {k : Ctrl}

section Send
variable (hready : d.readyAdmin h 0xC0 c k) (hinst : c.inst ≠ 0) (hmin : 1 ≤ cdw 10 c.sqe) (hmax : cdw 10 c.sqe ≤ 1008)
  (htype : cdw 11 c.sqe < 65536) (hdata : cdw 10 c.sqe ≤ c.data.length)
include hready hinst hmin hmax htype hdata

/-- The reserved bits are clear and the length is one that a message may have. -/
theorem Dev.mailboxSend_wellFormed :
    d.mailboxSend h =
      if 16 ≤ (d.mbxIn c.inst).length then (d.raiseI c.inst 0xC104 [(1, c.inst)]).capRetry h 0x91
      else
        let seq := amGet 0 c.inst d.ins.inSeq + 1
        let e : Dev := { d with ins.inSeq := amSet 0 c.inst (seq % 2 ^ 32) d.ins.inSeq }
        ((e.setIn c.inst (d.mbxIn c.inst ++ [mbxMsg (cdw 11 c.sqe) seq d.now (c.data.take (cdw 10 c.sqe))])).raiseI c.inst 0xC101
          [(1, c.inst), (2, seq), (2, cdw 11 c.sqe)]).succeed h seq 0 := by
  have hlen : bitsOf 9 0 (cdw 10 c.sqe) = cdw 10 c.sqe := by simp only [bitsOf]; omega
  have hkind : bitsOf 15 0 (cdw 11 c.sqe) = cdw 11 c.sqe := by simp only [bitsOf]; omega
  have hfields : ¬(c.inst = 0 ∨ cdw 10 c.sqe / 1024 ≠ 0 ∨ cdw 11 c.sqe / 65536 ≠ 0 ∨ cdw 10 c.sqe = 0 ∨ 1008 < cdw 10 c.sqe) := by
    omega
  rw [Dev.mailboxSend, Dev.onAdmin_ready hready]
  simp only [hlen, hkind, if_neg hfields, Dev.withData_enough hdata]
  rfl

end Send

section Receive
variable (hready : d.readyAdmin h 0xC1 c k) (hinst : c.inst ≠ 0)
include hready hinst

theorem Dev.mailboxReceive_oldest {m : List Byte} {ms : List (List Byte)} (hout : d.mbxOut c.inst = m :: ms) :
    d.mailboxReceive h = (d.setOut c.inst ms).answer c (sliceB 0 1024 m) ms.length 0 := by
  rw [Dev.mailboxReceive, Dev.onAdmin_ready hready]
  simp only [if_neg hinst, hout]

theorem Dev.mailboxReceive_empty (hout : d.mbxOut c.inst = []) : d.mailboxReceive h = d.capRetry h 0x92 := by
  rw [Dev.mailboxReceive, Dev.onAdmin_ready hready]
  simp only [if_neg hinst, hout]

end Receive

end Host

/-- Settles O49: the core's end of each queue, and the host's. -/
theorem mailboxCommands : Obligations.MailboxCommands := by
  refine ⟨⟨fun s n m ms hin => ?pop, fun s n len type hn hlen hheld hroom => ?push, fun s n len type hn hlen hfull => ?pushFull⟩,
    fun s h len type c k hready hinst hcdw10 hcdw11 hmin hmax htype hdata => ⟨fun hroom => ?send, fun hfull => ?sendFull⟩,
    fun s h c k hready hinst => ⟨fun m ms hout => ?receive, fun hout => ?receiveEmpty⟩, fun s h c k hready => ?telemetry⟩
  case pop =>
    exact ⟨_, Does.of rfl (Dev.mbxPop_oldest hin), Dev.mbxIn_setIn .., Dev.mbxOut_setIn .., SameMem.of_ram (Dev.setIn_ram ..),
      SameRegs.setIn _ _ _⟩
  case push =>
    exact ⟨_, Does.of rfl (Dev.mbxPush_behind (Fin.val_ne_of_ne hn) hlen type.toNat hheld hroom),
      SameMem.of_ram (Dev.setOut_ram ..), Dev.mbxOut_setOut ..⟩
  case pushFull => exact Does.of rfl (Dev.mbxPush_full (Fin.val_ne_of_ne hn) hlen type.toNat hfull)
  case send =>
    subst hcdw10 hcdw11
    exact Does.of rfl ((Dev.mailboxSend_wellFormed hready hinst hmin hmax htype hdata).trans (if_neg (Nat.not_le.mpr hroom)))
  case sendFull =>
    subst hcdw10 hcdw11
    exact Does.of rfl ((Dev.mailboxSend_wellFormed hready hinst hmin hmax htype hdata).trans (if_pos hfull))
  case receive => exact Does.of rfl (Dev.mailboxReceive_oldest hready hinst hout)
  case receiveEmpty => exact Does.of rfl (Dev.mailboxReceive_empty hready hinst hout)
  case telemetry => exact Does.of rfl (Dev.onAdmin_ready hready _)

end Sys2Proof.Machine

/-! SUPPORT. The electrical interface, after reset and hold-up (spec/16_electrical.md, R458, R461, R464, R475–R478). -/
namespace Sys2Proof.Machine

/-! ## Sensors and thermal levels (R476–R478) -/

/-- A field that is no sensor reads as before, whatever the sensors read. -/
theorem Dev.rd_setSensors_fld {f : Fld} (h : f ≠ .THM_SENSOR) (i : Nat) (ts : List Nat) :
    ∀ (d : Dev) (k : Nat), (d.setSensors k ts).rd f i = d.rd f i := by
  induction ts with
  | nil => intro d k; rfl
  | cons t ts ih => intro d k; rw [Dev.setSensors, ih, Dev.rd_wr_fld _ h]

/-- The sensors below the first one set read as before. -/
theorem Dev.rd_setSensors_below {n : Nat} (ts : List Nat) :
    ∀ (d : Dev) (k : Nat), n < k → (d.setSensors k ts).rd .THM_SENSOR n = d.rd .THM_SENSOR n := by
  induction ts with
  | nil => intro d k _; rfl
  | cons t ts ih => intro d k h; rw [Dev.setSensors, ih _ _ (by omega), Dev.rd_wr_idx _ _ (by omega)]

/-- Each sensor reads its own sample, cut to the field. -/
theorem Dev.rd_setSensors (ts : List Nat) :
    ∀ (d : Dev) (k n : Nat) (h : n < ts.length), (d.setSensors k ts).rd .THM_SENSOR (k + n) = ts[n] % 256 := by
  induction ts with
  | nil => intro d k n h; exact absurd h (Nat.not_lt_zero n)
  | cons t ts ih =>
    intro d k n h
    cases n with
    | zero =>
      show (d.setSensors k (t :: ts)).rd .THM_SENSOR k = t % 256
      rw [Dev.setSensors, Dev.rd_setSensors_below _ _ _ (Nat.lt_succ_self k), Dev.rd_wr_same]
      rfl
    | succ n =>
      rw [Dev.setSensors, ← Nat.add_assoc, Nat.add_right_comm]
      exact ih _ _ n (by simpa using h)

@[simp] theorem Dev.setSensors_avl (ts : List Nat) : ∀ (d : Dev) (k : Nat), (d.setSensors k ts).avl = d.avl := by
  induction ts with
  | nil => intro d k; rfl
  | cons t ts ih => intro d k; rw [Dev.setSensors, ih, Dev.wr_avl]

/-- The stacks report as before. -/
@[simp] theorem Dev.stackMax_setSensors (d : Dev) (k : Nat) (ts : List Nat) : (d.setSensors k ts).stackMax = d.stackMax := by
  simp [Dev.stackMax, Dev.rd_setSensors_fld]

/-- The sensors read back as the list that was sampled. -/
theorem Dev.sensors_setSensors (d : Dev) {ts : List Nat} (h : ∀ t ∈ ts, t < 256) :
    (List.range ts.length).map (fun n => (d.setSensors 0 ts).rd .THM_SENSOR n) = ts := by
  refine List.ext_getElem (by simp) fun n hn hn' => ?_
  have hread := d.rd_setSensors ts 0 n hn'
  rw [Nat.zero_add, Nat.mod_eq_of_lt (h _ (List.getElem_mem hn'))] at hread
  simpa using hread

/-- The greatest of a list lies under every bound above zero that all of it lies under. -/
theorem foldl_max_lt {b : Nat} {ts : List Nat} (h : ∀ t ∈ ts, t < b) : ∀ m < b, ts.foldl max m < b := by
  induction ts with
  | nil => exact fun m hm => hm
  | cons t ts ih =>
    intro m hm
    rw [List.foldl_cons]
    exact ih (fun u hu => h u (List.mem_cons_of_mem _ hu)) _ (max_lt hm (h t List.mem_cons_self))

/-- A reading below the trips (R477): shown, and the levels follow. -/
theorem Dev.sensorRead_below (d : Dev) (temps : List Nat) (f : Found) (fl : Flush) (hhold : d.avl.tripHold = false)
    (hlen : temps.length = 24) (hcool : ∀ t ∈ temps, t < 98) (hstack : d.stackMax < 100) :
    d.sensorRead temps f fl =
      (let tj := temps.foldl max 0
       let old := d.avl.thermal
       let e := ((d.setSensors 0 temps).wr .THM_STATUS_TJ_MAX tj).wr .THM_STATUS_STACK_MAX d.stackMax
       ({ e with avl.thermal := thermalNext old tj }.noteThresholds old (thermalNext old tj) tj).thermalApply) := by
  have htake : temps.take 24 = temps := List.take_of_length_le (by omega)
  have hread := d.sensors_setSensors (fun t ht => Nat.lt_trans (hcool t ht) (by decide))
  rw [hlen] at hread
  have htj : ¬ (98 ≤ temps.foldl max 0 ∨ 100 ≤ d.stackMax) := by
    have := foldl_max_lt hcool 0 (by decide)
    omega
  unfold Dev.sensorRead
  simp only [htake, hread, Dev.stackMax_setSensors, Dev.wr_avl, Dev.setSensors_avl, hhold, if_neg htj]
  rfl

/-! ## The power cap (R458) -/

/-- Power above a cap in force, noted for the first time. -/
theorem Dev.powerCapCheck_above (d : Dev) (dw : Nat) (hcap : d.rd .THM_CTRL_CAP_W < 520)
    (habove : d.rd .THM_CTRL_CAP_W * 10 < dw) (hfirst : d.avl.capped = false) :
    d.powerCapCheck dw =
      ({ (d.wr .THM_POWER dw).raise 0xE062 [(2, dw), (2, d.rd .THM_CTRL_CAP_W)] with
          avl.capped := true, avl.capBelow := none } : Dev).thermalApply := by
  have hrd : (d.wr .THM_POWER dw).rd .THM_CTRL_CAP_W = d.rd .THM_CTRL_CAP_W := Dev.rd_wr_fld _ (by decide) ..
  unfold Dev.powerCapCheck
  simp only [hrd, if_neg (Nat.not_le.mpr hcap), if_pos habove, Dev.wr_avl, hfirst]
  rfl

/-! ## The TAP and PERST (R464, R475) -/

theorem Dev.tapInstruction_eq (d : Dev) (code : Nat) :
    d.tapInstruction code = { d with avl.tap := if code ≤ 5 ∨ d.rd .AVL_STATUS_MODE = 7 then code else 2 } := by
  simp [Dev.tapInstruction, tapAlways]

/-- PERST of link 0 clears the mailbox of physical function 0. -/
theorem Dev.perst_zero_mailbox (d : Dev) : (d.perst 0).mgt.mbxResp = [] ∧ (d.perst 0).mgt.mbxReady = false := by
  unfold Dev.perst
  rw [if_pos rfl]
  exact ⟨rfl, rfl⟩

/-! ## Power failure (R208, R211, R461, R462) -/

/-- The input's assertion outside Hold-up. -/
theorem Dev.powerFailAssert_first (d : Dev) (fl : Flush) (h : d.avl.powerFail = false) (hmode : d.rd .AVL_STATUS_MODE ≠ 6) :
    d.powerFailAssert fl = (({ d with avl.powerFail := true } : Dev).setMode 6).flushBuffer fl := by
  have hmode' : ({ d with avl.powerFail := true } : Dev).rd .AVL_STATUS_MODE ≠ 6 := hmode
  unfold Dev.powerFailAssert Dev.enterHoldUp
  rw [if_neg (by simp [h])]
  exact if_neg hmode'

/-- The input's end in Hold-up, where no trip holds the device. -/
theorem Dev.powerFailDeassert_holdUp (d : Dev) (f : Found) (h : d.avl.tripHold = false) (hmode : d.rd .AVL_STATUS_MODE = 6) :
    d.powerFailDeassert f = ({ d with avl.powerFail := false } : Dev).coldReset 2 f := by
  have hmode' : ({ d with avl.powerFail := false } : Dev).rd .AVL_STATUS_MODE = 6 := hmode
  unfold Dev.powerFailDeassert
  exact (if_neg (by simp [h])).trans (if_pos hmode')

/-- A rail below its minimum outside Hold-up, with the power-fail input at rest. -/
theorem Dev.railUndervolt_first (d : Dev) (rail : Nat) (fl : Flush) (h : d.avl.powerFail = false)
    (hmode : d.rd .AVL_STATUS_MODE ≠ 6) :
    d.railUndervolt rail fl = ((d.raise 0xE090 [(1, rail)]).setMode 6).flushBuffer fl := by
  unfold Dev.railUndervolt Dev.enterHoldUp
  rw [if_neg hmode, if_neg (by simp [h])]

theorem Dev.railUndervolt_holdUp (d : Dev) (rail : Nat) (fl : Flush) (hmode : d.rd .AVL_STATUS_MODE = 6) :
    d.railUndervolt rail fl = d.raise 0xE090 [(1, rail)] := by
  unfold Dev.railUndervolt
  rw [if_pos hmode]

/-- Settles O58: a clause for each command, each the branch of the command that its conditions select. -/
theorem electricalCommands : Obligations.ElectricalCommands := by
  unfold Obligations.ElectricalCommands
  refine ⟨⟨?_, ?_, ?_, ?_, ?_⟩, ?_, ?_, ?_, ?_⟩
  · exact fun s temps f fl hhold hlen hcool hstack =>
      Does.of rfl (s.dev.sensorRead_below temps f fl hhold hlen hcool hstack)
  · intro d temps n t hlt hn
    obtain ⟨hin, rfl⟩ := List.getElem?_eq_some_iff.mp hn
    have hread := d.rd_setSensors temps 0 n hin
    rwa [Nat.zero_add, Nat.mod_eq_of_lt (hlt _ (List.getElem_mem hin))] at hread
  · exact fun s dw _ hcap habove hfirst => Does.of rfl (s.dev.powerCapCheck_above dw hcap habove hfirst)
  · exact fun s code => Does.of rfl (s.dev.tapInstruction_eq code)
  · exact fun s => Ends.of rfl s.dev.perst_zero_mailbox
  · exact fun s fl h hmode => Does.of rfl (s.dev.powerFailAssert_first fl h hmode)
  · exact fun s f h hmode => Does.of rfl (s.dev.powerFailDeassert_holdUp f h hmode)
  · exact fun s rail fl h hmode => Does.of rfl (s.dev.railUndervolt_first rail fl h hmode)
  · exact fun s rail fl hmode => Does.of rfl (s.dev.railUndervolt_holdUp rail fl hmode)

end Sys2Proof.Machine

/-! SUPPORT. Power-on and cold resets while the power-fail input is asserted (spec/15_availability.md, R438–R441, R462). -/
namespace Sys2Proof.Machine

/-! ## What the steps of a reset keep -/

/-- Driving the outputs low only sends. -/
theorem Dev.outputsLow_keeps {γ : Type} (P : Dev → γ) (h : ∀ d m, P (d.send m) = P d) (d : Dev) : P d.outputsLow = P d := by
  unfold Dev.outputsLow
  simp only
  split
  · rw [h]
    repeat rw [foldl_keep P _ (fun d x => h d _)]
  · repeat rw [foldl_keep P _ (fun d x => h d _)]

/-- The state as a power-on or cold reset leaves it: `d` came before the outputs went low. -/
structure Cold (d e : Dev) : Prop where
  ram : e.ram = []
  acc : e.sys.acc = 0
  active : e.img.active = none
  conns : e.hq.conns = []
  streams : e.cap.streams = []
  plog : e.ev.plog = d.ev.plog
  boot : e.mgt.boot = d.mgt.boot
  powerFail : e.avl.powerFail = d.avl.powerFail

theorem Dev.coldState_cold (d : Dev) (k : Rst) : Cold d (d.coldState k) where
  ram := rfl
  acc := rfl
  active := rfl
  conns := rfl
  streams := rfl
  plog := d.outputsLow_keeps (fun d => d.ev.plog) (fun _ _ => rfl)
  boot := d.outputsLow_keeps (fun d => d.mgt.boot) (fun _ _ => rfl)
  powerFail := d.outputsLow_keeps (fun d => d.avl.powerFail) (fun _ _ => rfl)

/-- Writes of fields and events leave it so. -/
theorem Cold.of_same {d e e' : Dev} (h : Cold d e) (hram : e'.ram = e.ram) (hsys : e'.sys = e.sys) (himg : e'.img = e.img)
    (hhq : e'.hq = e.hq) (hcap : e'.cap = e.cap) (hplog : e'.ev.plog = e.ev.plog) (hmgt : e'.mgt = e.mgt)
    (havl : e'.avl = e.avl) : Cold d e' where
  ram := hram ▸ h.ram
  acc := hsys ▸ h.acc
  active := himg ▸ h.active
  conns := hhq ▸ h.conns
  streams := hcap ▸ h.streams
  plog := hplog ▸ h.plog
  boot := hmgt ▸ h.boot
  powerFail := havl ▸ h.powerFail

theorem Dev.raise_plog (d : Dev) (code : Nat) (fs : List (Nat × Nat)) : (d.raise code fs).ev.plog = d.ev.plog := by
  simp only [Dev.raise, Dev.raiseI, Dev.record]
  split <;> rfl

theorem Cold.wr {d e : Dev} (h : Cold d e) (f : Fld) (v i : Nat) : Cold d (e.wr f v i) :=
  h.of_same rfl rfl rfl rfl rfl rfl rfl rfl

theorem Cold.raise {d e : Dev} (h : Cold d e) (code : Nat) (fs : List (Nat × Nat)) : Cold d (e.raise code fs) :=
  h.of_same rfl rfl rfl rfl rfl (e.raise_plog code fs) rfl rfl

theorem Cold.now {d e : Dev} (h : Cold d e) : e.now = 0 := by
  simp [Dev.now, h.acc]

/-- The record of the reset. -/
theorem Cold.markReset {d e : Dev} (h : Cold d e) (kind cause : Nat) : Cold d (e.markReset kind cause) :=
  ((h.wr _ _ _).wr _ _ _).raise _ _

theorem Dev.markReset_kind (d : Dev) (kind cause : Nat) : (d.markReset kind cause).rd .AVL_RESET_CAUSE_KIND = kind % 4 := by
  unfold Dev.markReset
  rw [Dev.raise_rd, Dev.rd_wr_fld _ (by decide), Dev.rd_wr_same]
  rfl

theorem Dev.markReset_cause (d : Dev) (kind cause : Nat) : (d.markReset kind cause).rd .AVL_RESET_CAUSE_CAUSE = cause % 16 := by
  unfold Dev.markReset
  rw [Dev.raise_rd, Dev.rd_wr_same]
  rfl

/-- With the power-fail input asserted the boot waits (R462). -/
theorem Dev.boot_waits {d : Dev} (h : d.avl.powerFail = true) (f : Found) : d.boot f = d := by
  unfold Dev.boot
  rw [if_pos h]

theorem Dev.noteStops_plog (d : Dev) (cause : Nat) : (d.noteStops cause).ev.plog = d.ev.plog := by
  unfold Dev.noteStops; split <;> rfl
theorem Dev.noteStops_mgt (d : Dev) (cause : Nat) : (d.noteStops cause).mgt = d.mgt := by
  unfold Dev.noteStops; split <;> rfl
theorem Dev.noteStops_powerFail (d : Dev) (cause : Nat) : (d.noteStops cause).avl.powerFail = d.avl.powerFail := by
  unfold Dev.noteStops; split <;> rfl

/-- The log copy touches the event log alone. -/
theorem Dev.logCopy_eq (d : Dev) :
    ∃ e : EvSt, d.logCopy = { d with ev := e } ∨ ∃ n, d.logCopy = ({ d with ev := e } : Dev).raise 0x0041 [(4, n)] := by
  unfold Dev.logCopy
  simp only
  split
  · exact ⟨_, .inl rfl⟩
  · exact ⟨_, .inr ⟨_, rfl⟩⟩

theorem Dev.logCopy_mgt (d : Dev) : d.logCopy.mgt = d.mgt := by
  obtain ⟨e, h | ⟨n, h⟩⟩ := d.logCopy_eq <;> rw [h]
  rw [Dev.raise_mgt]
theorem Dev.logCopy_avl (d : Dev) : d.logCopy.avl = d.avl := by
  obtain ⟨e, h | ⟨n, h⟩⟩ := d.logCopy_eq <;> rw [h]
  rw [Dev.raise_avl]

/-! ## The two resets -/

/-- A power-on reset up to the boot. -/
def Dev.powerOnState (d : Dev) (cause : Nat) : Dev := ((d.noteStops cause).coldState .p).showLife.markReset 0 cause

/-- A cold reset up to its own record. -/
def Dev.coldMarked (d : Dev) (cause : Nat) : Dev := ((d.noteStops cause).logCopy.coldState .c).markReset 1 cause

/-- A cold reset up to the boot: a change of mode is reported. -/
def Dev.coldBooting (d : Dev) (cause : Nat) : Dev :=
  if d.rd .AVL_STATUS_MODE = 0 then d.coldMarked cause
  else (d.coldMarked cause).raise 0xE001 [(1, d.rd .AVL_STATUS_MODE), (1, 0)]

theorem Dev.powerOnState_cold (d : Dev) (cause : Nat) : Cold (d.noteStops cause) (d.powerOnState cause) :=
  (((Dev.coldState_cold _ .p).wr _ _ _).wr _ _ _).markReset 0 cause

theorem Dev.coldMarked_cold (d : Dev) (cause : Nat) : Cold (d.noteStops cause).logCopy (d.coldMarked cause) :=
  (Dev.coldState_cold _ .c).markReset 1 cause

theorem Dev.coldBooting_cold (d : Dev) (cause : Nat) : Cold (d.noteStops cause).logCopy (d.coldBooting cause) := by
  unfold Dev.coldBooting
  split
  · exact d.coldMarked_cold cause
  · exact (d.coldMarked_cold cause).raise _ _

theorem Dev.coldBooting_rd (d : Dev) (cause : Nat) (f : Fld) (i : Nat) :
    (d.coldBooting cause).rd f i = (d.coldMarked cause).rd f i := by
  unfold Dev.coldBooting
  split
  · rfl
  · rw [Dev.raise_rd]

/-- A power-on reset under power-fail ends before the boot. -/
theorem Dev.powerOn_waits {d : Dev} (h : d.avl.powerFail = true) (cause : Nat) (f : Found) :
    d.powerOn cause f = d.powerOnState cause :=
  Dev.boot_waits (((d.powerOnState_cold cause).powerFail.trans (d.noteStops_powerFail cause)).trans h) f

theorem Dev.coldBooting_powerFail (d : Dev) (cause : Nat) : (d.coldBooting cause).avl.powerFail = d.avl.powerFail := by
  rw [(d.coldBooting_cold cause).powerFail, Dev.logCopy_avl, Dev.noteStops_powerFail]

/-- A cold reset under power-fail ends before the boot. -/
theorem Dev.coldReset_waits {d : Dev} (h : d.avl.powerFail = true) (cause : Nat) (f : Found) :
    d.coldReset cause f = d.coldBooting cause :=
  Dev.boot_waits ((d.coldBooting_powerFail cause).trans h) f

/-- With no path built the cold reset pin is a cold reset at once. -/
theorem Dev.coldPin_unbuilt {d : Dev} (htrip : d.avl.tripHold = false) (hstate : d.rd .STI_STATUS_STATE ≠ 3) (f : Found)
    (fl : Flush) : d.coldPin f fl = d.coldReset 0 f := by
  unfold Dev.coldPin Dev.coldRequest
  rw [if_neg (by simp [htrip]), if_neg (fun h => hstate h.1)]

/-- Settles O59: under power-fail the boot changes nothing, and what stands before it is the cold state, marked. -/
theorem resetCommands : Obligations.ResetCommands := by
  unfold Obligations.ResetCommands
  refine ⟨fun s supplies f hfail => ?_, fun s f fl hfail htrip hstate => ?_⟩
  · refine ⟨_, Does.of rfl (Dev.powerOn_waits hfail _ f), ?_⟩
    have hcold := s.dev.powerOnState_cold (if supplies then 4 else 0)
    refine ⟨hcold.ram, hcold.now, Dev.markReset_kind .., hcold.active, hcold.conns, hcold.streams, ?_, ?_⟩
    · rw [hcold.plog, Dev.noteStops_plog]
    · rw [hcold.boot, Dev.noteStops_mgt]
  · refine ⟨_, Does.of rfl ((Dev.coldPin_unbuilt htrip hstate f fl).trans (Dev.coldReset_waits hfail 0 f)), ?_⟩
    have hcold := s.dev.coldBooting_cold 0
    refine ⟨hcold.ram, hcold.now, ?_, ?_, hcold.active, hcold.conns, hcold.streams, ?_⟩
    · rw [Dev.coldBooting_rd]; exact Dev.markReset_kind ..
    · rw [Dev.coldBooting_rd]; exact Dev.markReset_cause ..
    · rw [hcold.boot, Dev.logCopy_mgt, Dev.noteStops_mgt]

end Sys2Proof.Machine

/-! SUPPORT. The reset of an instance that runs nothing and holds nothing (R402 to R404), and the statement
InstanceResetCommand. -/
namespace Sys2Proof.Machine

/-! ## What the steps of the sequence keep -/

/-- `d` and `e` agree on memory, on the mailboxes, on the generation of instance `n`, and on the work that later steps of
its reset look for. -/
structure Quiet (n : Nat) (d e : Dev) : Prop where
  ram : e.ram = d.ram
  ins : e.ins = d.ins
  streams : e.cap.streams = d.cap.streams
  txns : e.dur.txns = d.dur.txns
  updates : e.gk.updates = d.gk.updates
  gen : e.gen n = d.gen n

namespace Quiet

variable {n : Nat} {d e f : Dev}

theorem refl (n : Nat) (d : Dev) : Quiet n d d := ⟨rfl, rfl, rfl, rfl, rfl, rfl⟩

theorem trans (h : Quiet n d e) (h' : Quiet n e f) : Quiet n d f where
  ram := h'.ram.trans h.ram
  ins := h'.ins.trans h.ins
  streams := h'.streams.trans h.streams
  txns := h'.txns.trans h.txns
  updates := h'.updates.trans h.updates
  gen := h'.gen.trans h.gen

theorem mbxIn (h : Quiet n d e) (k : Nat) : e.mbxIn k = d.mbxIn k := by
  rw [Dev.mbxIn, h.ins, Dev.mbxIn]

/-- A field other than the generation is written. -/
theorem wr {g : Fld} (hg : g ≠ .INS_STATUS_GENERATION) (h : Quiet n d e) (v i : Nat) : Quiet n d (e.wr g v i) :=
  h.trans ⟨rfl, rfl, rfl, rfl, rfl, Dev.rd_wr_fld _ hg.symm ..⟩

theorem wrAll {g : Fld} (hg : g ≠ .INS_STATUS_GENERATION) (v : Nat) (is : List Nat) :
    ∀ {e : Dev}, Quiet n d e → Quiet n d (e.wrAll g v is) := by
  induction is with
  | nil => exact fun h => h
  | cons i is ih => exact fun h => ih (h.wr hg v i)

theorem raiseI (h : Quiet n d e) (k code : Nat) (fs : List (Nat × Nat)) : Quiet n d (e.raiseI k code fs) :=
  h.trans ⟨rfl, rfl, rfl, rfl, rfl, Dev.raiseI_rd ..⟩

theorem foldl {α : Type} {g : Dev → α → Dev} (hg : ∀ e x, Quiet n e (g e x)) (xs : List α) :
    ∀ e, Quiet n e (xs.foldl g e) := by
  induction xs with
  | nil => exact refl n
  | cons x xs ih => exact fun e => (hg e x).trans (ih _)

end Quiet

/-! ## The steps, where there is nothing to end -/

/-- With no command, controller or connection only the limit's flag is shown. -/
theorem Dev.hostInstanceReset_nothing {d : Dev} (n : Nat) (hcmds : d.hq.cmds = []) (hctrls : d.hq.ctrls = [])
    (hconns : d.hq.conns = []) : d.hostInstanceReset n = d.wr .DUR_STATUS_DIRTY_LIMITED 0 := by
  unfold Dev.hostInstanceReset Dev.showLimited
  simp [hcmds, hctrls, hconns]

/-- With every queue empty only the context slots are shown. -/
theorem Dev.codecInstanceReset_nothing {d : Dev} (n : Nat) (hheld : ∀ q, d.qHeld q = 0) :
    d.codecInstanceReset n = d.setCtxs (d.cdc.ctxs.filter (fun p => p.2.inst != n)) := by
  unfold Dev.codecInstanceReset
  rw [List.foldl_fixed' (fun q => if_neg (fun h => h.2 (hheld q)))]

theorem Dev.qHeld_wr (d : Dev) {g : Fld} (htail : g ≠ .CDC_Q_SQ_TAIL) (hdepth : g ≠ .CDC_Q_CFG_DEPTH)
    (hhead : g ≠ .CDC_Q_SQ_HEAD_HEAD) (v i q : Nat) : (d.wr g v i).qHeld q = d.qHeld q := by
  simp only [Dev.qHeld, Dev.qDepth, Dev.rd_wr_fld _ htail.symm, Dev.rd_wr_fld _ hdepth.symm, Dev.rd_wr_fld _ hhead.symm]

theorem Dev.qHeld_raiseI (d : Dev) (k code : Nat) (fs : List (Nat × Nat)) (q : Nat) : (d.raiseI k code fs).qHeld q = d.qHeld q := by
  simp only [Dev.qHeld, Dev.qDepth, Dev.raiseI_rd]

/-- No frozen frame waits where there is no stream. -/
theorem Dev.refillDrain_nothing {d : Dev} (h : d.cap.streams = []) : d.refillDrain = d := by
  unfold Dev.refillDrain
  rw [h]
  rfl

theorem Quiet.refillDrain {n : Nat} {d e : Dev} (h : Quiet n d e) (hnone : d.cap.streams = []) : Quiet n d e.refillDrain := by
  rwa [Dev.refillDrain_nothing (h.streams.trans hnone)]

theorem Quiet.setCtxs {n : Nat} {d e : Dev} (h : Quiet n d e) (m : AMap CodecCtx) : Quiet n d (e.setCtxs m) :=
  (h.trans (f := { e with cdc.ctxs := m }) ⟨rfl, rfl, rfl, rfl, rfl, rfl⟩).wr (g := .CDC_POOL_STATUS_CTX_FREE) (by decide) _ _

theorem Dev.quiet_eftInstanceReset (d : Dev) (n : Nat) : Quiet n d (d.eftInstanceReset n) := ⟨rfl, rfl, rfl, rfl, rfl, rfl⟩

/-- Without streams the windows and the queue are filtered and two registers follow. -/
theorem Dev.quiet_capInstanceReset {d : Dev} (n : Nat) (h : d.cap.streams = []) : Quiet n d (d.capInstanceReset n) := by
  unfold Dev.capInstanceReset
  simp only [h, List.filter_nil, List.map_nil, List.foldl_nil]
  generalize hstart : ({ d with cap.windows := _, cap.queue := _, cap.streams := _ } : Dev) = e
  have he : Quiet n d e := by
    rw [← hstart]
    exact ⟨rfl, rfl, h.symm, rfl, rfl, rfl⟩
  exact ((he.wr (by decide) _ _).wrAll (by decide) _ _).refillDrain h

/-- Without transactions none begins again. -/
theorem Dev.rebase_nothing {d : Dev} (n : Nat) (h : d.dur.txns = []) : d.rebase n = d := by
  unfold Dev.rebase
  rw [h]
  rfl

/-- Without waiting updates handles close, the instance's entries clear, and 0x7030 says so. -/
theorem Dev.quiet_gkInstanceReset {d : Dev} (n : Nat) (cs : List Nat) (h : d.gk.updates = []) :
    Quiet n d (d.gkInstanceReset n cs) := by
  unfold Dev.gkInstanceReset
  simp only [h, List.filter_nil]
  rw [Dev.gkResume_nothing rfl]
  refine Quiet.raiseI ?_ _ _ _
  exact ⟨rfl, rfl, rfl, rfl, h.symm, rfl⟩

theorem Dev.quiet_chkInstanceReset (d : Dev) (n : Nat) : Quiet n d (d.chkInstanceReset n) := by
  unfold Dev.chkInstanceReset
  refine Quiet.trans ?_ (Quiet.foldl (fun e i => ?_) _ _)
  · exact ⟨rfl, rfl, rfl, rfl, rfl, rfl⟩
  · exact (((Quiet.refl n e).wr (by decide) _ _).wr (by decide) _ _).wr (by decide) _ _

/-- A field that survives the reset reads as before. -/
theorem Dev.rd_resetRegs_survives (d : Dev) {f : Fld} {k : Rst} (h : f.survives k = true) (sel : Fld → Nat → Bool) (i : Nat) :
    (d.resetRegs k sel).rd f i = d.rd f i := by
  have hkeep : (allFlds.filter (fun g => !g.survives k)).any
      (fun g => g.ctorIdx == fkey f i % 1024 && sel g (fkey f i / 1024)) = false := by
    rw [List.any_eq_false]
    intro g hg hsel
    have hidx : g.ctorIdx = fkey f i % 1024 := by simpa using (Bool.and_eq_true_iff.mp hsel).1
    have hgf : g = f := Fld.ctorIdx_inj (by have := f.ctorIdx_lt; unfold fkey at hidx; omega)
    simp [hgf, h] at hg
  show amGet _ (fkey f i) (d.regs.filter _) = _
  rw [amGet_filter _ _ (fun e => !(allFlds.filter (fun g => !g.survives k)).any
    (fun g => g.ctorIdx == e % 1024 && sel g (e / 1024))), hkeep]
  rfl

@[simp] theorem Dev.resetRegs_ram (d : Dev) (k : Rst) (sel : Fld → Nat → Bool) : (d.resetRegs k sel).ram = d.ram := rfl
@[simp] theorem Dev.resetRegs_ins (d : Dev) (k : Rst) (sel : Fld → Nat → Bool) : (d.resetRegs k sel).ins = d.ins := rfl

/-! ## The sequence -/

/-- The reset is under way: BUSY, 0xC001, the next generation. -/
def Dev.resetBegun (d : Dev) (n : Nat) : Dev :=
  ((d.wr .INS_STATUS_RESET_BUSY 1 n).raiseI n 0xC001 [(1, n), (2, (d.gen n + 1) % 65536)]).wr .INS_STATUS_GENERATION
    ((d.gen n + 1) % 65536) n

/-- The instance's work ended, unit by unit. -/
def Dev.workEnded (d : Dev) (n : Nat) : Dev :=
  let a := ((d.hostInstanceReset n).codecInstanceReset n).eftInstanceReset n
  let b := (d.coresOf n).foldl (fun (d : Dev) c => d.halt c .instanceReset) ((a.capInstanceReset n).rebase n)
  (b.gkInstanceReset n (d.coresOf n)).chkInstanceReset n

/-- The registers returned to Reset and the outbound mailbox emptied. -/
def Dev.instanceCleared (d : Dev) (n : Nat) : Dev :=
  ((d.workEnded n).resetRegs .i (d.resetsWith n (d.coresOf n))).setOut n []

/-- A device of which no unit holds work. -/
structure Dev.Unoccupied (d : Dev) (n : Nat) : Prop where
  cores : d.coresOf n = []
  streams : d.cap.streams = []
  cmds : d.hq.cmds = []
  ctrls : d.hq.ctrls = []
  conns : d.hq.conns = []
  txns : d.dur.txns = []
  updates : d.gk.updates = []
  held : ∀ q, d.qHeld q = 0

theorem Dev.Unoccupied.resetBegun {d : Dev} {n : Nat} (h : d.Unoccupied n) : (d.resetBegun n).Unoccupied n where
  cores := h.cores
  streams := h.streams
  cmds := h.cmds
  ctrls := h.ctrls
  conns := h.conns
  txns := h.txns
  updates := h.updates
  held q := by
    unfold Dev.resetBegun
    rw [Dev.qHeld_wr _ (by decide) (by decide) (by decide), Dev.qHeld_raiseI,
      Dev.qHeld_wr _ (by decide) (by decide) (by decide), h.held q]

/-- With nothing held every unit's step is quiet. -/
theorem Dev.Unoccupied.quiet_workEnded {d : Dev} {n : Nat} (h : d.Unoccupied n) : Quiet n d (d.workEnded n) := by
  have hlimited : Quiet n d (d.hostInstanceReset n) := by
    rw [Dev.hostInstanceReset_nothing n h.cmds h.ctrls h.conns]
    exact (Quiet.refl n d).wr (by decide) _ _
  have hheld : ∀ q, (d.hostInstanceReset n).qHeld q = 0 := fun q => by
    rw [Dev.hostInstanceReset_nothing n h.cmds h.ctrls h.conns, Dev.qHeld_wr _ (by decide) (by decide) (by decide), h.held q]
  have hcodec : Quiet n d ((d.hostInstanceReset n).codecInstanceReset n) := by
    rw [Dev.codecInstanceReset_nothing n hheld]
    exact hlimited.setCtxs _
  have htasks := hcodec.trans (Dev.quiet_eftInstanceReset _ n)
  have hcap := htasks.trans (Dev.quiet_capInstanceReset n (htasks.streams.trans h.streams))
  unfold Dev.workEnded
  simp only [h.cores, List.foldl_nil]
  rw [Dev.rebase_nothing n (hcap.txns.trans h.txns)]
  exact (hcap.trans (Dev.quiet_gkInstanceReset n [] (hcap.updates.trans h.updates))).trans (Dev.quiet_chkInstanceReset _ n)

theorem Dev.gen_resetBegun (d : Dev) (n : Nat) : (d.resetBegun n).gen n = (d.gen n + 1) % 65536 := by
  have hwidth : 2 ^ Fld.width .INS_STATUS_GENERATION = 65536 := by decide
  rw [Dev.gen, Dev.resetBegun, Dev.rd_wr_same, hwidth, Nat.mod_mod]

theorem Dev.setOut_gen (d : Dev) (n k : Nat) (ms : List (List Byte)) : (d.setOut n ms).gen k = d.gen k :=
  Dev.rd_wr_fld _ (by decide) ..

@[simp] theorem Dev.resetBegun_ram (d : Dev) (n : Nat) : (d.resetBegun n).ram = d.ram := by simp [Dev.resetBegun]
@[simp] theorem Dev.resetBegun_mbxIn (d : Dev) (n k : Nat) : (d.resetBegun n).mbxIn k = d.mbxIn k := by
  simp [Dev.resetBegun, Dev.mbxIn]

theorem Dev.mbxOut_instanceCleared (d : Dev) (n : Nat) : (d.instanceCleared n).mbxOut n = [] := by
  rw [Dev.instanceCleared, Dev.mbxOut_setOut]

theorem Dev.ram_instanceCleared (d : Dev) (n : Nat) : (d.instanceCleared n).ram = (d.workEnded n).ram := by
  rw [Dev.instanceCleared, Dev.setOut_ram, Dev.resetRegs_ram]

theorem Dev.mbxIn_instanceCleared (d : Dev) (n : Nat) : (d.instanceCleared n).mbxIn n = (d.workEnded n).mbxIn n := by
  rw [Dev.instanceCleared, Dev.mbxIn_setOut, Dev.mbxIn, Dev.resetRegs_ins, Dev.mbxIn]

theorem Dev.gen_instanceCleared (d : Dev) (n : Nat) : (d.instanceCleared n).gen n = (d.workEnded n).gen n := by
  rw [Dev.instanceCleared, Dev.setOut_gen, Dev.gen, Dev.rd_resetRegs_survives _ (by decide), Dev.gen]

/-- The reset is over: BUSY falls and 0xC010 carries the time it took. -/
def Dev.resetEnded (d : Dev) (n : Nat) : Dev :=
  ((d.draw 64).2.wr .INS_STATUS_RESET_BUSY 0 n).raiseI n 0xC010 [(1, n), (4, (d.draw 64).1 % 1000001)]

@[simp] theorem Dev.resetEnded_ram (d : Dev) (n : Nat) : (d.resetEnded n).ram = d.ram := by simp [Dev.resetEnded]
@[simp] theorem Dev.resetEnded_mbxOut (d : Dev) (n k : Nat) : (d.resetEnded n).mbxOut k = d.mbxOut k := by
  simp [Dev.resetEnded, Dev.mbxOut]
@[simp] theorem Dev.resetEnded_mbxIn (d : Dev) (n k : Nat) : (d.resetEnded n).mbxIn k = d.mbxIn k := by
  simp [Dev.resetEnded, Dev.mbxIn]
@[simp] theorem Dev.resetEnded_gen (d : Dev) (n : Nat) : (d.resetEnded n).gen n = d.gen n := by
  simp [Dev.resetEnded, Dev.gen, Dev.rd_wr_fld]
@[simp] theorem Dev.resetEnded_busy (d : Dev) (n : Nat) : (d.resetEnded n).rd .INS_STATUS_RESET_BUSY n = 0 := by
  simp [Dev.resetEnded]

theorem Dev.logged_resetEnded (d : Dev) (n : Nat) :
    ∃ us ≤ 1000000, (d.resetEnded n).logged 0xC010 n (packData [(1, n), (4, us)]) :=
  ⟨_, Nat.le_of_lt_succ (Nat.mod_lt _ (Nat.succ_pos _)), Dev.logged_raiseI ..⟩

/-- An instance reset that is not refused. -/
theorem Dev.instanceReset_runs {d : Dev} {n : Nat} (hn : n ≠ 0) (hon : d.insOn n = true)
    (hfree : d.rd .INS_STATUS_RESET_BUSY n = 0) :
    d.instanceReset n = ((d.resetBegun n).instanceCleared n).resetEnded n := by
  unfold Dev.instanceReset
  rw [if_neg (by simp [hn, hon, hfree])]
  rfl

/-- An instance reset that is refused. -/
theorem Dev.instanceReset_refused {d : Dev} {n : Nat} (h : n = 0 ∨ d.insOn n = false ∨ d.rd .INS_STATUS_RESET_BUSY n = 1) :
    d.instanceReset n = d.raiseI n 0xC011 [(1, n)] := by
  unfold Dev.instanceReset
  refine if_pos ?_
  rcases h with h | h | h
  · exact .inr (.inl h)
  · exact .inr (.inr (by simp [h]))
  · exact .inl h

/-- Settles O50: with nothing held each step of the sequence keeps memory, the mailboxes and the new generation; the end of
the sequence empties the outbound mailbox and reports. -/
theorem instanceResetCommand : Obligations.InstanceResetCommand := by
  unfold Obligations.InstanceResetCommand
  refine ⟨?runs, fun s n h => Does.of rfl (Dev.instanceReset_refused (h.imp_left (congrArg Fin.val)))⟩
  case runs =>
    intro s n hn hon hfree hcores hstreams _ _ hcmds hctrls hconns htxns _ _ hupdates hheld
    have hun : s.dev.Unoccupied n := ⟨hcores, hstreams, hcmds, hctrls, hconns, htxns, hupdates, hheld⟩
    have hquiet := hun.resetBegun.quiet_workEnded
    refine ⟨_, Does.of rfl (Dev.instanceReset_runs (fun h => hn (Fin.ext h)) hon hfree), ?gen, Dev.resetEnded_busy .., ?out,
      ?inbox, SameMem.of_ram ?mem, Dev.logged_resetEnded ..⟩
    case gen => rw [Dev.resetEnded_gen, Dev.gen_instanceCleared, hquiet.gen, Dev.gen_resetBegun]
    case out => rw [Dev.resetEnded_mbxOut, Dev.mbxOut_instanceCleared]
    case inbox =>
      rw [Dev.resetEnded_mbxIn, Dev.mbxIn_instanceCleared, hquiet.mbxIn, Dev.resetBegun_mbxIn]
    case mem => rw [Dev.resetEnded_ram, Dev.ram_instanceCleared, hquiet.ram, Dev.resetBegun_ram]

end Sys2Proof.Machine
